-- ==== Sys2Proof/Word.lean ====
section
/-! DEFINITION. The words, ports, engines and masters of the ZN-4806: the operand types of the commands
(00 R13, 01 R22, 01 R38). -/

namespace Sys2Proof

/-- One byte of an engine address space (R13). -/
abbrev Byte := BitVec 8

/-- One host window word, transferred whole on D[15:0] (R13). -/
abbrev Half := BitVec 16

/-- One instruction word of a Cerxa engine (R318). -/
abbrev IWord := BitVec 24

/-- The engines CE0 to CE5 (R22). -/
abbrev Eng := Fin 6

/-- The host ports: 0 is H1 (HP1), 1 is H2 (HP2). -/
abbrev Port := Fin 2

/-- The masters of the I/O fabric in the order of R38: CE0 to CE5, then the host ports, with the PRIV
level sampled for the access (R275). -/
inductive Mst where
  | ce (e : Eng)
  | hp (p : Port) (priv : Bool)
  deriving DecidableEq, Repr

/-- Where a platform request comes from (R216): a master's SREQ or PLATREQ write, a WAKEn input, the lid, a short or a
long press, or a KSC wake request. -/
inductive PlatSrc where
  | mst (m : Mst)
  | wake | lid | press | long | key
  deriving DecidableEq, Repr

/-- What the instruction register of the test port holds, as far as TESTCTL tells instructions apart (R290). -/
inductive TapIr where
  | bypass | idcode | other
  deriving DecidableEq, Repr

/-- The blocks with staged fields and a common header (R40 to R45). -/
inductive SBlk where
  | ksc | lgt | chg | seq | tha | dct | bmk | cpy
  deriving DecidableEq, Repr

/-- The three device modes (R9). -/
inductive Mode where
  | run | watch | ship
  deriving DecidableEq, Repr

/-- The device domains D0 to D7 by number (R32). -/
abbrev Dom := Fin 8

/-- The special register operand of MFS and MTS: the register and the pair or G register beside it (R365). -/
inductive SReg where
  | cnt (n : Fin 8)
  | lnk (n : Fin 8)
  | dsb (g : Fin 16)
  | iob (n : Fin 8)
  deriving DecidableEq, Repr

/-- The analog values of one CHG switching period: voltages in mV, currents in mA, gate-driver temperature in
1/16 °C (R150, R182). -/
structure ChgMeas where
  vin : Int
  vchg : Int
  vsys : Int
  pack : Int
  cells : Vector Int 5
  iin : Int
  ibat : Int
  il : Int
  tj : Int
  deriving DecidableEq, Repr

/-- The current demands of the CHG loops, in mA: the primary loop, then the limiting loops of R150 (cell voltage,
pack voltage, input current, input voltage, junction). -/
structure ChgDemand where
  primary : Int
  cell : Int
  pack : Int
  iin : Int
  vin : Int
  tj : Int
  deriving DecidableEq, Repr

/-- The averages of one 1-ms telemetry interval (R182): as ChgMeas, the converter output current in mA, input and
output power in mW, the conduction fractions of Q1 to Q4 in 1/65536 and the gate-drive supply in 25 mV. -/
structure ChgTelem where
  m : ChgMeas
  iout : Int
  pin : Int
  pout : Int
  frac : Vector Nat 4
  drvv : Nat
  deriving DecidableEq, Repr

end Sys2Proof
end

