-- ==== Sys2Proof/Syntax.lean ====
section
/-! DEFINITION. The commands of the block: one constructor per row of spec/opcode_table.json. Those with operands stand first, 245 of
them in the table's order: Lean's compiler builds terms of the first 245 constructors only. An operand with a
default stands last: left out, it is the event alone on its edge, the pin at its active level, or an input of 0. -/

namespace Sys2Proof

/-- The commands. e is the engine that acts, m the master, p and priv a host port with its PRIV level; the other operands are the
values that a command carries, or what the pins and the analog parts show with an event. -/
inductive Instr where
  | registerWrite (m : Mst) (adr : Half) (v : Half) (same : Bool := false)
  | writeOverrun (p : Port) (off : BitVec 6)
  | strobeConflict (p : Port) (off : BitVec 6) (wr : Bool)
  | commit (e : Eng) (b : SBlk) (same : Bool := false)
  | commitApply (b : SBlk)
  | resetSequence (last : Fin 6 := 5) (ringBad : List Half := []) (nvmBad : List (BitVec 11) := [])
  | pllLoss (same : Bool := false)
  | pllRestart (failed : Bool)
  | relock (e : Eng)
  | keySample (sense : BitVec 20) (rise : Vector Nat 20) (low : BitVec 20) (newer : Bool := false)
  | sndgo (e : Eng)
  | scanStart (e : Eng)
  | scanStopRequest (e : Eng)
  | encoderEdge (n : Fin 4) (a : Bool) (b : Bool) (newer : Bool := false)
  | enczero (e : Eng) (mask : BitVec 4)
  | encposRead (p : Port) (priv : Bool)
  | enccntRead (e : Eng) (n : Fin 4)
  | encerrRead (e : Eng) (again : Bool := false)
  | freeze (p : Port) (priv : Bool)
  | keywinRead (p : Port) (priv : Bool)
  | keyprovRead (p : Port) (priv : Bool)
  | kevdatRead (e : Eng) (again : Bool := false)
  | lineSlotStart (low : BitVec 72) (high : BitVec 72) (opens : BitVec 72) (shorts : BitVec 72) (gap : Half := 0)
  | ledFault (n : BitVec 11)
  | headroom (c : Fin 3)
  | railFault (c : Fin 3) (same : Bool := false)
  | railFaultClear (e : Eng)
  | stringOpen (n : Fin 8) (same : Bool := false)
  | lightingRun (e : Eng)
  | lightingStopRequest (e : Eng)
  | liteNone (m : Mst)
  | liteCommit (m : Mst)
  | commitLocal (m : Mst)
  | blank (m : Mst)
  | unblank (m : Mst)
  | copybackComplete (n : Fin 1161 := 1160)
  | lixdatWrite (e : Eng) (v : Half)
  | lixdatRead (e : Eng) (again : Bool := false)
  | faultMapClear (e : Eng)
  | ltinWrite (e : Eng) (v : Half)
  | lsyncPulse (low : Half) (off : Int)
  | periodStart (x : ChgMeas) (d : ChgDemand) (on : Half)
  | telemetryInterval (t : ChgTelem)
  | tbatConversion (y : BitVec 14)
  | tmrlatchClear (e : Eng)
  | cellOv (c : Fin 6) (v : Half) (same : Bool := false)
  | ovpClear (e : Eng) (cells : Vector Int 5 := Vector.replicate 5 0)
  | chargerEnable (e : Eng) (on : Bool)
  | acgOn (vin : Half)
  | inputAttach (vin : Half)
  | inputLost (rev : Bool)
  | inputOv (vin : Half) (same : Bool := false)
  | battRemoved (rise : Bool) (bid : Bool) (vsys : Half) (same : Bool := false) (ended : Bool := false)
  | battInserted (pack : Half)
  | rbgo (e : Eng)
  | rbstop (e : Eng)
  | lfmgo (e : Eng)
  | chgselHold (p : Port) (priv : Bool)
  | platformRequest (tgt : BitVec 4) (src : PlatSrc) (newer : Bool := false)
  | stepWaitpg (pins : BitVec 32)
  | waitpgComplete (pins : BitVec 32)
  | pgTimeout (same : Bool := false)
  | pgLost (n : Fin 32) (pins : BitVec 32) (same : Bool := false)
  | unwindReverseStep (pins : BitVec 32)
  | powerButtonPress (newer : Bool := false)
  | hardOff (same : Bool := false)
  | lidDecision (high : Bool) (newer : Bool := false)
  | wakeInput (n : Fin 4) (high : Bool := true) (newer : Bool := false)
  | scurWrite (e : Eng) (v : Byte)
  | psoutWrite (e : Eng) (v : BitVec 32)
  | thaEnable (e : Eng)
  | anResolve (uv : Vector Nat 16)
  | sensorReading (src : Fin 9) (v1 : Nat) (v2 : Nat) (v3 : Nat) (die : Int)
  | sensorFault (src : Fin 9)
  | trip (n : Fin 8) (x : Int := 0) (same : Bool := false)
  | tripClear (n : Fin 8) (x : Int := 0)
  | tractClear (e : Eng) (mask : Byte) (ins : Vector Int 4)
  | vtWrite (m : Mst) (n : Fin 4) (v : Half)
  | vtStale (n : Fin 4)
  | fanCurveUpdate (n : Fin 4)
  | tachEdge (n : Fin 4) (ck : Nat) (spans : Bool)
  | fanStall (n : Fin 4)
  | fanvalWrite (p : Port) (priv : Bool) (v : Half)
  | quickCommand (e : Eng) (c : Fin 4)
  | sendByte (e : Eng) (c : Fin 4)
  | receiveByte (e : Eng) (c : Fin 4)
  | writeByte (e : Eng) (c : Fin 4)
  | writeWord (e : Eng) (c : Fin 4)
  | readByte (e : Eng) (c : Fin 4)
  | readWord (e : Eng) (c : Fin 4)
  | processCall (e : Eng) (c : Fin 4)
  | blockWrite (e : Eng) (c : Fin 4)
  | blockRead (e : Eng) (c : Fin 4)
  | write32 (e : Eng) (c : Fin 4)
  | read32 (e : Eng) (c : Fin 4)
  | smbTransactionEnd (c : Fin 4) (ackA : Bool) (ackB : Bool) (acked : Nat) (rx : List Byte) (stuck : Bool)
  | arbLost (c : Fin 4) (n : Byte)
  | smbTimeout (c : Fin 4) (n : Byte)
  | smabort (e : Eng) (c : Fin 4)
  | smdatAccess (e : Eng) (c : Fin 4) (w : Option Byte) (again : Bool := false)
  | portPowered (p : Port) (v18 : Bool)
  | portUnpowered (p : Port)
  | prst (p : Port) (priv : Bool)
  | hintsClear (p : Port) (priv : Bool) (inte : Bool) (v : Half)
  | errinfoRead (p : Port) (priv : Bool)
  | mbselWrite (p : Port) (priv : Bool) (v : Half)
  | mbdataRead (p : Port) (priv : Bool)
  | mbdataWrite (p : Port) (priv : Bool) (v : Half)
  | mailboxSend (p : Port) (priv : Bool) (len : BitVec 5)
  | mailboxRelease (p : Port) (priv : Bool) (sent : Bool := false)
  | dbset (p : Port) (priv : Bool) (k : BitVec 6)
  | dbclr (p : Port) (priv : Bool) (k : BitVec 6)
  | dbclrAll (p : Port) (priv : Bool)
  | lockAcquire (m : Mst) (others : List Mst)
  | lockRelease (m : Mst) (l : BitVec 5)
  | refcntAccess (p : Port) (priv : Bool) (w : Option (BitVec 4))
  | rfclr (e : Eng)
  | fbwinRead (p : Port) (priv : Bool)
  | fewinRead (e : Eng) (again : Bool := false)
  | fieldBookClear (m : Mst) (v : Half) (same : Bool := false)
  | fieldBookRecord (src : Byte) (typ : Byte) (pay : List Half) (same : Bool := false)
  | writeThrough (ok1 : Bool) (ok2 : Bool) (floor : Bool := true)
  | firmwareRecord (e : Eng)
  | snapshotTrigger (m : Mst) (same : Bool := false)
  | snapPin (same : Bool := false)
  | svrel (e : Eng)
  | snapwinRead (p : Port) (priv : Bool)
  | svdatRead (e : Eng) (again : Bool := false)
  | svmissRead (e : Eng) (again : Bool := false)
  | rtcHold (m : Mst)
  | rtcLoad (m : Mst)
  | rtcWrite (m : Mst) (n : Fin 7) (v : Byte)
  | windatRead (p : Port) (priv : Bool) (again : Bool := false)
  | windatWrite (p : Port) (priv : Bool) (v : Half) (same : Bool := false)
  | hpsvcWrite (e : Eng) (v : Byte)
  | echselWrite (e : Eng) (v : Half)
  | embdatRead (e : Eng) (again : Bool := false)
  | engineSend (e : Eng) (len : Fin 16) (ring : Bool)
  | engineRelease (e : Eng) (sent : Bool := false)
  | ack (e : Eng)
  | rolemapWrite (e : Eng) (role : Fin 6) (v : BitVec 3)
  | edbset (e : Eng) (p : Port) (k : BitVec 6)
  | edbclr (e : Eng) (p : Port) (all : Bool) (k : BitVec 6)
  | xsig (e : Eng) (mask : BitVec 6)
  | interruptAccept (e : Eng) (word : IWord)
  | waitResume (e : Eng) (word : IWord)
  | watchdogEnable (e : Eng) (warn : BitVec 2)
  | watchdogKick (e : Eng) (v : Byte)
  | watchdogWarning (e : Eng)
  | watchdogExpiry (e : Eng) (same : Bool := false)
  | timerStart (e : Eng) (n : Fin 2) (periodic : Bool) (pre : BitVec 2)
  | timerExpiry (e : Eng) (n : Fin 2)
  | cxNop (e : Eng)
  | cxAdd (e : Eng) (d : Fin 16) (a : Fin 16) (b : Fin 16)
  | cxSub (e : Eng) (d : Fin 16) (a : Fin 16) (b : Fin 16)
  | cxAddc (e : Eng) (d : Fin 16) (a : Fin 16) (b : Fin 16) (x : Fin 16)
  | cxSubc (e : Eng) (d : Fin 16) (a : Fin 16) (b : Fin 16) (x : Fin 16)
  | cxCarry (e : Eng) (d : Fin 16) (a : Fin 16) (b : Fin 16)
  | cxCarryc (e : Eng) (d : Fin 16) (a : Fin 16) (b : Fin 16) (x : Fin 16)
  | cxBorrow (e : Eng) (d : Fin 16) (a : Fin 16) (b : Fin 16)
  | cxBorrowc (e : Eng) (d : Fin 16) (a : Fin 16) (b : Fin 16) (x : Fin 16)
  | cxAnd (e : Eng) (d : Fin 16) (a : Fin 16) (b : Fin 16)
  | cxOr (e : Eng) (d : Fin 16) (a : Fin 16) (b : Fin 16)
  | cxXor (e : Eng) (d : Fin 16) (a : Fin 16) (b : Fin 16)
  | cxShl (e : Eng) (d : Fin 16) (a : Fin 16) (b : Fin 16)
  | cxShr (e : Eng) (d : Fin 16) (a : Fin 16) (b : Fin 16)
  | cxSar (e : Eng) (d : Fin 16) (a : Fin 16) (b : Fin 16)
  | cxMull (e : Eng) (d : Fin 16) (a : Fin 16) (b : Fin 16)
  | cxMulh (e : Eng) (d : Fin 16) (a : Fin 16) (b : Fin 16)
  | cxSeq (e : Eng) (d : Fin 16) (a : Fin 16) (b : Fin 16)
  | cxSltu (e : Eng) (d : Fin 16) (a : Fin 16) (b : Fin 16)
  | cxSlts (e : Eng) (d : Fin 16) (a : Fin 16) (b : Fin 16)
  | cxAddd (e : Eng) (d : Fin 16) (a : Fin 16) (b : Fin 16)
  | cxSubd (e : Eng) (d : Fin 16) (a : Fin 16) (b : Fin 16)
  | cxDcar (e : Eng) (d : Fin 16) (a : Fin 16) (b : Fin 16)
  | cxDaa (e : Eng) (d : Fin 16) (a : Fin 16)
  | cxAddi (e : Eng) (d : Fin 16) (a : Fin 16) (k : Byte)
  | cxAndi (e : Eng) (d : Fin 16) (a : Fin 16) (k : Byte)
  | cxOri (e : Eng) (d : Fin 16) (a : Fin 16) (k : Byte)
  | cxXori (e : Eng) (d : Fin 16) (a : Fin 16) (k : Byte)
  | cxShli (e : Eng) (d : Fin 16) (a : Fin 16) (n : Fin 8)
  | cxShri (e : Eng) (d : Fin 16) (a : Fin 16) (n : Fin 8)
  | cxSari (e : Eng) (d : Fin 16) (a : Fin 16) (n : Fin 8)
  | cxSeqi (e : Eng) (d : Fin 16) (a : Fin 16) (k : Byte)
  | cxSltiu (e : Eng) (d : Fin 16) (a : Fin 16) (k : Byte)
  | cxMovi (e : Eng) (d : Fin 16) (k : Byte)
  | cxAddp (e : Eng) (d : Fin 8) (a : Fin 8) (k : Byte)
  | cxMfs (e : Eng) (r : SReg)
  | cxMts (e : Eng) (r : SReg)
  | cxLd (e : Eng) (d : Fin 16) (p : Fin 8) (disp : Byte)
  | cxSt (e : Eng) (d : Fin 16) (p : Fin 8) (disp : Byte)
  | cxLdp (e : Eng) (d : Fin 16) (p : Fin 8) (disp : Byte)
  | cxStp (e : Eng) (d : Fin 16) (p : Fin 8) (disp : Byte)
  | cxMvb (e : Eng) (a : Fin 8) (b : Fin 8)
  | cxIld (e : Eng) (d : Fin 16) (p : Fin 8) (sel : Fin 3)
  | cxIst (e : Eng) (d : Fin 16) (p : Fin 8) (sel : Fin 3)
  | cxIn (e : Eng) (d : Fin 16) (port : BitVec 12) (again : Bool := false)
  | cxOut (e : Eng) (d : Fin 16) (port : BitVec 12) (same : Bool := false)
  | cxInr (e : Eng) (d : Fin 16) (p : Fin 8) (disp : Byte) (again : Bool := false)
  | cxOutr (e : Eng) (d : Fin 16) (p : Fin 8) (disp : Byte) (same : Bool := false)
  | cxBeq (e : Eng) (a : Fin 16) (b : Fin 16) (off : Byte)
  | cxBne (e : Eng) (a : Fin 16) (b : Fin 16) (off : Byte)
  | cxBltu (e : Eng) (a : Fin 16) (b : Fin 16) (off : Byte)
  | cxBgeu (e : Eng) (a : Fin 16) (b : Fin 16) (off : Byte)
  | cxBlts (e : Eng) (a : Fin 16) (b : Fin 16) (off : Byte)
  | cxBges (e : Eng) (a : Fin 16) (b : Fin 16) (off : Byte)
  | cxBeqi (e : Eng) (a : Fin 16) (k : BitVec 4) (off : Byte)
  | cxBnei (e : Eng) (a : Fin 16) (k : BitVec 4) (off : Byte)
  | cxJmp (e : Eng) (k : Half)
  | cxCall (e : Eng) (k : Half)
  | cxJr (e : Eng) (p : Fin 8)
  | cxCallr (e : Eng) (p : Fin 8)
  | cxRet (e : Eng)
  | cxTrap (e : Eng) (k : Half)
  | cxRett (e : Eng)
  | cxWait (e : Eng)
  | cxSnap (e : Eng) (same : Bool := false)
  | cxRep (e : Eng) (k : Half) (next : IWord)
  | cxRepu (e : Eng) (k : Half) (next : IWord)
  | cxRepCnt (e : Eng) (next : IWord)
  | cxRepuCnt (e : Eng) (next : IWord)
  | cpygo (e : Eng) (mask : Byte)
  | cpystop (e : Eng) (mask : Byte)
  | erst (e : Eng) (v : Byte)
  | roleLoadComplete (e : Eng)
  | recoveryCheck (p : Port) (priv : Bool)
  | prtixdatAccess (e : Eng) (w : Option Byte) (again : Bool := false)
  | flashErase (e : Eng)
  | flashProgram (e : Eng)
  | svnAdvance (e : Eng)
  | flashCommandDone (ok : Bool)
  | fldatAccess (e : Eng) (w : Option Byte) (again : Bool := false)
  | modeRequestRun (m : Mst) (newer : Bool := false)
  | modeRequestWatch (m : Mst) (newer : Bool := false)
  | modeRequestShip (m : Mst) (newer : Bool := false)
  | modeRefused (rdy : Bool) (drain : Bool) (same : Bool := false)
  | shipWake (n : Fin 3)
  | domainRequestOn (e : Eng) (d : BitVec 3)
  | domainRequestOff (e : Eng) (d : BitVec 3)
  | planStepUp (e : Eng) (n : BitVec 4)
  | planStepDown (e : Eng) (n : BitVec 4)
  | restoreClose (e : Eng)
  | bboundWrite (e : Eng) (v : Byte)
  | monitorUpdate (slack : Vector Half 4) (mv : Half) (t : Half)
  | gpioInputChange (v : BitVec 4)
  | chainShift (ltdi : Bool)
  | testPortReset (low : Bool := true)
  | registerRead (m : Mst) (adr : Half) (again : Bool := false)
  | fanPwmPeriod (n : Fin 4)
  | chipSelectChange (p : Port) (low : Bool)
  | writeStrobeFalling (p : Port) (left : Fin 8)
  | undefinedOpcode (e : Eng) (word : IWord)
  | fetch (e : Eng)
  | deviceResetCommand (e : Eng)
  | katldatAccess (e : Eng) (w : Option Byte) (again : Bool := false)
  | stringShort (n : Fin 8) (same : Bool := false)
  | stageFaultClear (e : Eng) (shorts : Bool) (mask : Byte)
  | cellUv (c : Fin 6) (v : Half)
  | battRemovedSecond (ck : Nat) (same : Bool := false)
  | lossFloorDone (ron : Vector (List (Int × Int)) 4) (qg : Vector (List Nat) 4)
  | contourTableAccess (e : Eng) (w : Option Half) (again : Bool := false)
  | sstdatAccess (e : Eng) (w : Option (BitVec 32)) (again : Bool := false)
  | fanSpeedZero (n : Fin 4)
  | fanKickEnd (n : Fin 4)
  | fanCurveAccess (e : Eng) (w : Option Half) (again : Bool := false)
  | blockWriteBlockReadProcessCall (e : Eng) (c : Fin 4)
  | write64 (e : Eng) (c : Fin 4)
  | read64 (e : Eng) (c : Fin 4)
  | hostNotify (c : Fin 4) (adr : Byte) (dat : Half)
  | lkforce (e : Eng) (l : BitVec 5)
  | bankSupplyChange (b : Fin 6) (up : Bool)
  | testPortClock (tms : Bool) (_tdi : Bool) (ir : TapIr := .bypass)
  | smbBusBusy (c : Fin 4) (start : Bool)
  | chainStart (same : Bool := false)
  | peakCurrentLimit (ended : Bool := false)
  | wakeFallback (same : Bool := false)
  | domainStageReady (own : Bool := false)
  | stressUpdate (run : Option (Fin 60001) := none)
  | powerOnReset
  | resetPin
  | brownout
  | xfail
  | pllLock
  | fallbackReturn
  | ckSourceChange
  | soundingPeriodExpiry
  | soundingRunStart
  | soundingRunEnd
  | scanStop
  | slowFrameStart
  | lgtFrameBoundary
  | lightingStop
  | swap
  | tstale
  | lsyncLost
  | syncflt
  | chainNop
  | chainWrite
  | chainFill
  | chainCommit
  | chainBlank
  | chainUnblank
  | chainRead
  | chainReserved
  | ntcFault
  | ntcRecovery
  | chargeDone
  | recharge
  | safetyTimerTick
  | safetyTimerExpiry
  | preTimeout
  | batgReconnect
  | rbStart
  | rbBackdrive
  | rbOverload
  | lossFloorAuto
  | lossBound
  | stepEnd
  | stepSet
  | stepSetg
  | stepDelay
  | stepWatch
  | stepCommit
  | stepMark
  | unwindEnd
  | powerButtonRelease
  | longPress
  | conversionRound
  | fbkOverflow
  | copyJobBegin
  | copyJobEnd
  | deviceBoot
  | prtseal
  | gatherStart
  | modeCommit
  | watchEntryComplete
  | shipEnter
  | d7Forced
  | wakeDecision
  | wakeTimer
  | wakeComplete
  | runhUpdate
  | rtcTick
  deriving DecidableEq, Repr

end Sys2Proof
end

