-- ==== Sys2Proof/Config.lean ====
section
/-! DEFINITION. What the spec leaves open: opaque constants, with no body, that no proof can see through. -/

namespace Sys2Proof.Config

/-- Rounding of a formula for which the spec names no rounding: the result is the floor, or the ceiling where
this answers true (DESIGN CHOICE, log entry 10). An exact integer is not touched. -/
opaque roundUp : Rat → Bool

/-- The FBNONCE drawn at boot n, less 1; it is never 0 and the spec gives no generator (R284 and DESIGN CHOICE, log entry 11). -/
opaque nonceDraw : Nat → Fin 65535

/-- What a lower-bound settle result above the 12 bits of SNDVAL.S shows in that field (R97, DESIGN CHOICE, log entry 12). -/
opaque wideSettle : Nat → BitVec 12

/-- Silicon revision bytes of REV (R278: "silicon"). -/
opaque siliconRev : BitVec 16

/-- The two OTP key hash slots (R411), which the device is made with. -/
opaque otpKeyHash : Fin 2 → BitVec 256

/-- The OTP revoke fuse of key slot 0 (R411). -/
opaque otpRevoked : Bool

/-- What BOOTSTAT.TRIES shows of a trial count above 15 (R405 and R413, DESIGN CHOICE, log entry 29). -/
opaque wideTries : Nat → BitVec 4

/-- The bytes that a flash erase or program cut short by a reset leaves (no rule states them, DESIGN CHOICE, log entry 28). -/
opaque tornByte : Nat → Nat → BitVec 8

/-- What a 16-bit register shows of a result outside 0 to 65535, where the spec states none (DESIGN CHOICE, log entry 14). -/
opaque wide16 : Int → BitVec 16

/-- LRATIO where FLOOR is 0 (R187 states no result, DESIGN CHOICE, log entry 14). -/
opaque ratioNoFloor : Rat → BitVec 16

/-- The impedance sample where IBAT did not change between the two intervals (R184 states no result, DESIGN CHOICE, log entry 14). -/
opaque zcellNoStep : Int → Int

/-- The temperature, in 1/16 °C, where the thermistor formula divides by 0 or takes the logarithm of 0 (R233, DESIGN CHOICE, log entry 14). -/
opaque ntcNoTemp : Nat → Nat → Nat → Nat → Int

/-- The time of a CMIN step whose charge current is 0 (R185, DESIGN CHOICE, log entry 14). -/
opaque cminNoCurrent : Rat → Rat

/-- The "smallest PLAGE of any enabled item" of the BMK snapshot where no item is enabled (R476, DESIGN CHOICE, log entry 24). -/
opaque noPlanAge : BitVec 16

/-- The oldest SEQ held that FEOLD and a GONE answer show while no record is held (R454, R465, DESIGN CHOICE, log entry 23). -/
opaque noOldest : BitVec 16

/-- A free value the step takes at its number n (DESIGN CHOICE, log entry 13). -/
opaque freeValue : Nat → BitVec 16

end Sys2Proof.Config
end

