-- ==== Sys2Proof/Machine/Ops.lean ====
section
/-! DEFINITION. The shared operations over plain data: sparse maps in canonical form, bit fields, byte order and
the rounding of R517. -/

namespace Sys2Proof.Machine

/-- A sparse map: (key, value) pairs with strictly rising keys and no entry equal to what an unlisted key reads as. -/
abbrev Sparse (α : Type) := List (Nat × α)

/-- The value at key k; an unlisted key reads as d. -/
def spGet {α : Type} (d : α) (m : Sparse α) (k : Nat) : α :=
  match m with
  | [] => d
  | (k', v) :: t => if k' = k then v else spGet d t k

/-- Inserts (k, x) in key order, replacing an entry at k. -/
def spInsert {α : Type} (m : Sparse α) (k : Nat) (x : α) : Sparse α :=
  match m with
  | [] => [(k, x)]
  | (k', v) :: t =>
    if k < k' then (k, x) :: (k', v) :: t
    else if k = k' then (k, x) :: t
    else (k', v) :: spInsert t k x

/-- Removes every entry at k. -/
def spErase {α : Type} (m : Sparse α) (k : Nat) : Sparse α :=
  match m with
  | [] => []
  | (k', v) :: t => if k' = k then spErase t k else (k', v) :: spErase t k

/-- Writes x at k and keeps the canonical form: writing the default d of that key removes the entry. -/
def spSet {α : Type} [DecidableEq α] (d : α) (m : Sparse α) (k : Nat) (x : α) : Sparse α :=
  if x = d then spErase m k else spInsert m k x

/-- Keys strictly rising from above lo, and no entry equal to its default. -/
def spWfFrom {α : Type} [DecidableEq α] (d : Nat → α) (lo : Nat) : Sparse α → Bool
  | [] => true
  | (k, v) :: t => decide (lo ≤ k) && decide (v ≠ d k) && spWfFrom d (k + 1) t

/-- The canonical form of a sparse map. -/
def spWf {α : Type} [DecidableEq α] (d : Nat → α) (m : Sparse α) : Bool := spWfFrom d 0 m

/-- An association list where an absent key has no value. -/
def alGet {α : Type} (m : Sparse α) (k : Nat) : Option α :=
  match m with
  | [] => none
  | (k', v) :: t => if k' = k then some v else alGet t k

/-- Keeps the entries whose key passes the test. -/
def alKeep {α : Type} (m : Sparse α) (f : Nat → Bool) : Sparse α := m.filter (fun e => f e.1)

/-- Keeps the entries with keys in [lo, hi). -/
def spRange {α : Type} (m : Sparse α) (lo hi : Nat) : Sparse α :=
  m.filter (fun e => decide (lo ≤ e.1) && decide (e.1 < hi))

/-! ### Bits and fields -/

/-- Bits [hi:lo] of v. -/
def fld (v hi lo : Nat) : Nat := (v >>> lo) % 2 ^ (hi - lo + 1)

/-- v with bits [hi:lo] replaced by x. -/
def setFld (v hi lo x : Nat) : Nat :=
  v - (fld v hi lo) * 2 ^ lo + (x % 2 ^ (hi - lo + 1)) * 2 ^ lo

/-- One bit as a number. -/
def b2n (b : Bool) : Nat := if b then 1 else 0

/-- One bit at place i as a number. -/
def bAt (b : Bool) (i : Nat) : Nat := if b then 2 ^ i else 0

/-- v with bit i set or cleared. -/
def setBit (v i : Nat) (b : Bool) : Nat := if v.testBit i then (if b then v else v - 2 ^ i) else (if b then v + 2 ^ i else v)

/-- Clears in v every bit that is 1 in w, below bit n (a W1C write, R14). -/
def w1c (n v w : Nat) : Nat := ((BitVec.ofNat n v) &&& ~~~(BitVec.ofNat n w)).toNat

/-- Byte i of v. -/
def byteOf (v i : Nat) : Nat := (v >>> (8 * i)) % 256

/-- v with byte i replaced by b. -/
def setByte (v i b : Nat) : Nat := setFld v (8 * i + 7) (8 * i) b

/-- A little-endian number from its bytes, lowest first (R13). -/
def leNat : List Nat → Nat
  | [] => 0
  | b :: t => b % 256 + 256 * leNat t

/-- The n bytes of v, lowest first (R13). -/
def leBytes (n v : Nat) : List Nat :=
  match n with
  | 0 => []
  | n + 1 => v % 256 :: leBytes n (v / 256)

/-- A two's-complement reading of the low n bits. -/
def toSigned (n v : Nat) : Int :=
  if (v % 2 ^ n).testBit (n - 1) then (v % 2 ^ n : Int) - (2 ^ n : Nat) else (v % 2 ^ n : Nat)

/-- The low n bits of an integer, two's complement. -/
def ofSigned (n : Nat) (x : Int) : Nat := (x % ((2 ^ n : Nat) : Int)).toNat

/-- x limited to [lo, hi]. -/
def clampI (lo hi x : Int) : Int := if x < lo then lo else if hi < x then hi else x

/-- Addition that saturates at m. -/
def satAdd (m a b : Nat) : Nat := min m (a + b)

/-- The first n numbers. -/
def upTo (n : Nat) : List Nat := List.range n

/-- The indexes below n whose bit is set in v, ascending. -/
def bitsOf (n v : Nat) : List Nat := (List.range n).filter (fun i => v.testBit i)

/-- The lowest index below n whose bit is set in v. -/
def lowestBit (n v : Nat) : Option Nat := (bitsOf n v).head?

/-- How many of the low n bits of v are set. -/
def popcount (n v : Nat) : Nat := (bitsOf n v).length

/-! ### Rounding (R517) -/

/-- round(x): the nearest integer, a half away from zero (R517). -/
def roundR (x : Rat) : Int :=
  if 0 ≤ x then (x + (1 : Rat) / 2).floor else -((-x + (1 : Rat) / 2).floor)

/-- A formula for which the spec names no rounding: floor or ceiling, as the free choice says (DESIGN CHOICE, log entry 10). -/
def openRound (x : Rat) : Int := if Config.roundUp x then x.ceil else x.floor

/-! ### Updates of a vector -/

/-- v with f applied at i. -/
def modAt {α : Type} {n : Nat} (v : Vector α n) (i : Fin n) (f : α → α) : Vector α n := v.set i (f v[i])

/-- The Fin n of a number known to be small; 0 otherwise. -/
def finOf (n : Nat) [NeZero n] (k : Nat) : Fin n := Fin.ofNat n k

end Sys2Proof.Machine
end

