-- ==== Sys2Proof/Machine/Analog.lean ====
section
/-! DEFINITION. The arithmetic of the analog formulas: the natural logarithm in fixed point, the thermistor and the
diode temperature (06 R229, R231, R233; 04 R155). -/

namespace Sys2Proof.Machine

/-- Halves or doubles x until it lies in [1, 2), counting the power of two. -/
def lnNorm (fuel : Nat) (x : Rat) (k : Int) : Rat × Int :=
  match fuel with
  | 0 => (x, k)
  | n + 1 => if 2 ≤ x then lnNorm n (x / 2) (k + 1) else if x < 1 then lnNorm n (x * 2) (k - 1) else (x, k)

/-- The sum of z^(2i+1) / (2i+1) in fixed point 2^64, n terms from the odd number o, p the present power of z. -/
def atanhSum (n : Nat) (z2 p : Int) (o : Nat) (acc : Int) : Int :=
  match n with
  | 0 => acc
  | n + 1 => atanhSum n z2 (p * z2 / 2 ^ 64) (o + 2) (acc + p / (o : Int))

/-- ln x in fixed point 2^64 for x in [1, 2). -/
def lnMant (x : Rat) : Int :=
  let z : Int := ((x - 1) / (x + 1) * (2 ^ 64 : Nat)).floor
  2 * atanhSum 24 (z * z / 2 ^ 64) z 1 0

/-- ln x of a positive x, to about 2^-60 (DESIGN CHOICE, log entry 15). -/
def lnRat (x : Rat) : Rat :=
  let (m, k) := lnNorm 200 x 0
  ((k * lnMant (199999999999999999999 / 100000000000000000000) + lnMant m : Int) : Rat) / (2 ^ 64 : Nat)

/-- The temperature of a thermistor in 1/16 °C from the beta constant, the resistance at 25 °C and the pull-up in
the same unit, and the 14-bit code y (R233). The rounding to 1/16 °C is open (DESIGN CHOICE, log entry 10); where the formula
divides by 0 or takes the logarithm of 0 it states no temperature (DESIGN CHOICE, log entry 14). -/
def ntcTemp (nb rnom rpu y : Nat) : Int :=
  let r : Rat := (rpu * y : Nat) / ((16384 - y : Nat) : Rat) / (rnom : Rat)
  let inv : Rat := 100 / 29815 + lnRat r / (nb : Rat)
  if nb = 0 ∨ r ≤ 0 ∨ inv = 0 then Config.ntcNoTemp nb rnom rpu y
  else openRound (16 * (1 / inv - 27315 / 100))

/-- The temperature of a remote diode in 1/16 °C from the three voltages in nV, NFACT and OFFSET (R229). -/
def diodeTemp (v1 v2 v3 : Int) (nfact offset : Int) : Int :=
  let d1 : Rat := ((v2 - v1 : Int) : Rat)
  let d2 : Rat := ((v3 - v2 : Int) : Rat)
  let dvd := (4 * d1 - d2) / 3
  let n : Rat := 10080 / 10000 + (nfact : Rat) / 16384
  openRound (16 * (dvd / (n * 86173 * lnRat 4) - 27315 / 100)) + offset

end Sys2Proof.Machine
end

