-- ==== Sys2Proof/Machine/State.lean ====
section
/-! DEFINITION. The state of the ZN-4806: plain data, every piece of state the spec names (INVENTORY.md, State),
and the state after reset. -/

namespace Sys2Proof.Machine

/-- Why the machine stops with a fault. No rule of the spec stops the block, so the type has no constructor. -/
inductive Fault where
  deriving DecidableEq, Repr

/-- Why a command has no meaning. Raised only by the dispatch arm of a command not yet modelled; safe. -/
inductive Refusal where
  | notModelled (mnemonic : String)
  deriving DecidableEq, Repr

/-! ### Staged fields (01 R16, R40 to R45) -/

/-- The registers of a staged block, by the offset of their lowest byte; an entry of an indirect staged table has
a key from 0x10000 up. An unlisted register holds its reset value. -/
abbrev Regs := Sparse Nat

/-- The staged fields of one block with the BSTAT flags and BMISCHK (R40 to R44). PEND is 1 when pnd holds a set. -/
structure Stg where
  stg : Regs := []
  pnd : Option Regs := none
  live : Regs := []
  dirty : Bool := false
  mism : Bool := false
  err : Bool := false
  chk : Nat := 0
  deriving DecidableEq, Repr

/-! ### KSC (02) -/

/-- Where KSC stands in its scan: no frame in progress, at the start of a frame, or in the dwell of a line. -/
inductive FramePos where
  | idle
  | start
  | line (k : Nat)
  deriving DecidableEq, Repr

/-- The sounding result and the measurements of one drive line (R57 to R61). -/
structure LineSnd where
  s : Nat := 0
  hasS : Bool := false
  valid : Bool := false
  held : Bool := false
  isOver : Bool := false
  unset : Bool := false
  m : Option Nat := none
  overRun : Bool := false
  deriving DecidableEq, Repr

/-- A sounding run in progress (R58): whether it is a first run, and the frames left. -/
structure SndRun where
  first : Bool
  left : Nat
  deriving DecidableEq, Repr

/-- One quadrature encoder (R84 to R86): count, last phase pair, and the references of H1, H2 and the engines. -/
structure Encoder where
  count : BitVec 16 := 0
  a : Bool := false
  b : Bool := false
  refH : Vector (BitVec 16) 2 := #v[0, 0]
  refE : BitVec 16 := 0
  deriving DecidableEq, Repr

/-- A reported ghost rectangle (R70, R71). -/
structure Rect where
  ra : Nat
  rb : Nat
  ca : Nat
  cb : Nat
  deriving DecidableEq, Repr

/-- A key record of R67. -/
structure KeyRec where
  seq : Nat
  typ : Nat
  pos : Nat
  deriving DecidableEq, Repr

/-- The bitmaps and the counts of the debounce (R52, R63, R65). conf is KEYWIN; a position is PENDING, WITHHELD or
STABLE; its target while PENDING is the complement of its confirmed state. -/
structure KeyPlane where
  conf : BitVec 480 := 0
  seen : BitVec 480 := 0
  pending : BitVec 480 := 0
  out : BitVec 480 := 0
  withheld : BitVec 480 := 0
  cnt : Sparse Nat := []
  deriving DecidableEq, Repr

/-- A frame image of both views with its KEYSEQ (R55 P5, R78). -/
structure KeyImage where
  win : BitVec 480 := 0
  prov : BitVec 480 := 0
  seq : BitVec 16 := 0
  deriving DecidableEq, Repr

/-- The key scanner and encoders (02). resolving says that the present boundary is the edge on which the last sample of a
frame was latched, so that its P5 lies ahead (R55, R56); slow that the frame in progress is a slow frame (R81, R83). -/
structure Ksc where
  cfg : Stg := {}
  scanen : Bool := false
  viewlive : Bool := false
  scanning : Bool := false
  fr : FramePos := .idle
  slow : Bool := false
  resolving : Bool := false
  plane : KeyPlane := {}
  image : KeyImage := {}
  frozen : Vector KeyImage 2 := #v[{}, {}]
  fifo : List KeyRec := []
  ovf : Bool := false
  snd : Sparse LineSnd := []
  run : Option SndRun := none
  sndReq : Bool := false
  sndFirst : Bool := false
  unsetNext : BitVec 24 := 0
  ranSince : Bool := false
  rects : List Rect := []
  gtag : BitVec 3 := 0
  whcnt : Nat := 0
  kie : Nat := 0
  kis : Nat := 0
  sndsel : Nat := 0
  katlsel : Nat := 0
  kwsel : Nat := 0
  enc : Vector Encoder 4 := #v[{}, {}, {}, {}]
  encctl : Nat := 0
  encerr : Nat := 0
  encthr : Nat := 1
  encwake : Nat := 0
  deriving DecidableEq, Repr

/-! ### LGT (03) -/

/-- The state of one colour rail (R111 to R113). -/
inductive RailSt where
  | off
  | soft (left : Nat)
  | on
  deriving DecidableEq, Repr

/-- One colour rail: setpoint, state, and the compliance counts of R112. -/
structure Rail where
  rset : Nat := 0
  st : RailSt := .off
  good : Nat := 0
  lows : Nat := 0
  anySample : Bool := false
  anyLow : Bool := false
  allHigh : Bool := true
  gain : Rat := 1
  deriving DecidableEq, Repr

/-- A pending swap (R121, R122): whether it was requested with RUN = 0, whether its frame has begun (R126), and whether
a master announces it with a commit pulse (R123). -/
structure SwapReq where
  atOnce : Bool
  taken : Bool
  pulse : Bool
  deriving DecidableEq, Repr

/-- The key light state of the RGB keys (R128, R129). -/
structure KeyLight where
  lit : BitVec 384 := 0
  provLit : BitVec 384 := 0
  fade : Sparse Rat := []
  deriving DecidableEq, Repr

/-- The lighting engine (03). begins says that a set has been applied at the boundary that is present, so that the new
frame starts there whatever the new role (R124). -/
structure Lgt where
  cfg : Stg := {}
  copyback : Bool := true
  blanked : Bool := true
  blankReq : Bool := false
  unblankReq : Bool := false
  run : Bool := false
  running : Bool := false
  atB : Bool := false
  line : Nat := 0
  next : Nat := 0
  first : Bool := true
  pq : Nat := 0
  pp : Nat := 0
  flt : Nat := 0
  lie : Nat := 0
  lis : Nat := 0
  lframe : BitVec 16 := 0
  rails : Vector Rail 3 := #v[{}, {}, {}]
  cfs : Sparse Nat := []
  esopen : Nat := 0
  esshort : Nat := 0
  esOff : Nat := 0
  begins : Bool := false
  esPulse : Vector (Nat × Nat) 8 := #v[(0, 0), (0, 0), (0, 0), (0, 0), (0, 0), (0, 0), (0, 0), (0, 0)]
  pulses : Sparse (Nat × Nat) := []
  probe : BitVec 72 := 0
  deriving DecidableEq, Repr

/-- The frame banks, fault map, compliance table, key lights, chain and LSYNC state of LGT; lsync is the low time in CK
of the last pulse that a master drove (0 before one), copied how many entries a copy-back has copied (R122). -/
structure LgtBank where
  front : Sparse Nat := []
  back : Sparse Nat := []
  fault : Sparse Nat := []
  comp : Sparse Nat := []
  verdict : Sparse (Nat × Nat) := []
  keys : KeyLight := {}
  swap : Option SwapReq := none
  backrdy : Bool := true
  copying : Bool := false
  copied : Nat := 0
  written : List Nat := []
  ltin : Nat := 0x190
  tstale : Bool := false
  ltrim : Vector Nat 3 := #v[0, 0, 0]
  synclost : Bool := false
  lsync : Nat := 0
  lixsel : Nat := 0
  lixidx : Nat := 0
  chain : BitVec 48 := 0
  ltdo : Bool := false
  downReady : Bool := false
  deriving DecidableEq, Repr

/-! ### FBK and SVY (14) -/

/-- A Field Book record before its CHECK word (R447): block code, type, SEQ, BOOTNO, TIME, payload P0 to P8. -/
structure FbRec where
  src : Nat
  typ : Nat
  seq : BitVec 16
  bootno : Nat
  time : Nat
  p : List Nat
  deriving DecidableEq, Repr

/-- A ring record, and whether it has been written through (R451). -/
structure RingRec where
  r : FbRec
  written : Bool
  deriving DecidableEq, Repr

/-- A cursor of a reader (R284, R456): SEQ under the cursor, next word or byte, the latched record, GONE pending. -/
structure FbCursor where
  seq : BitVec 16 := 1
  ptr : Nat := 0
  latch : List Nat := []
  gone : Bool := false
  deriving DecidableEq, Repr

/-- The Field Book (14): RAM ring oldest first; NVM records oldest first, each with its slot (R451); shadow the NVM
records that a clear has removed while its floor is not yet raised, raise the SEQ of the written CLEARED record whose floor is
to be raised (R460); atBoot the newest and oldest SEQ at the reset, and its registers. -/
structure Fbk where
  ring : List RingRec := []
  nvm : List (Nat × FbRec) := []
  shadow : List (Nat × FbRec) := []
  raise : Option (BitVec 16) := none
  nvmSlot : Nat := 0
  bootno : Nat := 0
  newest : BitVec 16 := 0
  drops : Nat := 0
  fedrop : Nat := 0
  stNonce : Bool := false
  stOvf : Bool := false
  stErr : Bool := false
  fbie : Nat := 0
  fbis : Nat := 0
  nonce : BitVec 16 := 0
  atBoot : Nat × Nat := (0, 1)
  ecur : Vector FbCursor 6 := #v[{}, {}, {}, {}, {}, {}]
  fertype : Nat := 0x80
  ferbuf : Sparse Nat := []
  deriving DecidableEq, Repr

/-- The Survey (14): the latched words by block code, whether the last trigger latched (one of its edge then joins it, R461), whether
no CK has passed since that latch (fresh), what the sources held before the command that joins the snapshot (join; none outside such
a command), what the latch has set as it stood before (see snapWas), and its registers. -/
structure Svy where
  words : Sparse (List Nat) := []
  latched : Bool := false
  fresh : Bool := false
  join : Option (Sparse (List Nat)) := none
  was : Vector (BitVec 16) 4 := #v[0, 0, 0, 0]
  count : BitVec 8 := 0
  src : Nat := 0
  held : Bool := false
  err : Bool := false
  holdflt : Bool := false
  svfsel : Nat := 0
  svie : Nat := 0
  svis : Nat := 0
  miss : Nat := 0
  svblk : Nat := 0
  svword : Nat := 0
  deriving DecidableEq, Repr

/-! ### CHG (04) -/

/-- The charger: configuration, state machine, timers and outputs (04 R146 to R181). st is the STATE code of R153;
mode the stage mode in force (0 idle, 1 buck, 2 buck-boost, 3 boost); gates holds CGH1, CGL1, CGL2, CGH2 in bits 3 to 0,
gatesWas those before their last change, which the dead time of R148 counts from;
rb is the reverse boost phase (0 none, 1 start-up, 2 running) and rbStop a pending stop cause of R181. -/
structure Chg where
  cfg : Stg := {}
  en : Bool := false
  st : Nat := 0
  zone : Nat := 0
  zoneP : Nat := 0
  step : Nat := 0
  stepNext : Option Nat := none
  mode : Nat := 0
  modeNext : Nat := 0
  gates : Nat := 0
  gatesWas : Nat := 0
  onCk : Nat := 0
  dith : Nat := 0
  flt : Nat := 0
  cie : Nat := 0
  cis : Nat := 0
  cend : Nat := 0
  exp1 : Bool := false
  expKind : Option Bool := none
  termHeld : Bool := false
  inProg : Bool := false
  timer : Nat := 0
  pre : Nat := 0
  half : Bool := false
  rb : Nat := 0
  rbStop : Nat := 0
  deriving DecidableEq, Repr

/-- The input port, the battery connection and the detectors of CHG (R155, R171 to R177); rbTgt and rbLim are the voltage
and the current that reverse boost works to, in mV and mA (R179, R180); insDue is the pack whose BATT_INSERTED record waits for
the period start that leaves SYSREG (R177). -/
structure ChgPort where
  vinOk : Bool := false
  blocked : Bool := false
  acg : Bool := false
  attached : Bool := false
  batg : Bool := true
  isol : Bool := false
  insPack : Option Nat := none
  insDue : Option Nat := none
  remP0 : Nat := 0
  remVsys : Nat := 0
  remSecond : Bool := false
  vsysTgt : Int := 0
  rbTgt : Int := 0
  rbLim : Rat := 0
  tbat : Int := 0
  ntcBad : Nat := 0
  ntcGood : Nat := 0
  ithlim : Nat := 0x7FF
  fcc : Nat := 0
  srin : Nat := 0
  srl : Nat := 0
  ldcr : Nat := 0
  mpvdn : Nat := 0
  mpdt : Nat := 0
  mpilk : Nat := 0
  mpLive : Nat × Nat × Nat := (0, 0, 0)
  ocv : Sparse Nat := []
  deriving DecidableEq, Repr

/-- A pending ZCELL measurement (R184): highest cell and IBAT of the interval before the change, intervals seen. -/
structure ZMeas where
  hc : Int
  ib : Int
  n : Nat
  deriving DecidableEq, Repr

/-- Telemetry, coulomb counter and limit measurements of CHG (R150, R151, R159, R182 to R187). rcq is the charge
count in mA·ms; zm the ZCELL measurements that wait; above that the charge in progress started above 10% (R185). -/
structure ChgTel where
  last : ChgMeas := { vin := 0, vchg := 0, vsys := 0, pack := 0, cells := #v[0, 0, 0, 0, 0], iin := 0, ibat := 0, il := 0, tj := 0 }
  vals : List Nat := []
  nPer : Nat := 0
  nIn : Nat := 0
  nTj : Nat := 0
  nV : Nat := 0
  ithAll : Bool := true
  binding : Nat := 0
  demand : Int := 0
  target : Int := 0
  inreg : Bool := false
  threg : Bool := false
  slowCnt : Nat := 0
  termCnt : Nat := 0
  rcq : Int := 0
  zcell : Int := 0
  zm : List ZMeas := []
  hcPrev : Int := 0
  ibPrev : Int := 0
  ctime : Nat := 0
  ctimeRun : Option Nat := none
  above : Bool := false
  cmin : Nat := 0
  lossCnt : Nat := 0
  lfm : Bool := false
  deriving DecidableEq, Repr

/-- The selects, held copies and loss-floor results of CHG (R186, R191, R195, R196). -/
structure ChgSel where
  held : Vector (List Nat) 2 := #v[[], []]
  tsel : Nat := 0
  lfsel : Nat := 0
  ctsel : Nat := 0
  ron : Vector Nat 4 := #v[0, 0, 0, 0]
  qg : Vector Nat 4 := #v[0, 0, 0, 0]
  drvv : Nat := 0
  loss : Int := 0
  floor : Rat := 0
  lratio : Nat := 0
  deriving DecidableEq, Repr

/-! ### SEQ (05) -/

/-- What SEQ is running (R205, R211, R213). -/
inductive SeqKind where
  | idle
  | ordinary
  | unwind
  | fault
  deriving DecidableEq, Repr

/-- What an unwind restores for one completed step (R213): the PSOUT bits in mask to old, or the watch of pg. -/
structure Undo where
  step : Nat
  mask : Nat := 0
  old : Nat := 0
  pg : Nat := 0
  oldWatch : Nat := 0
  deriving DecidableEq, Repr

/-- A request: target state and source code (R216). -/
structure SeqReq where
  tgt : Nat
  src : Nat
  deriving DecidableEq, Repr

/-- The traverse sequencer (05). watch holds FLT + 1 for each armed PG input; pg and wk the synchronised levels of the PG and
WAKE pins. -/
structure Seq where
  cfg : Stg := {}
  viewlive : Bool := false
  en : Bool := false
  cur : Nat := 5
  kind : SeqKind := .idle
  trv : Nat := 0
  step : Nat := 0
  waiting : Bool := false
  pastcmt : Bool := false
  pend : Option SeqReq := none
  queue : Option SeqReq := none
  undo : List Undo := []
  sflt : Nat := 0
  fltTrv : Nat := 0
  fltStep : Nat := 0
  fltPg : Nat := 0
  sie : Nat := 0
  sis : Nat := 0
  smark : Nat := 0
  psout : Nat := 0
  pg : BitVec 32 := 0
  wk : BitVec 4 := 0
  watch : Sparse Nat := []
  sstsel : Nat := 0
  pressed : Bool := false
  longDone : Bool := false
  hardDone : Bool := false
  lidOpen : Bool := false
  deriving DecidableEq, Repr

/-! ### THA and the SMBus controllers (06) -/

/-- A sensor of sources 0 to 8 (R228 to R230). -/
structure Sensor where
  t : Int := 0
  valid : Bool := false
  faults : Nat := 0
  verdict : Nat := 0
  fault : Bool := false
  deriving DecidableEq, Repr

/-- One AN channel (R233): the filtered value at 18 bits, the thermistor temperature, and the WATCH latch (R237). -/
structure AnCh where
  y18 : Nat := 0
  t : Int := 0
  valid : Bool := false
  wlat : Nat := 0
  deriving DecidableEq, Repr

/-- One virtual sensor (R234). -/
structure Vt where
  t : Nat := 0x8000
  valid : Bool := false
  stale : Bool := false
  deriving DecidableEq, Repr

/-- The counts of one digital trip entry (R239, R240): readings on the acting side, readings beyond the hysteresis, the last
reading. -/
structure TripCnt where
  acts : Nat := 0
  rels : Nat := 0
  last : Int := 0
  deriving DecidableEq, Repr

/-- One fan (R242 to R247). -/
structure Fan where
  teff : Option Int := none
  i : Nat := 0
  loop : Nat := 0
  target : Nat := 0
  noSrc : Bool := false
  speed : Nat := 0
  pwm : Nat := 0
  kicks : Nat := 0
  kick : Bool := false
  stall : Bool := false
  deriving DecidableEq, Repr

/-- The thermal and analog block (06). rcfg is the set live when the present round started, anOn the AN channels of this
round that are not yet resolved, sensor its source that is not yet read (R232, R236); anaIn the inputs of the four analog
comparators as last brought, in 1/16 °C for DIE and in µV for a pin (R238). -/
structure Tha where
  cfg : Stg := {}
  viewlive : Bool := false
  en : Bool := false
  tflt : Nat := 0
  tie : Nat := 0
  tis : Nat := 0
  tract : Nat := 0
  chgTrip : Bool := false
  fanTrip : Bool := false
  rcount : BitVec 16 := 0
  tsel : Nat := 0
  fcsel : Nat := 0
  rcfg : Regs := []
  rot : Nat := 8
  sensor : Option Nat := none
  anOn : Nat := 0
  anaIn : Vector Int 4 := #v[0, 0, 0, 0]
  deriving DecidableEq, Repr

/-- The readings, trip counts and fans of THA. -/
structure ThaDat where
  sens : Vector Sensor 9 := #v[{}, {}, {}, {}, {}, {}, {}, {}, {}]
  an : Vector AnCh 16 := #v[{}, {}, {}, {}, {}, {}, {}, {}, {}, {}, {}, {}, {}, {}, {}, {}]
  vt : Vector Vt 4 := #v[{}, {}, {}, {}]
  trips : Vector TripCnt 8 := #v[{}, {}, {}, {}, {}, {}, {}, {}]
  fans : Vector Fan 4 := #v[{}, {}, {}, {}]
  fovr : Vector Nat 4 := #v[0, 0, 0, 0]
  foven : Nat := 0
  fmptrim : Vector Nat 4 := #v[0, 0, 0, 0]
  deriving DecidableEq, Repr

/-- One SMBus controller (R254 to R260). lost says that its bank lost its supply
before or during the transaction (R257, R483). -/
structure Smb where
  en : Bool := false
  speed : Nat := 0
  pec : Bool := false
  hnen : Bool := false
  busy : Bool := false
  prot : Nat := 0
  busflt : Bool := false
  busbusy : Bool := false
  err : Bool := false
  addr : Nat := 0
  code : Nat := 0
  len : Nat := 0
  ptr : Nat := 0
  buf : Sparse Nat := []
  res : Nat := 0
  smie : Nat := 0
  smis : Nat := 0
  hnadr : Nat := 0
  hndat : Nat := 0
  bcnt : Nat := 0
  lost : Bool := false
  deriving DecidableEq, Repr

/-! ### Host ports and the port shadow (07) -/

/-- ERRINFO of one port (R274). -/
structure ErrInfo where
  valid : Bool := false
  multi : Bool := false
  code : Nat := 0
  wr : Bool := false
  off : Nat := 0
  deriving DecidableEq, Repr

/-- A held copy of the RTC: HOLD, the seven BCD fields, and whether it was written since HOLD was set (R292). -/
structure RtcHold where
  hold : Bool := false
  copy : Vector Nat 7 := #v[0, 0, 0, 1, 1, 1, 0]
  written : Bool := false
  deriving DecidableEq, Repr

/-- The select, index and cursor registers of one port, its frozen selects apart: everything PRST resets (R279). -/
structure PortSel where
  hints : BitVec 16 := 0
  hinte : BitVec 16 := 0
  keysel : Nat := 0x20
  mbsel : Nat := 0
  mbuf : Sparse Nat := []
  mlatch : Option (Nat × List Nat) := none
  locksel : Nat := 0
  refidx : Nat := 0
  chgsel : Nat := 0
  thermsel : Nat := 0
  fansel : Nat := 0
  fbcur : FbCursor := {}
  snapsel : Nat := 0
  rtcsel : Nat := 0
  rtc : RtcHold := {}
  winsel : Nat := 0x8000
  winadr : Nat := 0
  deriving DecidableEq, Repr

/-- One host port (R261 to R275): its supply, its output registers (the level of RDY, the data output register and whether the
drivers of D are enabled, by a read's data edge until the read is over), HCTL, ERRINFO and the per-port state. wbuf is the CK
until the write buffer frees (R266, R267). -/
structure HPort where
  powered : Bool := false
  vio18 : Bool := false
  cs : Bool := false
  rdyLow : Bool := false
  wbuf : Nat := 0
  dOut : Half := 0
  driven : Bool := false
  privSeen : Bool := false
  err : ErrInfo := {}
  hctl : Nat := 1
  sel : PortSel := {}
  deriving DecidableEq, Repr

/-- The registers of the port side that engines and ports share: SCRATCH, TESTCTL, HPSVC with the engine that last
wrote each bit to 1, HPSCRSEL (R290, R291), and the read data that an engine's bare IN command returns. -/
structure HShare where
  scratch : Vector Nat 8 := #v[0, 0, 0, 0, 0, 0, 0, 0]
  testctl : Nat := 0
  svc : Nat := 0
  svcBy : Vector Nat 2 := #v[7, 7]
  scrsel : Nat := 0
  deriving DecidableEq, Repr

/-! ### Mailboxes and locks (08) -/

/-- One mailbox channel (R296). slot is [] or 16 words; len is 0 when empty. -/
structure Chan where
  full : Bool := false
  coll : Bool := false
  epend : Bool := false
  len : Nat := 0
  stamp : Nat := 0
  seq : BitVec 8 := 0
  slot : List Nat := []
  deriving DecidableEq, Repr

/-- The mailbox registers of one engine (R313): latch holds the channel and its 32 bytes. -/
structure EngMb where
  echsel : Nat := 0
  embptr : Nat := 0
  latch : Option (Nat × List Nat) := none
  buf : Sparse Nat := []
  embdb : Nat := 0
  embres : Nat := 0
  deriving DecidableEq, Repr

/-- The mailbox unit: channels, ROLEMAP, doorbells to the engines (dbE) and to the ports (dbH), MXSTAT. -/
structure Mbx where
  chans : Sparse Chan := []
  rolemap : Vector Nat 6 := #v[0, 1, 2, 3, 4, 5]
  eng : Vector EngMb 6 := #v[{}, {}, {}, {}, {}, {}]
  dbE : Vector (BitVec 64) 2 := #v[0, 0]
  dbH : Vector (BitVec 64) 2 := #v[0, 0]
  err : Bool := false
  deriving DecidableEq, Repr

/-- The lock unit (R309, R315): holder + 1 by lock, round-robin pointers, LKSEL and LKSTAT by engine. -/
structure Lck where
  held : Sparse Nat := []
  ptr : Sparse Nat := []
  lksel : Vector Nat 6 := #v[0, 0, 0, 0, 0, 0]
  stat : Vector Nat 6 := #v[0, 0, 0, 0, 0, 0]
  deriving DecidableEq, Repr

/-! ### Cerxa engines (09, 10, 11) -/

/-- A register with the values that instructions of the present run have given it and that are not yet ready for
every reader: entries (index of the writer, ready distance, value) in order of execution (R324 to R326). -/
structure Cell where
  base : Nat := 0
  pend : List (Nat × Nat × Nat) := []
  deriving DecidableEq, Repr

/-- One engine timer (R347); sub counts CK toward the prescaled tick. -/
structure Tmr where
  flag : Bool := false
  pre : Nat := 0
  per : Bool := false
  en : Bool := false
  rld : Nat := 0
  cnt : Nat := 0
  sub : Nat := 0
  deriving DecidableEq, Repr

/-- The watchdog of an engine (R343, R348): left is what remains of the period in crystal periods. -/
structure Wdog where
  en : Bool := false
  warn : Nat := 0
  per : Nat := 0x64
  cur : Nat := 0x64
  left : Nat := 2400000
  first : Bool := false
  warnf : Bool := false
  deriving DecidableEq, Repr

/-- The trap frame (R338, R349). -/
structure TrapFrame where
  pc : Nat := 0
  word : Nat := 0
  vec : Nat := 0
  repv : Bool := false
  ds : Bool := false
  ie : Bool := false
  tgt : Nat := 0
  rep : Nat := 0
  addr : Nat := 0
  info : Nat := 0
  deriving DecidableEq, Repr

/-- A repeat in progress (R366, R367): the prefix's address and word, its flavour, and the iterations that remain. -/
structure RepSt where
  pc : Nat
  word : Nat
  unint : Bool
  left : Nat
  deriving DecidableEq, Repr

/-- What an engine is doing: held in reset, in its reset loader, issuing, in WAIT, or stopped or halted (R342, R388). -/
inductive EngRun where
  | held
  | loading
  | running
  | waiting
  | stopped
  deriving DecidableEq, Repr

/-- One engine (R316 and R346 to R349). idx counts the executed instructions of the run; ds is the address that
follows a delay slot; resume the count that a RETT left for a prefix; gov the IE, INTRAP and IRQEN that govern the
boundary after an OUT to ECTL or IRQEN (R335). role and cause are what DCT latched with a release (R407). -/
structure Ceng where
  run : EngRun := .held
  failed : Bool := false
  rom : Bool := false
  g : Vector Cell 16 := Vector.replicate 16 {}
  cnt : Cell := {}
  lnk : Nat := 0
  dsb : Nat := 0
  iob : Nat := 0
  pc : Nat := 0
  idx : Nat := 0
  ds : Option Nat := none
  rep : Option RepSt := none
  resume : Option Nat := none
  ie : Bool := false
  intrap : Bool := false
  gov : Option (Bool × Bool × Nat) := none
  ivbase : Nat := 0
  irqen : Nat := 0
  xpend : Nat := 0
  estop : Nat := 0
  err : Bool := false
  tmr : Vector Tmr 2 := #v[{}, {}]
  cyc : BitVec 32 := 0
  wd : Wdog := {}
  tf : TrapFrame := {}
  role : Nat := 7
  cause : Nat := 0
  badKick : Bool := false
  deriving DecidableEq, Repr

/-- The memories of one engine (R377). -/
structure EngMem where
  imem : Sparse IWord := []
  dmem : List Host.Cell := []
  deriving DecidableEq, Repr

/-! ### Copy unit (11) -/

/-- The job that runs (R383): its channel, its live descriptor, the latch of a mailbox source. -/
structure CpyRun where
  j : Nat
  mode : Nat
  sadr : Nat
  dadr : Nat
  len : Nat
  db : Nat
  latch : List Nat
  deriving DecidableEq, Repr

/-- The copy unit (R381 to R387). -/
structure Cpy where
  cfg : Stg := {}
  queued : Nat := 0
  run : Option CpyRun := none
  ie : Nat := 0
  is_ : Nat := 0
  eng : Vector Nat 8 := #v[0, 0, 0, 0, 0, 0, 0, 0]
  code : Vector Nat 8 := #v[0, 0, 0, 0, 0, 0, 0, 0]
  rem : Vector Nat 8 := #v[0, 0, 0, 0, 0, 0, 0, 0]
  deriving DecidableEq, Repr

/-! ### Clock, reset, boot, protection and flash (12) -/

/-- Crystal, PLL and CK source (R397 to R400, R405): prep is a planned change of the source that waits for its point. -/
structure Clk where
  ckPll : Bool := true
  pllOn : Bool := true
  lock : Bool := true
  fallback : Bool := false
  retry : Nat := 0
  prep : Bool := false
  time : BitVec 48 := 0
  sub : Nat := 0
  deriving DecidableEq, Repr

/-- Reset and boot (R401 to R409, R412): the active sources as a mask by cause - 1, the last step of the reset sequence that has
ended (R403; 6 after it), por that a POR, SHIPWAKE or SHIP exit has run step 1 and awaits step 2 (R401), the engine of a half-given
device reset command, and the ROM's recovery wait. -/
structure Rst where
  active : Nat := 0
  step : Nat := 6
  cause : Nat := 1
  hist : Nat := 1
  drst : Option Nat := none
  bootstat : Nat := 0xC0
  bootver : Nat := 0
  bootPhase : Bool := true
  sealed : Bool := false
  recovery : Bool := false
  handed : Bool := false
  svn : Nat := 0
  shipsrc : Nat := 0
  por : Bool := false
  deriving DecidableEq, Repr

/-- One window region (R419, R422): byte 0 and the 24-bit START and END fields. -/
structure WReg where
  b0 : Nat := 0
  start : Nat := 0
  stop : Nat := 0
  deriving DecidableEq, Repr

/-- The protection unit (R419); wreg holds the regions k = 0 to 3 of H1, then of H2. -/
structure Prt where
  err : Bool := false
  eright : Vector Nat 6 := #v[0xAAAAAAAA, 0, 0, 0, 0, 0]
  eflags : Vector Nat 6 := #v[5, 0, 0, 0, 0, 0]
  pright : Vector Nat 2 := #v[0, 0]
  pflags : Vector Nat 2 := #v[0, 0]
  gflags : Nat := 0
  ceilv : Nat := 0
  ceili : Nat := 0
  ceilrbv : Nat := 0
  ceilrbi : Nat := 0
  wreg : Vector WReg 8 := #v[{}, {}, {}, {}, {}, {}, {}, {}]
  ixsel : Nat := 0
  ixidx : Nat := 0
  chan : Sparse Nat := []
  routes : Vector (Sparse Nat) 2 := #v[[], []]
  deriving DecidableEq, Repr

/-- The flash controller, the flash and the OTP security version (R410, R415). -/
structure Fls where
  prot : Bool := false
  fail : Bool := false
  adr : Nat := 0
  dat : Nat := 0
  page : Sparse Nat := []
  cmd : Option (Nat × Nat) := none
  mem : List Host.Cell := []
  otpSvn : Nat := 0
  deriving DecidableEq, Repr

/-! ### DCT (13) -/

/-- What DCT is carrying out: an entry in notice, gather or past its commit edge, or a wake (R428 to R440). -/
inductive DctPhase where
  | idle
  | notice
  | gather
  | committed
  | waking
  deriving DecidableEq, Repr

/-- A request held or being carried out: target mode code and requester (master code, 0x100 + wake code), or a domain
request (R427, R433, R437); pwr that a port made it by PWRREQ, whose refusal shows in HINTS (R271, R431). -/
structure DctReq where
  tgt : Nat
  by_ : Nat
  pwr : Bool := false
  deriving DecidableEq, Repr

/-- The domain controller (13). dom is the domain of a DDOMREQ; up the domains to power up with the
stage of the first; d7 the stage of D7 while it comes up for a port apart from these (R438); wakes the wake codes whose events wait for the decision, wakeBits those of the present wake, heldWakes
those of a held wake (R433, R439). -/
structure Dct where
  cfg : Stg := {}
  mode : Mode := .run
  on : BitVec 8 := 0xFF
  phase : DctPhase := .idle
  cur : Option DctReq := none
  dom : Option Nat := none
  up : List Nat := []
  stage : Nat := 0
  d7 : Option Nat := none
  held : Option DctReq := none
  heldDom : Option DctReq := none
  req : Nat := 0
  refused : Bool := false
  veto : Nat := 0
  die : Nat := 0
  dis : Nat := 0
  wakesrc : Nat := 0xF
  wakes : Nat := 0
  rfsel : Nat := 0
  refcnt : Vector Nat 10 := #v[0, 0, 0, 0, 0, 0, 0, 0, 0, 0]
  runset : Nat := 0
  erflt : Nat := 0
  wakeBits : Nat := 0
  heldWakes : Nat := 0
  lgtWas : Bool := true
  lgtPrep : Bool := false
  deriving DecidableEq, Repr

/-! ### BMK (15) -/

/-- The benchmark block (R467 to R479). frac is the accumulation of STRESS below one unit, in 2^-40 of 4 h, and runMs the RUN time
in ms since the last minute that the PLAGE counts have counted (R468). -/
structure Bmk where
  cfg : Stg := {}
  monen : Bool := true
  restore : Bool := true
  bie : Nat := 0
  bis : Nat := 0
  resItem : Nat := 0
  resCode : Nat := 0
  bbound : Nat := 0
  step : Vector Nat 11 := Vector.replicate 11 0
  age : Vector Nat 11 := Vector.replicate 11 0
  slack : Vector Nat 4 := #v[0, 0, 0, 0]
  vcorem : Nat := 0
  tjb : Nat := 0x8000
  stress : Nat := 0
  frac : Nat := 0
  runMs : Nat := 0
  runh : Nat := 0
  deriving DecidableEq, Repr

/-! ### GPIO, bank supplies, RTC and the test port (16) -/

/-- GPIO and the bank supplies (R483, R500). -/
structure Gpio where
  out : Nat := 0
  oe : Nat := 0
  od : Nat := 0
  pin : Nat := 0
  ie : Nat := 0
  is_ : Nat := 0
  viok : Bool := true
  vios : Bool := true
  viom : Bool := true
  lsgv : Bool := true
  drvv : Bool := true
  vdrvl : Bool := true
  deriving DecidableEq, Repr

/-- The RTC (R288, R292, R501): the seven BCD fields, LOST, and the engines' shared held copy. -/
structure Rtc where
  f : Vector Nat 7 := #v[0, 0, 0, 1, 1, 1, 0]
  lost : Bool := true
  eng : RtcHold := {}
  err : Bool := false
  deriving DecidableEq, Repr

/-- The level that an output shows at its pin (R21): not driven, or driven. -/
inductive Pin where
  | hiZ | low | high
  deriving DecidableEq, Repr

/-- A gate or switch of the lighting matrix by the phase of its slot (R103): release, charge, pulse window, guard, and the
probe interval of the guard (R115). -/
inductive SlotPhase where
  | release | charge | pulse | guard | probe
  deriving DecidableEq, Repr

/-- The states of the IEEE 1149.1 test access port (R30; PRESUMED: the standard's controller). -/
inductive TapState where
  | reset | idle
  | selDr | capDr | shDr | ex1Dr | pauDr | ex2Dr | updDr
  | selIr | capIr | shIr | ex1Ir | pauIr | ex2Ir | updIr
  deriving DecidableEq, Repr

/-- The test port: the state of its controller and its instruction (R30, R290). -/
structure Tap where
  st : TapState := .reset
  ir : TapIr := .idcode
  deriving DecidableEq, Repr

/-! ### The I/O fabric (00 R13) -/

/-- The read latches and held bytes of the multi-byte registers, by master and byte address; the last byte that each
engine's register read returned; what each register whose read acts gave at the last one (R38). -/
structure IoBuf where
  latch : Sparse (Option Nat) := []
  held : Sparse (Option Nat) := []
  rd : Vector Nat 6 := #v[0, 0, 0, 0, 0, 0]
  was : Sparse (Option Nat) := []
  deriving DecidableEq, Repr

/-! ### The state -/

/-- Everything the spec gives the block, and the queue of commands that wait. trst says that TRST_N is low (R490); free is the
model's own counter of the free values taken (DESIGN CHOICE, log entry 13). -/
structure State where
  pending : List Instr := []
  ksc : Ksc := {}
  lgt : Lgt := {}
  lgb : LgtBank := {}
  chg : Chg := {}
  chp : ChgPort := {}
  cht : ChgTel := {}
  chs : ChgSel := {}
  seq : Seq := {}
  tha : Tha := {}
  thd : ThaDat := {}
  smb : Vector Smb 4 := #v[{}, {}, {}, {}]
  hp : Vector HPort 2 := #v[{}, {}]
  hsh : HShare := {}
  mbx : Mbx := {}
  lck : Lck := {}
  eng : Vector Ceng 6 := #v[{ run := .running, rom := true, role := 0 }, {}, {}, {}, {}, {}]
  emem : Vector EngMem 6 := #v[{}, {}, {}, {}, {}, {}]
  shm : List Host.Cell := []
  cpy : Cpy := {}
  clk : Clk := {}
  rst : Rst := {}
  prt : Prt := {}
  fls : Fls := {}
  dct : Dct := {}
  fbk : Fbk := { bootno := 1, nonce := BitVec.ofNat 16 (1 + (Config.nonceDraw 1).val) }
  svy : Svy := {}
  bmk : Bmk := {}
  gpio : Gpio := {}
  rtc : Rtc := {}
  tap : Tap := {}
  trst : Bool := false
  io : IoBuf := {}
  free : Nat := 0
  deriving DecidableEq, Repr

/-- The state after the power-on reset and its reset sequence: every field at the value of its declaration above. -/
def State.reset : State := {}

end Sys2Proof.Machine
end

