-- ==== Sys2Proof/Machine/Flags.lean ====
section
/-! DEFINITION. The status words, flags and register values that the state of each block shows: what a read returns
before its side effects, and the words a snapshot latches (R464). -/

namespace Sys2Proof.Machine

/-- Domain d is on (R423, R424). -/
def domOn (s : State) (d : Nat) : Bool := s.dct.on.getLsbD d

/-! ### KSC (02) -/

/-- The reset value of a KSC staged register (R94, R96). -/
def kscRst (k : Nat) : Nat :=
  if k = 0x06 then 0x0F0 else if k = 0x08 then 0x3 else if k = 0x09 then 0xFFFFFF else if k = 0x0C then 0xFFFFF
  else if k = 0x15 then 0xE else if k = 0x16 then 0x40 else if k = 0x17 then 0x04 else if k = 0x18 then 0x32
  else if k = 0x19 then 0x0A else 0

/-- A live KSC configuration value. -/
def kscLive (s : State) (k : Nat) : Nat := spGet (kscRst k) s.ksc.cfg.live k

/-- Position p is PRESENT and on an enabled drive and sense line (R52, R89). -/
def kscPresent (s : State) (p : Nat) : Bool :=
  (kscLive s (0x10000 + p)).testBit 0 && (kscLive s 0x09).testBit (p / 20) && (kscLive s 0x0C).testBit (p % 20)

/-- Position p is provisional-enabled (R63). -/
def kscProvEn (s : State) (p : Nat) : Bool := (kscLive s (0x10000 + p)).testBit 2 && (kscLive s 0x15).testBit 1

/-- Position p is a wake key (R82). -/
def kscWake (s : State) (p : Nat) : Bool := (kscLive s (0x10000 + p)).testBit 1

/-- The frame in progress is a slow frame; with none in progress, the frames of the present mode are (R81, R83): a frame keeps
its kind when the mode changes. -/
def kscSlow (s : State) : Bool := if s.ksc.fr = .idle then s.dct.mode = .watch else s.ksc.slow

/-- The drive lines a frame scans, ascending (R53, R81). -/
def scanLines (s : State) : List Nat :=
  let l := bitsOf 24 (kscLive s 0x09)
  if kscSlow s && !(kscLive s 0x15).testBit 2 then
    l.filter (fun k => (upTo 20).any (fun c => kscWake s (20 * k + c)))
  else l

/-- dwell_k (R58, R60, R61, R81). In a slow frame an UNSET line too dwells by S_k where it has a VALID result: R61 gives it
DWELL, R81 S_k (DESIGN CHOICE, log entry 47). -/
def kscDwell (s : State) (k : Nat) : Nat :=
  let d := kscLive s 0x06
  let l := spGet {} s.ksc.snd k
  let adapt := (kscLive s 0x15).testBit 0
  if kscSlow s then
    let b := if l.valid && adapt then l.s else d
    max 16 ((b - 2 + 9) / 10 + 2)
  else
    let firstRun := match s.ksc.run with | some r => r.first | none => false
    if adapt && l.valid && !l.unset && !firstRun then max 16 (min l.s d) else d

/-- The provisional plane: T where a provisional record is outstanding, C elsewhere (R65). -/
def provPlane (pl : KeyPlane) : BitVec 480 := pl.conf ^^^ (pl.pending &&& pl.out)

/-- Word w of a bitmap (R52). -/
def keyWord (m : BitVec 480) (w : Nat) : Nat := (m.toNat >>> (16 * w)) % 65536

/-- SNDMAX: the largest S_k of the enabled lines, VALID or not (R62, R97). -/
def kscSndMax (s : State) : Nat := (bitsOf 24 (kscLive s 0x09)).foldl (fun a k => max a (spGet {} s.ksc.snd k).s) 0

/-- SNDMAXLN: the line that holds SNDMAX, 0x1F when no result is VALID (R97). Of several lines that hold it the spec names
none; the model shows the lowest (DESIGN CHOICE, log entry 47). -/
def kscSndMaxLn (s : State) : Nat :=
  let lines := bitsOf 24 (kscLive s 0x09)
  if lines.any (fun k => (spGet {} s.ksc.snd k).valid) then
    (lines.find? (fun k => (spGet {} s.ksc.snd k).s = kscSndMax s)).getD 0x1F
  else 0x1F

/-- SNDOK (R62). -/
def kscSndOk (s : State) : Bool :=
  (kscLive s 0x15).testBit 0 && s.ksc.ranSince
  && (bitsOf 24 (kscLive s 0x09)).all (fun k => !(spGet {} s.ksc.snd k).isOver)
  && !(s.ksc.snd.any (fun e => e.2.unset))

/-- The frame period F (R53): the sum over the lines that the frame scans. In WATCH with SLOWALL = 0 these are the lines with a
WAKE position, where R53 names the enabled lines (DESIGN CHOICE, log entry 47). -/
def kscFrame (s : State) : Nat := (scanLines s).foldl (fun a k => a + kscDwell s k) 0

/-- A settle time as the 12-bit field S shows it; above 12 bits the spec states no value (DESIGN CHOICE, log entry 12). -/
def settle12 (v : Nat) : Nat := if v < 4096 then v else (Config.wideSettle v).toNat

/-- KSTAT (R93). SCANNING, and SLOW in WATCH, stay 1 between slow frames and in a frame hold, until the scan stops; SLOW goes by the
mode, so that it reads 0 while a slow frame runs on after a wake that completes in fallback: the spec does not say what they show
there (DESIGN CHOICE, log entry 47). -/
def kstat (s : State) : Nat :=
  let q := s.ksc
  bAt (s.dct.mode = .watch && q.scanning) 5 + bAt (q.plane.withheld ≠ 0) 4 + bAt (q.snd.any (fun e => e.2.unset)) 3
  + bAt (kscSndOk s) 2 + bAt q.run.isSome 1 + bAt q.scanning 0

/-- GHOST by GSEL (R76). -/
def ghostWord (s : State) (gsel : Nat) : Nat :=
  let q := s.ksc
  if gsel = 0 then bAt (q.whcnt ≠ 0) 15 + min 127 q.whcnt * 256 + min 255 q.rects.length
  else
    let (hi, lo) := match q.rects.head? with
      | none => (0x1F, 0x1F)
      | some r => if gsel = 1 then (r.rb, r.ra) else (r.cb, r.ca)
    q.gtag.toNat * 8192 + hi * 256 + lo

/-- The drive line in its dwell, for the snapshot (R464); 0x1F when none is. -/
def kscLineNow (s : State) : Nat :=
  match s.ksc.fr with
  | .idle => 0x1F
  | .line k => k
  | .start => (scanLines s).headD 0x1F

/-- The value of a KSC register that a read leaves unchanged (R92 to R99). -/
def kscView (off : Nat) (s : State) : Nat :=
  let q := s.ksc
  let l := spGet {} q.snd q.sndsel
  if off = 0x04 then bAt q.viewlive 2 + bAt q.scanen 0
  else if off = 0x05 then kstat s
  else if off = 0x1A then q.katlsel
  else if off = 0x1D then q.sndsel
  else if off = 0x1E then bAt l.unset 15 + bAt l.valid 14 + bAt l.held 13 + bAt l.isOver 12 + settle12 l.s
  else if off = 0x20 then settle12 (kscDwell s q.sndsel)
  else if off = 0x22 then settle12 (kscSndMax s)
  else if off = 0x24 then kscSndMaxLn s
  else if off = 0x25 then kscFrame s % 2 ^ 17
  else if off = 0x28 then q.image.seq.toNat
  else if off = 0x2A then bAt q.ovf 5 + q.fifo.length
  else if off = 0x2D then q.kie
  else if off = 0x2E then q.kis
  else if off = 0x2F then min 255 q.rects.length
  else if off = 0x38 then q.encctl
  else if off = 0x3A then q.encthr
  else if off = 0x3B then q.encwake
  else if off = 0x3D then q.kwsel
  else if off = 0x3E then keyWord q.plane.conf q.kwsel
  else 0

/-- The 64 snapshot words of KSC (R464). -/
def kscSnap (s : State) : List Nat :=
  (upTo 30).map (keyWord s.ksc.plane.conf) ++ (upTo 30).map (keyWord (provPlane s.ksc.plane))
  ++ [s.ksc.image.seq.toNat, ghostWord s 0, kscFrame s % 65536, kstat s * 256 + kscLineNow s]

/-! ### LGT (03) -/

/-- The reset value of an LGT staged register or table entry (R140, R142). -/
def lgtRst (k : Nat) : Nat :=
  if k = 0x10 then 0x10 else if k = 0x11 then 0x0F0 else if k = 0x13 then 0x10 else if k = 0x14 then 0x40
  else if k = 0x16 then 0x2 else if 0x20 ≤ k ∧ k ≤ 0x22 then 0x08 else if 0x23 ≤ k ∧ k ≤ 0x25 then 0xA0
  else if k = 0x26 then 0x08 else if k = 0x2A then 0x19 else if k = 0x2B then 0x28 else if k = 0x2C then 0x20
  else if k = 0x2D then 0x10 else if 0x31 ≤ k ∧ k ≤ 0x33 then 0x8C else if 0x34 ≤ k ∧ k ≤ 0x36 then 0x64
  else if k = 0x3C ∨ k = 0x3E ∨ k = 0x40 then 0xFFFF else if k = 0x42 then 0x0C
  else if 0x50 ≤ k ∧ k < 0x90 ∧ k % 8 = 1 then 0x0F0
  else if 0x20000 ≤ k then 0x1FF else 0

/-- A live LGT configuration value. -/
def lgtLive (s : State) (k : Nat) : Nat := spGet (lgtRst k) s.lgt.cfg.live k

/-- STEP in CK (R103). -/
def lgtStep (s : State) : Nat := if (lgtLive s 0x15).testBit 0 then 2 else 1

/-- The live LSYNC role: 0 standalone, 1 master, 2 follower (R125). -/
def lgtRole (s : State) : Nat := fld (lgtLive s 0x42) 1 0

/-- The length of a slot without a probe interval (R103). -/
def lgtSlot (s : State) : Nat := lgtLive s 0x11 + 4096 * lgtStep s + lgtLive s 0x14

/-- The frame period F (R104). -/
def lgtFper (s : State) : Nat :=
  lgtLive s 0x10 * lgtSlot s + (if (lgtLive s 0x15).testBit 1 then 480 else 0)

/-- LSTAT (R139). -/
def lstat (s : State) : Nat :=
  bAt s.lgb.synclost 5 + bAt s.lgb.swap.isSome 4 + bAt s.lgb.backrdy 3 + bAt s.lgt.blanked 2 + bAt s.lgb.tstale 1
  + bAt s.lgt.running 0

/-- LITESTAT (R138). -/
def litestat (s : State) : Nat :=
  let f := s.lgt.flt
  lgtRole s * 2 ^ 14 + bAt s.lgb.synclost 13 + bAt s.lgb.swap.isSome 12 + bAt s.lgb.backrdy 11 + bAt s.lgt.blanked 10
  + bAt s.lgt.running 9 + bAt s.lgb.tstale 8 + bAt (f.testBit 5) 7 + bAt (f.testBit 2) 6 + bAt (f.testBit 3) 5
  + bAt (f.testBit 4) 4 + bAt (f.testBit 6) 3 + bAt s.lgt.cfg.mism 2

/-- The entry that LIXSEL and LIXIDX select, 0x0000 beyond the table (R142). -/
def lixEntry (s : State) : Nat :=
  let i := s.lgb.lixidx
  let t := s.lgb.lixsel
  if t = 0 then (if i < 1160 then spGet 0 s.lgb.back i else 0)
  else if t = 1 then (if i < 1160 then spGet 0 s.lgb.front i else 0)
  else if t = 2 then (if i < 72 then spGet 0 s.lgt.cfg.stg (0x10000 + i) else 0)
  else if t = 3 then (if i < 480 then spGet 0x1FF s.lgt.cfg.stg (0x20000 + i) else 0)
  else if t = 4 then (if i < 1152 then spGet 0 s.lgb.fault i else 0)
  else if t = 5 then (if i < 72 then spGet 0 s.lgb.comp i else 0)
  else 0

/-- The value of an LGT register that a read leaves unchanged (R139). -/
def lgtView (off : Nat) (s : State) : Nat :=
  let q := s.lgt
  if off = 0x04 then bAt q.copyback 2 + bAt q.blanked 1 + bAt q.run 0
  else if off = 0x06 then lstat s
  else if off = 0x07 then q.flt
  else if off = 0x08 then q.lie
  else if off = 0x09 then q.lis
  else if off = 0x0A then q.lframe.toNat
  else if off = 0x0C then lgtFper s % 2 ^ 18
  else if off = 0x37 then q.rails[0].rset
  else if off = 0x38 then q.rails[1].rset
  else if off = 0x39 then q.rails[2].rset
  else if off = 0x90 then q.esopen
  else if off = 0x91 then q.esshort
  else if off = 0x92 then s.lgb.ltin
  else if off = 0x94 then s.lgb.ltrim[0]
  else if off = 0x95 then s.lgb.ltrim[1]
  else if off = 0x96 then s.lgb.ltrim[2]
  else if off = 0xA0 then s.lgb.lixsel
  else if off = 0xA1 then s.lgb.lixidx
  else 0

/-- The 8 snapshot words of LGT (R464); of a pair of bytes the first named is the low byte (R13). -/
def lgtSnap (s : State) : List Nat :=
  let q := s.lgt
  [q.lframe.toNat, q.line, lstat s, q.flt, q.rails[0].rset + 256 * q.rails[1].rset, q.rails[2].rset, s.lgb.ltin,
   q.esopen * 256 + q.esshort]

/-! ### CHG (04) -/

/-- The reset value of a CHG staged register or table entry (R194, R195). -/
def chgRst (k : Nat) : Nat :=
  match k with
  | 0x10 => 0x3 | 0x17 => 0x00 | 0x18 => 0x0A | 0x19 => 0x2D | 0x1A => 0x32 | 0x1B => 0x3C | 0x1C => 0x2
  | 0x1D => 0x014 | 0x1F => 0x01E | 0x21 => 0x0BB8 | 0x23 => 0x064 | 0x25 => 0x109A | 0x27 => 0x64 | 0x28 => 0x0AF0
  | 0x2A => 0x032 | 0x2C => 0x0D7 | 0x2E => 0x44C | 0x30 => 0x23A | 0x32 => 0x190 | 0x34 => 0x0C | 0x35 => 0x02
  | 0x36 => 0x64 | 0x37 => 0x12C | 0x39 => 0x1E | 0x3A => 1 | 0x3B => 0x0F0 | 0x3D => 0x14 | 0x3E => 0x0A
  | 0x3F => 0x02 | 0x40 => 0x6E | 0x41 => 0x0D6B | 0x43 => 0x03E8 | 0x45 => 0x0FA | 0x47 => 0x0A
  | _ => 0

/-- A live CHG configuration value. -/
def chgLive (s : State) (k : Nat) : Nat := spGet (chgRst k) s.chg.cfg.live k

/-- STEPS of a zone; code 7 has none (R156). -/
def zoneSteps (s : State) (z : Nat) : Nat := if z < 6 then fld (chgLive s (0x11 + z)) 2 0 else 0

/-- DERATE of a zone (R151). -/
def zoneDerate (s : State) (z : Nat) : Bool := decide (z < 6) && (chgLive s (0x11 + z)).testBit 3

/-- ICHG_k of zone z in mA. -/
def ichg (s : State) (z k : Nat) : Int := 10 * (chgLive s (0x10000 + 8 * z + 2 * k) : Int)

/-- The effective voltage of step k of zone z in mV: min(VSTEP - MPVDN, CEILV) (R156, R170). -/
def veff (s : State) (z k : Nat) : Int :=
  min ((chgLive s (0x10000 + 8 * z + 2 * k + 1) : Int) - s.chp.mpLive.1) s.prt.ceilv

/-- The final effective voltage of a zone. -/
def veffFinal (s : State) (z : Nat) : Int := veff s z (zoneSteps s z - 1)

/-- The cells in use. -/
def cellsOf (s : State) (m : ChgMeas) : List Int := m.cells.toList.take (chgLive s 0x10)

/-- The highest of a list of cell voltages. -/
def maxInt (l : List Int) : Int := l.foldl max (l.headD 0)

/-- The lowest of a list of cell voltages. -/
def minInt (l : List Int) : Int := l.foldl min (l.headD 0)

/-- The input counts as valid (R171, R172). -/
def inputValid (s : State) : Bool := s.chp.vinOk && !s.chp.blocked

/-- THA's charger trip line (R239, R241). -/
def chgTripLine (s : State) : Bool := s.tha.chgTrip

/-- CFLT with its read-only TRIP bit (R193). -/
def cfltWord (s : State) : Nat := setBit s.chg.flt 1 (chgTripLine s)

/-- CHGSTAT and CSTAT (R190). BATT shows no pack before the first interval has been measured (DEDUCED, log entry 34). -/
def chgstat (s : State) : Nat :=
  let q := s.chg
  q.st * 4096 + q.zone * 512 + q.step * 128 + bAt (inputValid s) 6 + bAt (s.chp.batg && !s.chp.isol && s.cht.vals ≠ []) 5
  + bAt s.cht.inreg 4 + bAt s.cht.threg 3 + bAt (zoneDerate s q.zone) 2 + bAt (cfltWord s ≠ 0) 1 + bAt q.half 0

/-- A telemetry value by select code (R192); 0 before the first interval ends. -/
def chgVal (vals : List Nat) (sel : Nat) : Nat := vals.getD sel 0

/-- CRST (R193). -/
def crst (s : State) : Nat := bAt (s.chg.flt.testBit 2) 1 + bAt s.chg.exp1 0

/-- RC in µAh (R183). -/
def rcMicro (s : State) : Int := s.cht.rcq / 3600

/-- A 16-bit register shows x; outside 0 to 65535 the spec states no value (DESIGN CHOICE, log entry 14). -/
def reg16 (x : Int) : Nat := if 0 ≤ x ∧ x < 65536 then x.toNat else (Config.wide16 x).toNat

/-- SOC (R183). -/
def chgSoc (s : State) : Nat :=
  if s.chp.fcc = 0 then 0xFFFF else reg16 (rcMicro s / (s.chp.fcc : Int))

/-- The entry at CTSEL: staged contour entries, then the live OCV table (R195). -/
def ctEntry (s : State) : Nat :=
  let i := s.chs.ctsel
  if i < 48 then spGet 0 s.chg.cfg.stg (0x10000 + i) else if i < 69 then spGet 0 s.chp.ocv (i - 48) else 0

/-- The value of a CHG register (R193, R195, R196). -/
def chgView (off : Nat) (s : State) : Nat :=
  let k : Fin 4 := finOf 4 s.chs.lfsel
  if off = 0x04 then bAt s.chg.en 0
  else if off = 0x05 then chgstat s
  else if off = 0x07 then cfltWord s
  else if off = 0x09 then s.chg.cie
  else if off = 0x0A then s.chg.cis
  else if off = 0x0B then s.chg.cend
  else if off = 0x0C then crst s
  else if off = 0x48 then s.chs.ctsel
  else if off = 0x49 then ctEntry s
  else if off = 0x50 then s.chp.ithlim
  else if off = 0x52 then s.chp.fcc
  else if off = 0x54 then reg16 (openRound ((rcMicro s : Rat) / 1000))
  else if off = 0x56 then s.chp.srin
  else if off = 0x58 then s.chp.srl
  else if off = 0x5A then s.chp.ldcr
  else if off = 0x5C then s.chp.mpvdn
  else if off = 0x5D then s.chp.mpdt
  else if off = 0x5E then s.chp.mpilk
  else if off = 0x60 then s.prt.ceilv
  else if off = 0x62 then s.prt.ceili
  else if off = 0x64 then s.prt.ceilrbv
  else if off = 0x66 then s.prt.ceilrbi
  else if off = 0x67 then s.chs.tsel
  else if off = 0x68 then chgVal s.cht.vals s.chs.tsel
  else if off = 0x6A then s.chs.lfsel
  else if off = 0x6B then s.chs.ron[k]
  else if off = 0x6D then s.chs.qg[k]
  else if off = 0x6F then s.chs.drvv
  else 0

/-- The 30 snapshot words of CHG (R464). -/
def chgSnap (s : State) : List Nat :=
  [chgstat s, cfltWord s, s.chg.mode * 4096 + s.chg.gates] ++ (upTo 27).map (chgVal s.cht.vals)

/-! ### SEQ (05) -/

/-- The reset value of a SEQ staged register, header byte or step (R225). -/
def seqRst (k : Nat) : Nat :=
  match k with
  | 0x2C => 0x10 | 0x2D => 0x10 | 0x2E => 0x4 | 0x30 => 0x1F | 0x31 => 0x51
  | _ => 0

/-- A live SEQ configuration value. -/
def seqLive (s : State) (k : Nat) : Nat := spGet (seqRst k) s.seq.cfg.live k

/-- Header fields of traverse n in a set (R202). -/
def thFrom (g : Nat → Nat) (n : Nat) : Nat := fld (g (0x40 + 4 * n)) 3 0
def thTo (g : Nat → Nat) (n : Nat) : Nat := fld (g (0x40 + 4 * n)) 7 4
def thValid (g : Nat → Nat) (n : Nat) : Bool := (g (0x41 + 4 * n)).testBit 7
def thLast (g : Nat → Nat) (n : Nat) : Nat := fld (g (0x41 + 4 * n)) 5 0
def thFault (g : Nat → Nat) (n : Nat) : Bool := (g (0x42 + 4 * n)).testBit 3
def thFlt (g : Nat → Nat) (n : Nat) : Nat := fld (g (0x42 + 4 * n)) 2 0

/-- A platform state code of R201 that names a state. -/
def seqCode (c : Nat) : Bool := c = 0 || c = 3 || c = 4 || c = 5

/-- PGIN: the synchronised inputs after polarity (R200); 0 while bank S is unpowered (R483). -/
def pgin (s : State) : Nat := if s.gpio.vios then (s.seq.pg ^^^ BitVec.ofNat 32 (seqLive s 0x28)).toNat else 0

/-- PGWATCH (R208). -/
def pgwatch (s : State) : Nat := (upTo 32).foldl (fun a m => if spGet 0 s.seq.watch m ≠ 0 then a + 2 ^ m else a) 0

/-- A traverse, unwind or fault traverse is running. -/
def seqRun (s : State) : Bool := s.seq.kind ≠ .idle

/-- The queued target, 0xF when empty (R214). -/
def seqQueue (s : State) : Nat := match s.seq.queue with | some r => r.tgt | none => 0xF

/-- TO of the running traverse or fault traverse; CUR when idle (R223). -/
def seqTgt (s : State) : Nat := if seqRun s then thTo (seqLive s) s.seq.trv else s.seq.cur

/-- PLATSTAT (R223). -/
def platstat (s : State) : Nat :=
  let q := s.seq
  q.cur * 4096 + seqTgt s * 256 + seqQueue s * 16 + bAt (seqRun s) 3 + bAt q.pastcmt 2
  + bAt (q.sflt ≠ 0 || q.kind = .fault) 1 + bAt (q.kind = .unwind) 0

/-- SSTAT (R224). -/
def sstat (s : State) : Nat :=
  let q := s.seq
  bAt (seqRun s) 7 + bAt (q.kind = .unwind) 6 + bAt q.pastcmt 5 + bAt (q.kind = .fault) 4 + bAt q.queue.isSome 3 + q.trv

/-- The value of a SEQ register that a read leaves unchanged (R224). -/
def seqView (off : Nat) (s : State) : Nat :=
  let q := s.seq
  if off = 0x04 then bAt q.viewlive 1 + bAt q.en 0
  else if off = 0x05 then sstat s
  else if off = 0x06 then q.cur
  else if off = 0x08 then seqQueue s
  else if off = 0x09 then q.step
  else if off = 0x0A then q.sflt
  else if off = 0x0B then q.fltTrv * 8192 + q.fltStep * 128 + q.fltPg
  else if off = 0x0D then q.sie
  else if off = 0x0E then q.sis
  else if off = 0x0F then q.smark
  else if off = 0x10 then q.psout
  else if off = 0x14 then pgin s
  else if off = 0x18 then pgwatch s
  else if off = 0x60 then q.sstsel
  else if off = 0x62 then spGet 0 (if q.viewlive then q.cfg.live else q.cfg.stg) (0x10000 + q.sstsel)
  else 0

/-- The 10 snapshot words of SEQ (R464). -/
def seqSnap (s : State) : List Nat :=
  [platstat s, sstat s * 256 + s.seq.step, s.seq.psout % 65536, s.seq.psout / 65536, pgin s % 65536, pgin s / 65536,
   pgwatch s % 65536, pgwatch s / 65536, s.seq.sflt, seqQueue s]

/-! ### THA and SMB (06) -/

/-- The reset value of a THA staged register or curve entry (R252). -/
def thaRst (k : Nat) : Nat :=
  match k with
  | 0x40 => 0x64 | 0x4A => 0x0A | 0x60 => 0x100
  | 0x62 => 0x0D6B | 0x64 => 0x03E8 | 0x66 => 0x03E8 | 0x68 => 0x0D6B | 0x6A => 0x03E8 | 0x6C => 0x03E8
  | _ =>
    if 0x80 ≤ k ∧ k < 0xB0 then (if (k - 0x80) % 6 = 1 then 0x08 else 0)
    else if 0xB0 ≤ k ∧ k < 0xF0 then
      match k % 16 with
      | 0 => 0x04 | 1 => 0x1F | 2 => 0x1F | 3 => 0x1F | 4 => 0x1F | 5 => 0x0C | 6 => 0x33 | 7 => 0xFF
      | 8 => 0x10 | 9 => 0x04 | 10 => 0x0A | 11 => 0x5 | 12 => 0x4D | _ => 0
    else 0

/-- A live THA configuration value. -/
def thaLive (s : State) (k : Nat) : Nat := spGet (thaRst k) s.tha.cfg.live k

/-- A THA configuration value of the present round (R232). -/
def thaRound (s : State) (k : Nat) : Nat := spGet (thaRst k) s.tha.rcfg k

/-- The reported 14-bit value of an AN channel (R233). -/
def anRaw (c : AnCh) : Nat := (c.y18 + 8) / 16

/-- MODE of AN channel m in a set (R252). -/
def anMode (g : Nat → Nat) (m : Nat) : Nat := fld (g (0x50 + m)) 7 6

/-- The temperature of a source in 1/16 °C, none when it is invalid (R228). -/
def srcTemp (s : State) (i : Nat) : Option Int :=
  if i < 9 then
    let x := s.thd.sens[(finOf 9 i)]
    if (thaLive s 0x44).testBit i && x.valid then some x.t else none
  else if i < 25 then
    let m := i - 9
    let x := s.thd.an[(finOf 16 m)]
    let md := anMode (thaLive s) m
    if (thaLive s 0x42).testBit m && (md = 1 || md = 2) && x.valid then some x.t else none
  else if i < 29 then
    let x := s.thd.vt[(finOf 4 (i - 25))]
    if x.valid then some (toSigned 16 x.t) else none
  else none

/-- The temperature word of a source: 0x8000 when invalid (R228). -/
def srcWord (s : State) (i : Nat) : Nat := match srcTemp s i with | some t => ofSigned 16 t | none => 0x8000

/-- The raw value of an AN source, 0 for others (R249, R251). -/
def srcRaw (s : State) (i : Nat) : Nat := if 9 ≤ i ∧ i < 25 then anRaw s.thd.an[(finOf 16 (i - 9))] else 0

/-- The status of a source: VALID, FAULT, TRIPPED, STALE, bit 3 to bit 0 (R249, R251). -/
def srcStatus (s : State) (i : Nat) : Nat :=
  let trip := (upTo 8).any (fun n => s.tha.tract.testBit n && fld (thaLive s (0x80 + 6 * n)) 4 0 = i)
  bAt (srcTemp s i).isSome 3 + bAt (decide (i < 9) && s.thd.sens[(finOf 9 i)].fault) 2 + bAt trip 1
  + bAt (decide (25 ≤ i) && decide (i < 29) && s.thd.vt[(finOf 4 (i - 25))].stale) 0

/-- FCFG bits of fan n: EN, CLOSED, TRIPDRV, INV (R252). -/
def fanEn (s : State) (n : Nat) : Bool := (thaLive s (0xB0 + 16 * n)).testBit 7
def fanClosed (s : State) (n : Nat) : Bool := (thaLive s (0xB0 + 16 * n)).testBit 6
def fanTripDrv (s : State) (n : Nat) : Bool := (thaLive s (0xB0 + 16 * n)).testBit 5

/-- The duty that R247 selects for fan n. -/
def fanDuty (s : State) (n : Fin 4) : Nat :=
  let f := s.thd.fans[n]
  if !fanEn s n.val then 0
  else if s.tha.fanTrip && fanTripDrv s n.val then 255
  else if f.kick then 255
  else if s.thd.foven.testBit n.val then s.thd.fovr[n]
  else if f.noSrc then thaLive s (0xB7 + 16 * n.val)
  else f.loop

/-- FSTAT n (R251). -/
def fstat (s : State) (n : Fin 4) : Nat :=
  let f := s.thd.fans[n]
  bAt (f.speed ≠ 0) 7 + bAt f.stall 6 + bAt (s.tha.fanTrip && fanTripDrv s n.val) 5 + bAt (s.thd.foven.testBit n.val) 4
  + bAt f.kick 3 + bAt (fanClosed s n.val) 2 + bAt f.noSrc 1

/-- TSTAT (R251). -/
def tstat (s : State) : Nat :=
  bAt (s.thd.fans.toList.any Fan.stall) 4 + bAt (s.thd.sens.toList.any Sensor.fault) 3 + bAt s.tha.fanTrip 2
  + bAt s.tha.chgTrip 1 + bAt s.tha.en 0

/-- The value of a THA register that a read leaves unchanged (R251, R252). -/
def thaView (off : Nat) (s : State) : Nat :=
  let q := s.tha
  let set := if q.viewlive then q.cfg.live else q.cfg.stg
  if off = 0x04 then bAt q.viewlive 1 + bAt q.en 0
  else if off = 0x05 then tstat s
  else if off = 0x06 then q.tflt
  else if off = 0x07 then q.tie
  else if off = 0x08 then q.tis
  else if off = 0x09 then q.tract
  else if off = 0x0A then q.rcount.toNat
  else if off = 0x0E then q.tsel
  else if off = 0x0F then srcWord s q.tsel
  else if off = 0x11 then srcRaw s q.tsel
  else if off = 0x13 then srcStatus s q.tsel
  else if 0x14 ≤ off ∧ off < 0x1C then let x := s.thd.vt[(finOf 4 ((off - 0x14) / 2))]; if x.valid then x.t else 0x8000
  else if 0x1C ≤ off ∧ off < 0x20 then s.thd.fovr[(finOf 4 (off - 0x1C))]
  else if off = 0x20 then s.thd.foven
  else if 0x21 ≤ off ∧ off < 0x25 then s.thd.fmptrim[(finOf 4 (off - 0x21))]
  else if 0x28 ≤ off ∧ off < 0x30 then s.thd.fans[(finOf 4 ((off - 0x28) / 2))].speed
  else if 0x30 ≤ off ∧ off < 0x34 then s.thd.fans[(finOf 4 (off - 0x30))].pwm
  else if 0x34 ≤ off ∧ off < 0x38 then fstat s (finOf 4 (off - 0x34))
  else if off = 0xF0 then q.fcsel
  else if off = 0xF1 then spGet 0 set (0x10000 + q.fcsel)
  else if off = 0xF2 then spGet 0 set (0x20000 + q.fcsel)
  else 0

/-- The 38 snapshot words of THA (R464). -/
def thaSnap (s : State) : List Nat :=
  let d (n : Fin 4) : Nat := s.thd.fans[n].pwm
  [s.tha.tract, s.tha.tflt, s.tha.rcount.toNat] ++ (upTo 29).map (srcWord s)
  ++ [d 0 + 256 * d 1, d 2 + 256 * d 3] ++ (List.finRange 4).map (fun n => s.thd.fans[n].speed)

/-- Bank M is powered (R483). -/
def bankM (s : State) : Bool := s.gpio.viom

/-- SMSTAT (R259). -/
def smstat (s : State) (c : Fin 4) : Nat :=
  let q := s.smb[c]
  bAt q.busy 7 + bAt (q.busflt || !bankM s) 6 + bAt q.busbusy 5 + bAt q.err 0

/-- The value of a register of SMBus controller c that a read leaves unchanged (R259). -/
def smbView (c : Fin 4) (off : Nat) (s : State) : Nat :=
  let q := s.smb[c]
  if off = 0x00 then bAt q.en 7 + q.speed * 32 + bAt q.pec 4 + bAt q.hnen 3
  else if off = 0x01 then smstat s c
  else if off = 0x03 then q.addr
  else if off = 0x04 then q.code
  else if off = 0x05 then q.len
  else if off = 0x06 then q.ptr
  else if off = 0x07 then spGet 0 q.buf q.ptr
  else if off = 0x08 then q.res
  else if off = 0x09 then q.smie
  else if off = 0x0A then q.smis
  else if off = 0x0B then q.hnadr
  else if off = 0x0C then q.hndat
  else if off = 0x0F then q.bcnt
  else 0

/-- The snapshot word of one SMBus controller (R464). -/
def smbSnap (s : State) (c : Fin 4) : Nat :=
  let q := s.smb[c]
  bAt q.busy 15 + bAt (q.busflt || !bankM s) 14 + (if q.busy then q.addr / 2 else 0)

/-! ### MBX and LCK (08) -/

/-- The ownership entry of channel c (R294, R419). -/
def chanEnt (s : State) (c : Nat) : Nat := spGet 7 s.prt.chan c

/-- ROLE, DIR, PORTS and LATEST of channel c. -/
def chanRole (s : State) (c : Nat) : Nat := fld (chanEnt s c) 2 0
def chanDir (s : State) (c : Nat) : Bool := (chanEnt s c).testBit 6
def chanPorts (s : State) (c : Nat) : Nat := fld (chanEnt s c) 5 4
def chanLatest (s : State) (c : Nat) : Bool := (chanEnt s c).testBit 7

/-- The engine that serves a role, none for 6 and 7 (R294, R295). -/
def roleEng (s : State) (r : Nat) : Option Nat := if r < 6 then some s.mbx.rolemap[(finOf 6 r)] else none

/-- The owning engine of channel c (R295). -/
def chanOwner (s : State) (c : Nat) : Option Nat := roleEng s (chanRole s c)

/-- The domain of an engine (R22). -/
def engDom (e : Nat) : Nat := if e < 3 then 3 else 4

/-- The owning domain of channel c is off (R294, R295). -/
def chanOff (s : State) (c : Nat) : Bool := match chanOwner s c with | some e => !domOn s (engDom e) | none => false

/-- The state of channel c. -/
def chan (s : State) (c : Nat) : Chan := spGet {} s.mbx.chans c

/-- Word w of a slot. -/
def slotWord (c : Chan) (w : Nat) : Nat := c.slot.getD w 0

/-- The channels with EPEND of engine e, ascending (R313). -/
def epChans (s : State) (e : Nat) : List Nat :=
  (s.mbx.chans.filter (fun x => x.2.epend && chanOwner s x.1 = some e)).map Prod.fst

/-- EPCNT of engine e. -/
def epcnt (s : State) (e : Nat) : Nat := (epChans s e).length

/-- EPLOW of engine e. -/
def eplow (s : State) (e : Nat) : Nat := match epChans s e with | [] => 0 | c :: _ => 0x8000 + c

/-- The route of doorbell k of port p (R306). -/
def dbRoute (s : State) (p : Port) (k : Nat) : Nat := spGet 7 s.prt.routes[p] k

/-- Doorbell k of port p is routed to engine e. -/
def dbMine (s : State) (p : Port) (e k : Nat) : Bool := roleEng s (dbRoute s p k) = some e

/-- EDBPEND of port p for engine e (R314). -/
def edbPend (s : State) (p : Port) (e : Nat) : Nat :=
  ((upTo 64).filter (fun k => s.mbx.dbE[p].getLsbD k && dbMine s p e k)).foldl (fun a k => a + 2 ^ k) 0

/-- EDBLOW of engine e (R314). -/
def edblow (s : State) (e : Nat) : Nat :=
  match lowestBit 64 (edbPend s 0 e), lowestBit 64 (edbPend s 1 e) with
  | some k, _ => 0x80 + k
  | none, some k => 0xC0 + k
  | none, none => 0

/-- DBSTAT of port p (R281). -/
def dbstat (s : State) (p : Port) : Nat :=
  let v := s.mbx.dbH[p].toNat
  let n := popcount 64 v
  bAt (n ≠ 0) 15 + n * 256 + (lowestBit 64 v).getD 0

/-- ECHST of engine e (R313). -/
def echst (s : State) (e : Fin 6) : Nat :=
  let c := s.mbx.eng[e].echsel
  let x := chan s c
  bAt x.full 15 + bAt x.coll 14 + bAt (chanDir s c) 13 + bAt (chanOwner s c = some e.val) 12 + bAt x.epend 11
  + bAt (chanLatest s c) 10 + chanPorts s c * 256 + x.stamp * 16 + (x.len - 1)

/-- The holder of lock l (R309): none when free. -/
def lockOwner (s : State) (l : Nat) : Option Nat := match spGet 0 s.lck.held l with | 0 => none | m + 1 => some m

/-- LKBUSY (R315). -/
def lkbusy (s : State) : Nat := (upTo 32).foldl (fun a l => if (lockOwner s l).isSome then a + 2 ^ l else a) 0

/-- The value of an MBX register that a read leaves unchanged (R313, R314), for engine e. -/
def mbxView (e : Fin 6) (off : Nat) (s : State) : Nat :=
  let q := s.mbx.eng[e]
  if off = 0x00 then b2n s.mbx.err
  else if off = 0x04 then q.echsel
  else if off = 0x06 then echst s e
  else if off = 0x08 then (chan s q.echsel).seq.toNat
  else if off = 0x09 then q.embptr
  else if off = 0x0C then q.embres
  else if off = 0x0D then q.embdb
  else if off = 0x10 then epcnt s e.val
  else if off = 0x12 then eplow s e.val
  else if off = 0x20 then edbPend s 0 e.val
  else if off = 0x28 then edbPend s 1 e.val
  else if off = 0x32 then edblow s e.val
  else if 0x40 ≤ off ∧ off < 0x46 then s.mbx.rolemap[(finOf 6 (off - 0x40))]
  else 0

/-- The value of an LCK register that a read leaves unchanged (R315), for engine e. -/
def lckView (e : Fin 6) (off : Nat) (s : State) : Nat :=
  let l := s.lck.lksel[e]
  if off = 0x00 then s.lck.stat[e]
  else if off = 0x04 then l
  else if off = 0x08 then lkbusy s
  else if off = 0x0C then (upTo 32).foldl (fun a l => if lockOwner s l = some e.val then a + 2 ^ l else a) 0
  else if off = 0x10 then spGet 0 s.lck.ptr l
  else if off = 0x12 then match lockOwner s l with | some m => 0x80 + m | none => 0
  else 0

/-! ### Engines (09) -/

/-- The interrupt requests of engine e, bit n for source n (R332, R426). -/
def irqPend (s : State) (e : Fin 6) : Nat :=
  let q := s.eng[e]
  let on (d : Nat) : Bool := domOn s d
  let both (a b : Nat) : Bool := (BitVec.ofNat 8 a &&& BitVec.ofNat 8 b) ≠ 0
  bAt q.wd.warnf 0 + bAt q.tmr[0].flag 1 + bAt q.tmr[1].flag 2 + bAt (q.xpend ≠ 0) 3
  + bAt (on 7 && epcnt s e.val ≠ 0) 4 + bAt (on 7 && edblow s e.val ≠ 0) 5
  + bAt (on 5 && both s.ksc.kis s.ksc.kie) 6 + bAt (on 6 && both s.lgt.lis s.lgt.lie) 7
  + bAt (on 1 && both s.chg.cis s.chg.cie) 8 + bAt (on 2 && both s.seq.sis s.seq.sie) 9
  + bAt (on 2 && both s.tha.tis s.tha.tie) 10 + bAt (both s.dct.dis s.dct.die) 11
  + bAt (both s.fbk.fbis s.fbk.fbie) 12 + bAt (both s.svy.svis s.svy.svie) 13
  + bAt (on 2 && both s.bmk.bis s.bmk.bie) 14
  + bAt (on 1 && both s.smb[0].smis s.smb[0].smie) 15 + bAt (on 2 && both s.smb[1].smis s.smb[1].smie) 16
  + bAt (on 2 && both s.smb[2].smis s.smb[2].smie) 17 + bAt (on 2 && both s.smb[3].smis s.smb[3].smie) 18
  + bAt (on 7 && both s.cpy.is_ s.cpy.ie) 19 + bAt (both s.gpio.is_ s.gpio.ie) 20 + bAt (q.estop ≠ 0) 21

/-- IRQPEND AND IRQEN. -/
def irqReady (s : State) (e : Fin 6) (en : Nat) : Nat := (BitVec.ofNat 24 (irqPend s e) &&& BitVec.ofNat 24 en).toNat

/-- Whole ms left in a watchdog period, rounded up (R348). -/
def wdRem (w : Wdog) : Nat := (w.left + 23999) / 24000

/-- The value of an engine-local register that a read leaves unchanged (R346 to R349). -/
def locView (e : Fin 6) (off : Nat) (s : State) : Nat :=
  let q := s.eng[e]
  let t : Tmr := if off < 0x28 then q.tmr[0] else q.tmr[1]
  if off = 0x00 then e.val
  else if off = 0x01 then b2n q.err
  else if off = 0x02 then q.dsb
  else if off = 0x03 then q.ivbase
  else if off = 0x04 then bAt q.intrap 1 + bAt q.ie 0
  else if off = 0x05 then match lowestBit 24 (irqReady s e q.irqen) with | some n => 0x88 + n | none => 0
  else if off = 0x08 then irqPend s e
  else if off = 0x0C then q.irqen
  else if off = 0x11 then q.xpend
  else if off = 0x12 then q.estop
  else if off = 0x20 ∨ off = 0x28 then bAt t.flag 7 + t.pre * 4 + bAt t.per 1 + bAt t.en 0
  else if off = 0x21 ∨ off = 0x29 then t.rld
  else if off = 0x24 ∨ off = 0x2C then t.cnt
  else if off = 0x30 then q.cyc.toNat
  else if off = 0x40 then q.wd.warn * 2 + b2n q.wd.en
  else if off = 0x41 then q.wd.per
  else if off = 0x44 then b2n q.wd.warnf
  else if off = 0x45 then wdRem q.wd
  else if off = 0x50 then q.tf.pc
  else if off = 0x52 then q.tf.word
  else if off = 0x55 then q.tf.vec
  else if off = 0x56 then bAt q.tf.repv 3 + bAt q.tf.ds 2 + bAt q.tf.ie 1
  else if off = 0x57 then q.tf.tgt
  else if off = 0x59 then q.tf.rep
  else if off = 0x5B then q.tf.addr
  else if off = 0x5D then q.tf.info
  else 0

/-! ### DCT, clock, reset and boot (12, 13) -/

/-- The MODE code of a device mode (R283). -/
def modeCode : Mode → Nat
  | .run => 0
  | .watch => 1
  | .ship => 2

/-- The reset value of a DCT staged register (R443). -/
def dctRst (k : Nat) : Nat :=
  match k with
  | 0x18 => 0x0100 | 0x1A => 0x00A0 | 0x1D => 7 | 0x34 => 0x271 | 0x38 => 0x2C688 | _ => 0

/-- A live DCT configuration value. -/
def dctLive (s : State) (k : Nat) : Nat := spGet (dctRst k) s.dct.cfg.live k

/-- An entry or a wake of the device mode is in progress (R428, R442). -/
def dctBusy (s : State) : Bool := s.dct.phase ≠ .idle && s.dct.dom = none

/-- The change is past its commit edge, or a wake is in progress. -/
def dctCommitted (s : State) : Bool := s.dct.dom = none && (s.dct.phase = .committed || s.dct.phase = .waking)

/-- PWRSTAT (R283). -/
def pwrstat (s : State) : Nat :=
  modeCode s.dct.mode * 2 ^ 14 + s.dct.req * 2 ^ 12 + bAt (dctBusy s) 11 + bAt s.dct.refused 10 + s.dct.on.toNat

/-- DMSTAT (R442). -/
def dmstat (s : State) : Nat :=
  modeCode s.dct.mode * 64 + s.dct.req * 16 + bAt (dctBusy s) 3 + bAt s.dct.refused 2 + bAt (dctCommitted s) 1
  + bAt s.dct.held.isSome 0

/-- CKSTAT (R405). -/
def ckstat (s : State) : Nat :=
  bAt s.clk.fallback 5 + bAt s.clk.lock 4 + bAt s.clk.pllOn 3 + bAt s.clk.ckPll 2 + s.clk.retry

/-- REFCNT entry i (R283). -/
def refEntry (s : State) (i : Nat) : Nat := if i < 10 then s.dct.refcnt[(finOf 10 i)] else 0

/-- The engines whose run state passes a test, as a bitmap. -/
def engMask (s : State) (f : EngRun → Bool) : Nat :=
  (List.finRange 6).foldl (fun a e => if f s.eng[e].run then a + 2 ^ e.val else a) 0

/-- The value of a DCT register that a read leaves unchanged (R389, R405, R442). -/
def dctView (off : Nat) (s : State) : Nat :=
  let q := s.dct
  if off = 0x05 then dmstat s
  else if off = 0x06 then q.on.toNat
  else if off = 0x08 then q.veto
  else if off = 0x09 then q.die
  else if off = 0x0A then q.dis
  else if off = 0x0B then q.wakesrc
  else if off = 0x0C then s.rst.shipsrc
  else if off = 0x10 then q.rfsel
  else if off = 0x11 then refEntry s q.rfsel
  else if off = 0x21 then engMask s (fun r => r = .held)
  else if off = 0x22 then engMask s (fun r => r = .loading)
  else if off = 0x23 then q.erflt
  else if off = 0x28 then ckstat s
  else if off = 0x2A then s.rst.cause
  else if off = 0x2B then s.rst.hist
  else if off = 0x2D then s.rst.bootstat
  else if off = 0x30 then s.rst.bootver
  else 0

/-! ### PRT and flash (12) -/

/-- PRTSTAT (R419). -/
def prtstat (s : State) : Nat := bAt s.prt.err 2 + bAt s.rst.sealed 1 + bAt s.rst.bootPhase 0

/-- The entry that PRTIXSEL and PRTIXIDX select (R419). -/
def prtEntry (s : State) : Nat :=
  let p := s.prt
  if p.ixsel = 0 then spGet 7 p.chan p.ixidx
  else if p.ixidx < 64 then spGet 7 (if p.ixsel = 1 then p.routes[0] else p.routes[1]) p.ixidx
  else 0

/-- The value of a PRT register that a read leaves unchanged (R419). -/
def prtView (off : Nat) (s : State) : Nat :=
  let p := s.prt
  if off = 0x00 then prtstat s
  else if 0x10 ≤ off ∧ off < 0x28 then p.eright[(finOf 6 ((off - 0x10) / 4))]
  else if 0x28 ≤ off ∧ off < 0x2E then p.eflags[(finOf 6 (off - 0x28))]
  else if off = 0x30 then p.pright[0]
  else if off = 0x34 then p.pright[1]
  else if off = 0x38 then p.pflags[0]
  else if off = 0x39 then p.pflags[1]
  else if off = 0x3A then p.gflags
  else if off = 0x40 then p.ceilv
  else if off = 0x42 then p.ceili
  else if off = 0x44 then p.ceilrbv
  else if off = 0x46 then p.ceilrbi
  else if 0x50 ≤ off ∧ off < 0x90 then
    let w := p.wreg[(finOf 8 ((off - 0x50) / 8))]
    (if off % 8 = 0 then w.b0 else if off % 8 = 1 then w.start else if off % 8 = 4 then w.stop else 0)
  else if off = 0xA0 then p.ixsel
  else if off = 0xA1 then p.ixidx
  else 0

/-- A byte of the flash; erased is 0xFF (R416). -/
def flByte (s : State) (a : Nat) : Nat := (spGet 0xFF s.fls.mem a).toNat

/-- FLSTAT (R415). -/
def flstat (s : State) : Nat := bAt s.fls.prot 2 + bAt s.fls.fail 1 + bAt s.fls.cmd.isSome 0

/-! ### FBK and SVY (14) -/

/-- Sequence number a is newer than b (R448). -/
def seqNewer (a b : BitVec 16) : Bool := decide (1 ≤ (a - b).toNat) && decide ((a - b).toNat ≤ 32767)

/-- The records that the NVM holds, oldest first. -/
def nvmRecs (s : State) : List FbRec := s.fbk.nvm.map Prod.snd

/-- The records held: those of the NVM, then the ring records that the NVM does not hold (R451). -/
def fbHeld (s : State) : List FbRec :=
  nvmRecs s ++ (s.fbk.ring.map RingRec.r).filter (fun r => !((nvmRecs s).any (fun n => n.seq = r.seq)))

/-- The held record with SEQ q: the ring's copy where there is one. -/
def fbFind (s : State) (q : BitVec 16) : Option FbRec :=
  (s.fbk.ring.map RingRec.r ++ nvmRecs s).find? (fun r => r.seq = q)

/-- The oldest SEQ held; while none is, the place where a reset cursor stands: the next SEQ to be given (DESIGN CHOICE, log entry 23). -/
def fbOldest (s : State) : BitVec 16 :=
  match fbHeld s with
  | [] => s.fbk.newest + 1
  | r :: t => t.foldl (fun a x => if decide ((s.fbk.newest - a).toNat < (s.fbk.newest - x.seq).toNat) then x.seq else a) r.seq

/-- The oldest SEQ held, as FEOLD and a GONE answer show it (R284, R456, R465). -/
def fbOldShown (s : State) : BitVec 16 := if fbHeld s = [] then Config.noOldest else fbOldest s

/-- Ring records not yet written through (R465). -/
def fbPend (s : State) : Nat := (s.fbk.ring.filter (fun r => !r.written)).length

/-- One byte into the CRC-16 of R447, polynomial 0x1021. -/
def crc16Byte (crc b : Nat) : Nat :=
  (upTo 8).foldl (fun c _ => if c.testBit 15 then ((c * 2) ^^^ 0x1021) % 65536 else (c * 2) % 65536) ((crc ^^^ (b * 256)) % 65536)

/-- The words 0 to 14 of a record (R447). -/
def fbWords (r : FbRec) : List Nat :=
  [r.src * 256 + r.typ, r.seq.toNat, r.bootno % 65536, r.time % 65536, r.time / 65536 % 65536, r.time / 4294967296 % 65536]
  ++ (upTo 9).map (fun i => r.p.getD i 0 % 65536)

/-- The 16 words of a record with its CHECK (R447). -/
def fbRecord (r : FbRec) : List Nat :=
  let w := fbWords r
  w ++ [(w.flatMap (fun x => [x % 256, x / 256])).foldl crc16Byte 0xFFFF]

/-- FBSTAT (R465). -/
def fbstat (s : State) : Nat :=
  bAt s.fbk.stNonce 3 + bAt s.fbk.stOvf 2 + bAt (fbPend s ≠ 0) 1 + bAt s.fbk.stErr 0

/-- The value of an FBK register that a read leaves unchanged (R465), for engine e. -/
def fbkView (e : Fin 6) (off : Nat) (s : State) : Nat :=
  let q := s.fbk
  if off = 0x00 then fbstat s
  else if off = 0x01 then q.fbie
  else if off = 0x02 then q.fbis
  else if off = 0x04 then q.newest.toNat
  else if off = 0x06 then (fbOldShown s).toNat
  else if off = 0x08 then fbPend s
  else if off = 0x0A then q.fedrop
  else if off = 0x0C then q.bootno % 65536
  else if off = 0x0E then q.ecur[e].seq.toNat
  else if off = 0x11 then q.ecur[e].ptr
  else if off = 0x14 then q.fertype
  else if 0x15 ≤ off ∧ off < 0x27 then spGet 0 q.ferbuf (off - 0x15)
  else 0

/-- Word w of block b in the latched snapshot; 0x0000 beyond its words (R287, R464). -/
def svWord (s : State) (b w : Nat) : Nat := (spGet [] s.svy.words b).getD w 0

/-- The value of an SVY register that a read leaves unchanged (R466). -/
def svyView (off : Nat) (s : State) : Nat :=
  let q := s.svy
  if off = 0x00 then bAt q.held 1 + bAt q.err 0
  else if off = 0x01 then b2n q.holdflt
  else if off = 0x02 then q.svfsel
  else if off = 0x05 then q.svie
  else if off = 0x06 then q.svis
  else if off = 0x07 then q.count.toNat
  else if off = 0x08 then q.src
  else if off = 0x0A then q.svblk
  else if off = 0x0B then q.svword
  else if off = 0x0C then svWord s q.svblk q.svword
  else 0

/-! ### BMK (15) -/

/-- A live BMK configuration value (R478: every reset value is 0). -/
def bmkLive (s : State) (k : Nat) : Nat := spGet 0 s.bmk.cfg.live k

/-- The unit of an item (R468). -/
def itemUnit (n : Nat) : Int :=
  if n = 0 then 5 else if n = 1 ∨ n = 2 then 1 else if n = 3 then 10 else if n < 7 then 4 else 2

/-- The hardware range of an item's step (R468). -/
def itemRange (n : Nat) : Int × Int :=
  if n = 0 then (0, 12) else if n = 1 then (-4, 8) else if n = 2 then (0, 30) else if n = 3 then (0, 15)
  else if n < 7 then (-31, 31) else (-63, 63)

/-- PLSTEP of item n as a number. -/
def itemStep (s : State) (n : Fin 11) : Int := toSigned 8 s.bmk.step[n]

/-- PLMIN and PLMAX of item n in a set. -/
def itemMin (g : Nat → Nat) (n : Nat) : Int := toSigned 8 (g (0x90 + n))
def itemMax (g : Nat → Nat) (n : Nat) : Int := toSigned 8 (g (0xA0 + n))

/-- The enabled items. -/
def itemsOn (s : State) : List (Fin 11) := (List.finRange 11).filter (fun n => (bmkLive s 0x80).testBit n.val)

/-- The smallest PLAGE of any enabled item. Where none is enabled it answers 0xFFFF, so that no item counts as young
(R473: PLANCHG is 0 then); no register shows that number (DESIGN CHOICE, log entry 24). -/
def minAge (s : State) : Nat := (itemsOn s).foldl (fun a n => min a s.bmk.age[n]) 0xFFFF

/-- Item n is at its life limit (R473). -/
def atLimit (s : State) (n : Fin 11) : Bool :=
  itemStep s n = itemMax (bmkLive s) n.val || (decide (itemMin (bmkLive s) n.val < 0) && itemStep s n = itemMin (bmkLive s) n.val)

/-- AGESTAT (R288, R473, R474). -/
def agestat (s : State) : Nat :=
  let b := s.bmk.bbound
  bAt (b.testBit 0) 15 + bAt (b.testBit 1) 14 + bAt (b.testBit 2) 13 + bAt (decide (minAge s < 1440)) 11
  + s.bmk.step[(0 : Fin 11)] % 16 * 16 + min 15 ((itemsOn s).filter (atLimit s)).length

/-- The value of a BMK register that a read leaves unchanged (R477). -/
def bmkView (off : Nat) (s : State) : Nat :=
  let q := s.bmk
  if off = 0x04 then bAt q.restore 2 + bAt q.monen 0
  else if off = 0x06 then q.bie
  else if off = 0x07 then q.bis
  else if off = 0x09 then q.resItem * 16 + q.resCode
  else if off = 0x0C then q.bbound
  else if 0x10 ≤ off ∧ off < 0x1B then q.step[(finOf 11 (off - 0x10))]
  else if 0x20 ≤ off ∧ off < 0x36 then q.age[(finOf 11 ((off - 0x20) / 2))]
  else if 0x40 ≤ off ∧ off < 0x56 then
    let n := (off - 0x40) / 2
    ofSigned 16 (itemUnit n * itemStep s (finOf 11 n))
  else if 0x60 ≤ off ∧ off < 0x68 then q.slack[(finOf 4 ((off - 0x60) / 2))]
  else if off = 0x68 then q.vcorem
  else if off = 0x6A then q.tjb
  else if off = 0x6C then q.stress
  else if off = 0x6E then q.runh
  else 0

/-! ### CPY (11) -/

/-- The reset value of a CPY staged register (R386). -/
def cpyRst (k : Nat) : Nat := if 0x20 ≤ k ∧ k < 0x60 ∧ k % 8 = 5 then 1 else 0

/-- A live CPY configuration value. -/
def cpyLive (s : State) (k : Nat) : Nat := spGet (cpyRst k) s.cpy.cfg.live k

/-- CPYBUSY (R385). -/
def cpyBusy (s : State) : Nat := match s.cpy.run with | some r => setBit s.cpy.queued r.j true | none => s.cpy.queued

/-- The value of a CPY register that a read leaves unchanged (R385). -/
def cpyView (off : Nat) (s : State) : Nat :=
  let q := s.cpy
  if off = 0x06 then cpyBusy s
  else if off = 0x07 then q.ie
  else if off = 0x08 then q.is_
  else if 0x10 ≤ off ∧ off < 0x18 then q.eng[(finOf 8 (off - 0x10))] * 16 + q.code[(finOf 8 (off - 0x10))]
  else if 0x60 ≤ off ∧ off < 0x70 then q.rem[(finOf 8 ((off - 0x60) / 2))]
  else 0

/-! ### GPIO and RTC (16) -/

/-- GPIN (R483, R500). -/
def gpin (s : State) : Nat := if s.gpio.viom then s.gpio.pin else 0

/-- IOBSTAT (R500). -/
def iobstat (s : State) : Nat :=
  let g := s.gpio
  bAt g.vdrvl 5 + bAt g.drvv 4 + bAt g.lsgv 3 + bAt g.viom 2 + bAt g.vios 1 + bAt g.viok 0

/-- RTC field n as a reader with a held copy sees it (R292). -/
def rtcField (s : State) (h : RtcHold) (n : Nat) : Nat := if h.hold then h.copy[(finOf 7 n)] else s.rtc.f[(finOf 7 n)]

/-- The value of a register of the GPIO, wake and flash region that a read leaves unchanged (R415, R500, R501). -/
def gpioView (off : Nat) (s : State) : Nat :=
  let g := s.gpio
  if off = 0x00 then g.out
  else if off = 0x01 then g.oe
  else if off = 0x02 then g.od
  else if off = 0x03 then gpin s
  else if off = 0x04 then g.ie
  else if off = 0x05 then g.is_
  else if off = 0x06 then iobstat s
  else if off = 0x08 then bAt s.rtc.lost 7 + bAt s.rtc.err 2 + bAt s.rtc.eng.hold 0
  else if 0x09 ≤ off ∧ off < 0x10 then rtcField s s.rtc.eng (off - 0x09)
  else if off = 0x80 then flstat s
  else if off = 0x81 then s.fls.adr
  else 0

/-! ### Host ports (07) -/

/-- ERRINFO as a word (R274). -/
def errWord (i : ErrInfo) : Nat := bAt i.valid 15 + bAt i.multi 14 + i.code * 256 + bAt i.wr 7 + i.off

/-- BSTAT of a staged block as a byte (R40). -/
def bstat (q : Stg) : Nat := bAt q.dirty 3 + bAt q.pnd.isSome 2 + bAt q.mism 1 + bAt q.err 0

/-- Any BSTAT.MISMATCH of a block in an on domain (R278). -/
def anyMism (s : State) : Bool :=
  (domOn s 5 && s.ksc.cfg.mism) || (domOn s 6 && s.lgt.cfg.mism) || (domOn s 1 && s.chg.cfg.mism)
  || (domOn s 2 && (s.seq.cfg.mism || s.tha.cfg.mism || s.bmk.cfg.mism)) || s.dct.cfg.mism || (domOn s 7 && s.cpy.cfg.mism)

/-- HSTAT.MODE (R278): 0b10 during a change, and until the reset sequence ends (R403). -/
def hstatMode (s : State) : Nat := if dctCommitted s || decide (s.rst.step < 6) then 2 else modeCode s.dct.mode

/-- HSTAT of port p (R278). -/
def hstat (s : State) (p : Port) : Nat :=
  let h := s.hp[p]
  bAt (s.hsh.svc.testBit p.val) 15 + bAt s.rst.sealed 14 + hstatMode s * 2 ^ 12 + bAt h.privSeen 11 + p.val * 2 ^ 10
  + bAt h.vio18 9 + bAt h.err.valid 8
  + bAt (domOn s 1 && cfltWord s ≠ 0) 7 + bAt (domOn s 2 && s.seq.sflt ≠ 0) 6
  + bAt (domOn s 2 && (s.tha.tflt ≠ 0 || s.tha.tract ≠ 0)) 5 + bAt (domOn s 6 && s.lgt.flt ≠ 0) 4
  + bAt (domOn s 5 && (s.ksc.snd.any (fun e => e.2.unset)
      || (bitsOf 24 (kscLive s 0x09)).any (fun k => (spGet {} s.ksc.snd k).isOver))) 3
  + bAt (s.eng.toList.any Ceng.failed) 2 + bAt (domOn s 2 && s.bmk.bbound ≠ 0) 1 + bAt (anyMism s) 0

/-- The level of INT_N's output register: low (true) while an enabled interrupt is pending (R270). -/
def intLow (s : State) (p : Port) : Bool := (s.hp[p].sel.hints &&& s.hp[p].sel.hinte) ≠ 0

/-- The level of ERR_N's output register: low (true) while an error is unacknowledged (R274). -/
def errLow (s : State) (p : Port) : Bool := s.hp[p].err.valid && s.hp[p].hctl.testBit 0

/-- HPPWR (R291). -/
def hppwr (s : State) : Nat := bAt s.hp[1].powered 1 + bAt s.hp[0].powered 0

/-- The value of a host-port shadow register that a read leaves unchanged (R291). -/
def hshView (off : Nat) (s : State) : Nat :=
  if off = 0x00 then s.hsh.svc
  else if off = 0x01 then s.hsh.scrsel
  else if off = 0x02 then s.hsh.scratch[(finOf 8 s.hsh.scrsel)]
  else if off = 0x04 then errWord s.hp[0].err
  else if off = 0x06 then errWord s.hp[1].err
  else if off = 0x08 then hppwr s
  else 0

end Sys2Proof.Machine
end

