-- ==== Sys2Proof/Machine/Record.lean ====
section
/-! DEFINITION. The Field Book and the Survey: records and hints, snapshots, write-through, clearing, the readers'
cursors and firmware records (14 R446 to R466), and the wake requests that the blocks raise (13 R439). -/

namespace Sys2Proof.Machine

/-! ### Hints (R271) -/

/-- Replaces port p. -/
def putPort (p : Port) (h : HPort) (s : State) : State := { s with hp := s.hp.set p h }

/-- Sets bit n of HINTS of port p (R271). -/
def setHintP (p : Port) (n : Nat) (s : State) : State :=
  let h := s.hp[p]
  putPort p { h with sel := { h.sel with hints := h.sel.hints ||| (1#16 <<< n) } } s

/-- Sets bit n of HINTS of both ports while D7 is on (R271). -/
def setHint (n : Nat) (s : State) : State := if domOn s 7 then setHintP 1 n (setHintP 0 n s) else s

/-! ### Wake requests (R439) -/

/-- An event of wake source `code` (2 to 0xC) in WATCH, kept for the decision when DWAKEEN enables it (R439). -/
def raiseWake (code : Nat) (s : State) : State :=
  if s.dct.mode = .watch && (dctLive s 0x34).testBit (code - 2) then
    { s with dct := { s.dct with wakes := setBit s.dct.wakes code true } }
  else s

/-! ### Records (R447 to R452) -/

/-- A ring slot is free: fewer than 256 records, or one that has been written through (R451). -/
def ringFree (s : State) : Bool := decide (s.fbk.ring.length < 256) || s.fbk.ring.any RingRec.written

/-- The ring with one more record; a full ring reuses the slot of its oldest written record. -/
def ringPut (ring : List RingRec) (r : RingRec) : List RingRec :=
  if ring.length < 256 then ring ++ [r] else ring.eraseP RingRec.written ++ [r]

/-- A record enters the ring with the next SEQ (R450). -/
def enterRec (src typ : Nat) (p : List Nat) (s : State) : State :=
  let q := s.fbk
  let r : FbRec := { src := src, typ := typ, seq := q.newest + 1, bootno := q.bootno, time := s.clk.time.toNat, p := p }
  setHint 12 { s with fbk := { q with
    ring := ringPut q.ring { r := r, written := false }, newest := q.newest + 1, fbis := q.fbis ||| 1 } }

/-- OVERFLOW enters when records have been discarded and a slot is free (R452). -/
def fbOverflow (s : State) : State :=
  if s.fbk.drops ≠ 0 && ringFree s then
    enterRec 0 2 [s.fbk.drops] { s with fbk := { s.fbk with drops := 0 } }
  else s

/-- A record is registered (R450, R452): after a due OVERFLOW it enters, or it is discarded. -/
def pushRec (src typ : Nat) (p : List Nat) (s : State) : State :=
  let s1 := fbOverflow s
  if ringFree s1 then enterRec src typ p s1
  else { s1 with fbk := { s1.fbk with
    drops := s1.fbk.drops + 1, fedrop := satAdd 65535 s1.fbk.fedrop 1, stOvf := true, fbis := s1.fbk.fbis ||| 2 } }

/-! ### Snapshots (R461 to R464) -/

/-- The value of a register at rest: that of its last writer (R326). -/
def cellLast (c : Cell) : Nat := match c.pend.getLast? with | some x => x.2.2 | none => c.base

/-- The 17 snapshot words of an engine (R464). -/
def engSnap (s : State) (e : Fin 6) : List Nat :=
  let q := s.eng[e]
  let g (i : Nat) : Nat := cellLast q.g[(finOf 16 i)]
  let irq := irqPend s e
  [q.pc, bAt q.intrap 1 + bAt q.ie 0, irq % 65536, irq / 65536, (match q.rep with | some r => r.left | none => 0),
   cellLast q.cnt, q.lnk, q.dsb * 256, q.iob] ++ (upTo 8).map (fun n => g (2 * n) + 256 * g (2 * n + 1))

/-- The 4 snapshot words of a port (R464). -/
def portSnap (s : State) (p : Port) : List Nat :=
  [hstat s p, s.hp[p].sel.hints.toNat, s.hp[p].sel.hinte.toNat, errWord s.hp[p].err]

/-- The 10 snapshot words of LCK (R464); a free lock shows 0. -/
def lckSnap (s : State) : List Nat :=
  let b := lkbusy s
  [b % 65536, b / 65536] ++ (upTo 8).map (fun w =>
    (upTo 4).foldl (fun a i => a + (lockOwner s (4 * w + i)).getD 0 * 16 ^ i) 0)

/-- The 16 snapshot words of BMK (R476). -/
def bmkSnap (s : State) : List Nat :=
  let q := s.bmk
  [q.slack[0], q.slack[1], q.slack[2], q.slack[3], q.vcorem, q.tjb, q.stress, q.runh]
  ++ (upTo 6).map (fun k => q.step[(finOf 11 (2 * k))] + (if k < 5 then 256 * q.step[(finOf 11 (2 * k + 1))] else 0))
  ++ [if itemsOn s = [] then Config.noPlanAge.toNat else minAge s, (q.resItem * 16 + q.resCode) * 256 + q.bbound]

/-- The words of every block, by block code; a block of an off domain latches none (R463, R464). `src`, `cnt` and `trig`
are the SRC, COUNT and triggering SEQ of this snapshot. -/
def snapWords (src cnt trig : Nat) (s : State) : Sparse (List Nat) :=
  let t := s.clk.time.toNat
  let on (d : Nat) (w : List Nat) : List Nat := if domOn s d then w else []
  let all : List (Nat × List Nat) := [
    (0x00, [s.fbk.newest.toNat, fbPend s, s.fbk.fedrop]),
    (0x01, [src * 256 + cnt, t % 65536, t / 65536 % 65536, t / 4294967296, s.dct.on.toNat, trig, s.svy.miss]),
    (0x02, [pwrstat s, dmstat s, ckstat s, s.dct.wakesrc, s.rst.cause]),
    (0x03, [prtstat s]), (0x04, on 5 (kscSnap s)), (0x05, on 6 (lgtSnap s)), (0x06, on 1 (chgSnap s)),
    (0x07, on 2 (seqSnap s)), (0x08, on 2 (thaSnap s)), (0x09, on 2 (bmkSnap s)),
    (0x0A, on 7 ((upTo 6).map (epcnt s) ++ [dbstat s 0, dbstat s 1])), (0x0B, on 7 (lckSnap s)),
    (0x0C, on 7 (cpyBusy s :: s.cpy.rem.toList)), (0x0D, on 7 (portSnap s 0)), (0x0E, on 7 (portSnap s 1)),
    (0x0F, (List.finRange 4).map (fun c => if domOn s (if c = 0 then 1 else 2) then smbSnap s c else 0))]
    ++ (List.finRange 6).map (fun e => (0x10 + e.val, on (engDom e.val) (engSnap s e)))
  all.filter (fun x => x.2 ≠ [])

/-- What a latch sets beside the snapshot and its record: SVIS, FBIS and the hints of both ports, before it (R461). -/
def snapWas (s : State) : Vector (BitVec 16) 4 :=
  #v[BitVec.ofNat 16 s.svy.svis, BitVec.ofNat 16 s.fbk.fbis, s.hp[0].sel.hints, s.hp[1].sel.hints]

/-- A trigger with SRC code `src` latches a snapshot, or is ignored while HELD = 1 (R461, R463). -/
def takeSnap (src trig : Nat) (s : State) : State :=
  let q := s.svy
  if q.held then { s with svy := { q with miss := satAdd 255 q.miss 1, svis := q.svis ||| 2, latched := false } }
  else
    let cnt := q.count + 1
    let s1 := { s with svy := { q with
      words := snapWords src cnt.toNat trig s, count := cnt, src := src, svis := q.svis ||| 1
      held := q.holdflt && src = 5, latched := true, fresh := true, was := snapWas s } }
    setHint 13 (pushRec 1 1 [src, cnt.toNat, trig] s1)

/-- The SNAP record of the snapshot with COUNT cnt: the newest of its kind in the ring (R449, R461). -/
def snapRec (cnt : Nat) (ring : List RingRec) : Option RingRec :=
  (ring.filter (fun x => x.r.src = 1 && x.r.typ = 1 && x.r.p.getD 1 0 = cnt)).getLast?

/-- v without those bits of m that w lacks. -/
def bitsBack (m v w : BitVec 16) : BitVec 16 := v &&& (w ||| ~~~m)

/-- The ring without its record x; those that entered after it take the numbers from its own on. -/
def ringLess (x : RingRec) (ring : List RingRec) : List RingRec :=
  match ring.dropWhile (fun y => y ≠ x) with
  | _ :: t => ring.takeWhile (fun y => y ≠ x) ++
      List.zipWith (fun (y z : RingRec) => { y with r := { y.r with seq := z.r.seq } }) t (x :: t)
  | [] => ring

/-- What the sources of a snapshot hold after the edge before its latch edge: the state without the SNAP record of the snapshot
held and without the flags that its latch has set (R463). -/
def snapOut (s : State) : State :=
  let w := s.svy.was
  let x := (snapRec s.svy.count.toNat s.fbk.ring).filter (fun x => !x.written)
  let last := x.isSome && s.fbk.ring.getLast? = x
  let hints (i : Fin 4) (h : HPort) : HPort :=
    { h with sel := { h.sel with hints := bitsBack (if last then 0x3000 else 0x2000) h.sel.hints w[i] } }
  { s with
    svy := { s.svy with svis := (bitsBack 1 (BitVec.ofNat 16 s.svy.svis) w[0]).toNat }
    fbk := { s.fbk with
      fbis := if last then (bitsBack 1 (BitVec.ofNat 16 s.fbk.fbis) w[1]).toNat else s.fbk.fbis
      ring := match x with | some y => ringLess y s.fbk.ring | none => s.fbk.ring
      newest := if x.isSome then s.fbk.newest - 1 else s.fbk.newest }
    hp := #v[hints 2 s.hp[0], hints 3 s.hp[1]] }

/-- Word a of the snapshot held with what a joining event has changed in its source, from w0 to w1: the changed bits, or what it
has counted in the words of FBK (k = 0). What the latch edge itself has changed stands in w0 and w1 alike and stays out (R463). -/
def mergeWord (k a w0 w1 : Nat) : Nat :=
  if w0 = w1 then a
  else if a = w0 then w1
  else if k = 0 then (a + 65536 - w0 + w1) % 65536
  else (a &&& (65535 ^^^ (w0 ^^^ w1))) ||| (w1 &&& (w0 ^^^ w1))

/-- The words of the snapshot held with the changes of a joining event, whose sources held w0 before it and w1 after it. A block
whose domain that event has taken down latches nothing (R463). -/
def mergeWords (a w0 w1 : Sparse (List Nat)) : Sparse (List Nat) :=
  a.filterMap (fun x =>
    let l0 := spGet [] w0 x.1
    let l1 := spGet [] w1 x.1
    if l1 = [] && l0 ≠ [] then none
    else some (x.1, (List.range x.2.length).map (fun i => mergeWord x.1 (x.2.getD i 0) (l0.getD i 0) (l1.getD i 0))))

/-- What the sources of a snapshot hold, without the snapshot held (R463). -/
def snapSources (s : State) : Sparse (List Nat) := snapWords 0 0 0 (snapOut s)

/-- A trigger that latches on the edge on which the snapshot held has latched (R293, R461): one snapshot, of what its sources
hold with the effects of both on the edge before and of neither on the latch edge (R463), whose SRC, in SVSRC, in its words and in
its SNAP record, takes the lowest code; the trigger word is that of the first selected record. HELD stays only where that code is
0x5 (R463). -/
def mergeSnap (src trig : Nat) (s : State) : State :=
  let q := s.svy
  let m := min src q.src
  let w := match q.join with | some w0 => mergeWords q.words w0 (snapSources s) | none => q.words
  let svy := spGet [] w 1
  let n := if svy.getD 5 0xFFFF = 0xFFFF then trig else svy.getD 5 0xFFFF
  let ring := match snapRec q.count.toNat s.fbk.ring with
    | some x => s.fbk.ring.map (fun y => if y = x then { y with r := { y.r with p := (y.r.p.set 0 m).set 2 n } } else y)
    | none => s.fbk.ring
  { s with svy := { q with src := m, words := spSet [] w 1 ((svy.set 0 (m * 256 + q.count.toNat)).set 5 n), held := q.held && m = 5 }
           fbk := { s.fbk with ring := ring } }

/-- The SNAP record with COUNT cnt behind the records that entered after it: they are of the edge before its latch edge. -/
def snapLast (cnt : Nat) (ring : List RingRec) : List RingRec :=
  match (snapRec cnt ring).filter (fun x => !x.written), ring.getLast? with
  | some x, some y => ringLess x ring ++ [{ x with r := { x.r with seq := y.r.seq } }]
  | _, _ => ring

/-- A fault trigger by the newest record, in a command that joins the snapshot held: the record enters ahead of its SNAP record. -/
def joinRec (s : State) : State :=
  let t := mergeSnap 5 (snapOut s).fbk.newest.toNat s
  { t with fbk := { t.fbk with ring := snapLast s.svy.count.toNat t.fbk.ring } }

/-- A trigger by itself, or (same) one that latches on the edge of the trigger before it: it joins the snapshot which that one
has latched, and is ignored like that one where HELD = 1 (R461, R463, log entry 2). -/
def edgeSnap (same : Bool) (src trig : Nat) (s : State) : State :=
  if same && s.svy.latched then mergeSnap src trig s else takeSnap src trig s

/-- A trigger other than a fault record. -/
def trigSnap (same : Bool) (src : Nat) (s : State) : State := edgeSnap same src 0xFFFF s

/-- The SVFSEL class of a record (R462). -/
def snapClass (src typ : Nat) : Option Nat :=
  if typ = 0x0F then some 7
  else if src = 6 && (typ = 0x01 || typ = 0x0B || typ = 0x07) then some 0
  else if src = 8 && typ = 1 then some 1
  else if src = 7 && (typ = 5 || typ = 6 || typ = 8) then some 2
  else if 0x10 ≤ src ∧ src ≤ 0x15 ∧ typ = 1 then some 3
  else if src = 5 && (typ = 2 || typ = 5 || typ = 6) then some 4
  else if src = 2 && typ = 3 then some 5
  else if src = 2 && typ = 9 then some 6
  else none

/-- A record of a block: it enters the Field Book, and latches a snapshot when SVFSEL selects its class (R450, R461). -/
def logRec (src typ : Nat) (p : List Nat) (s : State) : State :=
  let s1 := pushRec src typ p s
  match snapClass src typ with
  | some c =>
    if s.svy.svfsel.testBit c && s1.fbk.newest ≠ s.fbk.newest then
      if s.svy.join.isSome then joinRec s1 else takeSnap 5 s1.fbk.newest.toNat s1
    else s1
  | none => s1

/-- An event by itself, or (same) one whose selected records are registered on the edge of the trigger before it (R461, log entry
2). One within a command that joins the snapshot held joins it too. -/
def onEdge (same : Bool) (f : State → State) (s : State) : State :=
  if same && s.svy.latched && s.svy.join.isNone then
    let t := f { s with svy := { s.svy with join := some (snapSources s) } }
    { t with svy := { t.svy with join := none } }
  else f s

/-- An event that no row marks: the stop of an engine by a double trap or after a bad kick. With no CK since the last latch it falls
on the edge of that trigger (R461, DESIGN CHOICE, log entry 2). -/
def stopOnEdge (f : State → State) (s : State) : State := onEdge s.svy.fresh f s

/-- The payload words of a hardware record by block code and type; none where the type is unused (R446, R449). -/
def recWords (src typ : Nat) : Option Nat :=
  if typ = 0x0F then (if [2, 4, 5, 6, 7, 8, 9, 0xC].contains src then some 1 else none)
  else match src, typ with
  | 0x00, 1 => some 3 | 0x00, 2 => some 1 | 0x00, 4 => some 2
  | 0x01, 1 => some 3
  | 0x02, 1 => some 2 | 0x02, 2 => some 1 | 0x02, 3 => some 3 | 0x02, 4 => some 1 | 0x02, 5 => some 2 | 0x02, 6 => some 2
  | 0x02, 7 => some 2 | 0x02, 8 => some 1 | 0x02, 9 => some 1 | 0x02, 0xA => some 6 | 0x02, 0xB => some 2
  | 0x04, 1 => some 3 | 0x04, 2 => some 0
  | 0x05, k => if 1 ≤ k ∧ k ≤ 7 then some 1 else none
  | 0x06, k =>
    if k = 1 ∨ k = 2 ∨ k = 0xC ∨ k = 0x12 then some 2 else if (3 ≤ k ∧ k ≤ 6) ∨ k = 7 then some 3
    else if (8 ≤ k ∧ k ≤ 0xE) ∨ k = 0x10 ∨ k = 0x11 then some 1 else none
  | 0x07, 1 => some 3 | 0x07, 2 => some 2 | 0x07, 3 => some 4 | 0x07, 4 => some 2 | 0x07, 5 => some 3 | 0x07, 6 => some 2
  | 0x07, 7 => some 3 | 0x07, 8 => some 1
  | 0x08, 1 => some 3 | 0x08, 2 => some 1 | 0x08, 3 => some 2 | 0x08, 4 => some 2 | 0x08, 5 => some 1
  | 0x09, 1 => some 3 | 0x09, 2 => some 1
  | 0x0A, 1 => some 3
  | 0x0B, 1 => some 3
  | _, k => if 0x10 ≤ src ∧ src ≤ 0x15 then (if k = 1 then some 2 else if 0x80 ≤ k ∧ k < 0x100 then some 9 else none) else none

/-- FIELD_BOOK_RECORD: a block's record of a used code and type, with the words that its type names (R446, R449, R450). -/
def bookRec (src typ : Nat) (pay : List Nat) (s : State) : State :=
  match recWords src typ with
  | some n => logRec src typ (pay.take n) s
  | none => s

/-! ### Write-through and clearing (R451, R458 to R460) -/

/-- NVM slot k no longer holds what it held. -/
def nvmDrop (k : Nat) (q : Fbk) : Fbk :=
  { q with nvm := q.nvm.filter (fun x => x.1 ≠ k), shadow := q.shadow.filter (fun x => x.1 ≠ k) }

/-- The clear floor rises to the written CLEARED record: the removed records, all of them older, are gone (R460). -/
def floorRaise (q : Fbk) : Fbk :=
  match q.raise with
  | some f => { q with shadow := q.shadow.filter (fun x => !seqNewer f x.2.seq), raise := none }
  | none => q

/-- Record r is written to NVM slot k and verified. -/
def nvmPut (k : Nat) (r : FbRec) (q : Fbk) : Fbk :=
  let q1 := nvmDrop k q
  { q1 with nvm := q1.nvm ++ [(k, r)], nvmSlot := (k + 1) % 2040, raise := if r.src = 0 ∧ r.typ = 1 then some r.seq else q1.raise }

/-- WRITE_THROUGH of the oldest pending record; ok1 and ok2 say whether the verify and its retry hold (R451). A slot that is
written loses what it held, also where the verify fails. After a CLEARED record the clear floor rises: with it (floor), or
as the first thing that the next write does (R460). -/
def fbWriteThrough (ok1 ok2 floor : Bool) (s : State) : State :=
  let q0 := floorRaise s.fbk
  match q0.ring.find? (fun r => !r.written) with
  | none => { s with fbk := q0 }
  | some x =>
    let mark (r : RingRec) : RingRec := if r.r.seq = x.r.seq then { r with written := true } else r
    let q : Fbk := { q0 with ring := q0.ring.map mark }
    let k := q.nvmSlot
    let k' := (k + 1) % 2040
    if ok1 || ok2 then
      let q1 := if ok1 then nvmPut k x.r q else nvmPut k' x.r (nvmDrop k q)
      fbOverflow { s with fbk := if floor then floorRaise q1 else q1 }
    else
      logRec 0 4 [k', x.r.seq.toNat] { s with fbk := { nvmDrop k' (nvmDrop k q) with nvmSlot := (k + 2) % 2040 } }

/-- A valid clear by a master: every held record goes, and CLEARED enters (R458, R459); the NVM keeps the removed ones
hidden until the floor rises (R460). -/
def fbClear (by_ : Nat) (s : State) : State :=
  let h := fbHeld s
  let old := if h = [] then 0xFFFF else (fbOldest s).toNat
  pushRec 0 1 [by_, h.length, old] { s with fbk := { s.fbk with ring := [], nvm := [], shadow := s.fbk.shadow ++ s.fbk.nvm } }

/-- A clear by itself, or (same) the later of two on one edge: it finds no record registered before that edge, removes none,
and enters its own CLEARED record (R293, R459, log entry 2). -/
def clearBook (same : Bool) (by_ : Nat) (s : State) : State := if same then pushRec 0 1 [by_, 0, 0xFFFF] s else fbClear by_ s

/-! ### The readers' cursors (R284, R285, R454, R456) -/

/-- The record under a SEQ that is neither older than the oldest held nor newer than the newest: a number that no
valid slot holds reads as LOST (R454). -/
def fbAt (s : State) (q : BitVec 16) : FbRec :=
  (fbFind s q).getD { src := 0, typ := 3, seq := q, bootno := 0, time := 0, p := [] }

/-- The record under the cursor has been overwritten or removed. -/
def fbGone (s : State) (q : BitVec 16) : Bool := !seqNewer q s.fbk.newest && seqNewer (fbOldest s) q

/-- One FBWIN read at a cursor: the new cursor and the word (R284, R285). -/
def fbWin (s : State) (c : FbCursor) : FbCursor × Nat :=
  if c.ptr ≠ 0 then
    let v := c.latch.getD c.ptr 0
    (if 15 ≤ c.ptr then { c with ptr := 0, seq := c.seq + 1 } else { c with ptr := c.ptr + 1 }, v)
  else if c.gone then ({ c with seq := fbOldShown s, gone := false }, (fbOldShown s).toNat)
  else if seqNewer c.seq s.fbk.newest then (c, 0xFFFF)
  else if fbGone s c.seq then ({ c with gone := true }, 0xFFFE)
  else
    let w := fbRecord (fbAt s c.seq)
    ({ c with latch := w, ptr := 1 }, w.headD 0)

/-- One FEWIN read at a cursor: the new cursor and the byte (R456). -/
def feWin (s : State) (c : FbCursor) : FbCursor × Nat :=
  if c.ptr ≠ 0 then
    let v := c.latch.getD c.ptr 0
    if c.gone then
      (if 3 ≤ c.ptr then { c with seq := BitVec.ofNat 16 (c.latch.getD 2 0 + 256 * c.latch.getD 3 0), ptr := 0, gone := false }
       else { c with ptr := c.ptr + 1 }, v)
    else (if 31 ≤ c.ptr then { c with ptr := 0, seq := c.seq + 1 } else { c with ptr := c.ptr + 1 }, v)
  else if seqNewer c.seq s.fbk.newest then (c, 0xFF)
  else if fbGone s c.seq then
    let o := (fbOldShown s).toNat
    ({ c with latch := [0xFE, 0xFF, o % 256, o / 256], ptr := 1, gone := true }, 0xFE)
  else
    let w := (fbRecord (fbAt s c.seq)).flatMap (fun x => [x % 256, x / 256])
    ({ c with latch := w, ptr := 1, gone := false }, w.headD 0)

/-- A cursor moved to a SEQ by its reader (R284, R465). -/
def fbMove (v : Nat) : FbCursor := { seq := BitVec.ofNat 16 v }

/-! ### Register access (R457, R465, R466) -/

/-- FERGO: the firmware record of engine e (R457). -/
def fbFirmware (e : Fin 6) (s : State) : State :=
  let b (i : Nat) : Nat := spGet 0 s.fbk.ferbuf i
  logRec (0x10 + e.val) s.fbk.fertype ((upTo 9).map (fun i => b (2 * i) + 256 * b (2 * i + 1))) s

/-- A write of an FBK register by engine e (R457, R465); FECLR is fbEngClear. -/
def fbkWrite (e : Fin 6) (off v : Nat) (s : State) : State :=
  let q := s.fbk
  let err : State := { s with fbk := { q with stErr := true } }
  if off = 0x00 then { s with fbk := { q with
    stNonce := q.stNonce && !v.testBit 3, stOvf := q.stOvf && !v.testBit 2, stErr := q.stErr && !v.testBit 0 } }
  else if off = 0x01 then { s with fbk := { q with fbie := v % 4 } }
  else if off = 0x02 then { s with fbk := { q with fbis := w1c 2 q.fbis v } }
  else if off = 0x0E then { s with fbk := { q with ecur := q.ecur.set e (fbMove v) } }
  else if off = 0x14 then if v < 0x80 then err else { s with fbk := { q with fertype := v } }
  else if 0x15 ≤ off ∧ off < 0x27 then { s with fbk := { q with ferbuf := spSet 0 q.ferbuf (off - 0x15) v } }
  else if off = 0x27 then if v = 0xA7 then fbFirmware e s else err
  else s

/-- A FECLR write by an engine that holds the clear right (R458). -/
def fbEngClear (e : Fin 6) (v : Nat) (s : State) : State :=
  if v = s.fbk.nonce.toNat then fbClear e.val s else { s with fbk := { s.fbk with stNonce := true } }

/-- A read of SVMISS (R466): it clears the count. -/
def missRead (s : State) : State × Nat := ({ s with svy := { s.svy with miss := 0 } }, s.svy.miss)

/-- A write of an SVY register (R466); same says that a trigger it makes latches on the edge of the trigger before it (R461). -/
def svyWrite (off v : Nat) (s : State) (same : Bool := false) : State :=
  let q := s.svy
  if off = 0x00 then { s with svy := { q with err := q.err && !v.testBit 0 } }
  else if off = 0x01 then { s with svy := { q with holdflt := v.testBit 0 } }
  else if off = 0x02 then { s with svy := { q with svfsel := v } }
  else if off = 0x03 then if v.testBit 0 then { s with svy := { q with held := false } } else s
  else if off = 0x04 then if v.testBit 0 then trigSnap same 4 s else s
  else if off = 0x05 then { s with svy := { q with svie := v % 4 } }
  else if off = 0x06 then { s with svy := { q with svis := w1c 2 q.svis v } }
  else if off = 0x0A then { s with svy := { q with svblk := v } }
  else if off = 0x0B then { s with svy := { q with svword := v } }
  else s

end Sys2Proof.Machine
end

