-- ==== Sys2Proof/Machine/Lgt.lean ====
section
/-! DEFINITION. The lighting engine: agreement checks, dimming, frames, rails, probes, strings, banks, commit, LSYNC,
key light and the lighting chain (03 R100 to R142). -/

namespace Sys2Proof.Machine

/-! ### Agreement checks (R141) -/

/-- The code of the first failing LGT agreement check on a staged set, 0 when all pass (R141). A KLMAP value of 384 to 510, which
names no RGB key of R101, counts as one on a line past LINES (DESIGN CHOICE, log entry 48). -/
def lgtCheck (g : Nat → Nat) : Nat :=
  let lines := g 0x10
  let role := fld (g 0x42) 1 0
  let col := upTo 3
  let sinkEn (k : Nat) : Bool := (g 0x17).testBit k
  if lines = 0 ∨ 16 < lines then 0x01
  else if g 0x13 < 4 ∨ g 0x11 < g 0x13 + 16 then 0x02
  else if g 0x14 < 16 then 0x03
  else if (role = 1 ∨ role = 2) ∧ g 0x11 < 72 then 0x04
  else if col.any (fun c => decide (g (0x23 + c) < g (0x20 + c))) then 0x05
  else if (upTo 72).any (fun k => decide (g (0x23 + k / 24) < g (0x10000 + k))) then 0x06
  else if col.any (fun c => !(decide (g (0x2E + c) ≤ g (0x34 + c)) && decide (g (0x34 + c) ≤ g (0x31 + c)))) then 0x07
  else if (upTo 72).any (fun k => sinkEn k && !(g 0x2C).testBit (k / 24)) then 0x08
  else if (upTo 480).any (fun p =>
      let i := g (0x20000 + p)
      i ≠ 0x1FF && (decide (lines ≤ i / 24) || !(sinkEn (i % 24) && sinkEn (i % 24 + 24) && sinkEn (i % 24 + 48)))) then 0x09
  else if (upTo 8).any (fun n =>
      let b := 0x50 + 8 * n
      (g b).testBit 0 && (decide (g (b + 1) < 120) || decide (800 < g (b + 1)) || decide (700 < g (b + 3))
        || decide (g (b + 3) < g (b + 5)) || decide (160 < g (b + 7)))) then 0x0A
  else 0

/-! ### Flags -/

/-- Sets bits of LFLT, and LIS.FAULT with them (R139). -/
def lfltSet (m : Nat) (s : State) : State :=
  setHint 11 { s with lgt := { s.lgt with flt := s.lgt.flt ||| m, lis := s.lgt.lis ||| 0x20 } }

/-- Sets bits of LIS (R139). -/
def lisSet (m : Nat) (s : State) : State := { s with lgt := { s.lgt with lis := s.lgt.lis ||| m } }

/-! ### Dimming (R109) -/

/-- round(a / b) of naturals, a half away from zero (R517). -/
def rdiv (a b : Nat) : Nat := (2 * a + b) / (2 * b)

/-- ceil(a / b) of naturals. -/
def cdiv (a b : Nat) : Nat := (a + b - 1) / b

/-- The pair (C, W) from the level V', the full scale Cfs, the crossover XO and WMIN, with the probe deduction
(R109). -/
def dim (v cfs xo wmin deduct : Nat) : Nat × Nat :=
  let q := rdiv (v * cfs * 4095) 65535 - deduct
  let x := min xo cfs
  if q = 0 then (0, 0)
  else if x * 4095 ≤ q then (cdiv q 4095, rdiv q (cdiv q 4095))
  else if x * wmin ≤ q then (x, rdiv q x)
  else (max 1 (rdiv q wmin), wmin)

/-- The temperature gain G_c (R108). -/
def lgtGain (ktc tref : Nat) (t : Int) : Rat :=
  let g : Rat := 1 + (toSigned 8 ktc : Rat) * ((t : Rat) / 16 - (toSigned 8 tref : Rat)) / 4096
  if g < 1 / 2 then 1 / 2 else if 3 / 2 < g then 3 / 2 else g

/-- Cfs(s) of one sink (R108). -/
def lgtCfs (iset cmax ltrim : Nat) (g : Rat) : Nat :=
  min cmax (roundR ((iset : Rat) * g * (1 + (toSigned 8 ltrim : Rat) / 1024))).toNat

/-- The RGB keys that show a key light for entry e: key i on line e/72 in column (e mod 72) mod 24 (R101). -/
def entryKey (e : Nat) : Nat := 24 * (e / 72) + (e % 72) % 24

/-- The level after instant key light (R129). -/
def keyLightLevel (s : State) (e : Nat) (v : Nat) : Nat :=
  let mode := lgtLive s 0x3A
  let i := entryKey e
  let a : Rat := if s.lgb.keys.lit.getLsbD i then 1 else spGet 0 s.lgb.keys.fade i
  let kl := lgtLive s (0x3C + 2 * (e % 72 / 24))
  if mode = 1 then (roundR (a * kl + (1 - a) * v)).toNat
  else if mode = 2 then max v (roundR (a * kl)).toNat
  else v

/-- Whether the frame in progress is a probe frame that probes line j (R114). -/
def probesLine (s : State) (j : Nat) : Bool := (lgtLive s 0x15).testBit 1 && s.lgt.pq = 0 && s.lgt.pp = j

/-- The level V' of an entry (R109): 0 when BLANKED or with a latched SHORT. -/
def entryLevel (s : State) (e : Nat) : Nat :=
  if s.lgt.blanked || spGet 0 s.lgb.fault e = 2 then 0 else keyLightLevel s e (spGet 0 s.lgb.front e)

/-- The CK of a soft start: 256 switching periods (R111). -/
def softCk (s : State) : Nat := 256 * (if (lgtLive s 0x2C).testBit 3 then 120 else 240)

/-- The rail of colour c is within 5% of its setpoint at the edge PRECH of a slot that starts now (R111). -/
def railUp (s : State) (c : Fin 3) : Bool :=
  match s.lgt.rails[c].st with
  | .on => true
  | .soft left => decide (20 * (left - lgtLive s 0x11) ≤ softCk s)
  | .off => false

/-- A colour whose sinks are held off: its rail is not yet up, or a rail fault is latched (R111, R113). -/
def colourOff (s : State) (c : Fin 3) : Bool := !railUp s c || s.lgt.flt.testBit 4

/-- (C, W) of sink k on line j (R109). -/
def sinkPulse (s : State) (j k : Nat) : Nat × Nat :=
  let c : Fin 3 := finOf 3 (k / 24)
  let e := 72 * j + k
  if !(lgtLive s 0x17).testBit k || colourOff s c then (0, 0)
  else
    let v := entryLevel s e
    let ded := if probesLine s j && (v ≠ 0 || (lgtLive s 0x15).testBit 2) then 1920 / lgtStep s else 0
    dim v (spGet 0 s.lgt.cfs k) (lgtLive s (0x20 + k / 24)) (lgtLive s 0x26) ded

/-! ### Line slots (R103, R110, R115, R116) -/

/-- The compliance samples of a slot (R110): the table entry of each sampled sink, LOW in bit 1 and HIGH in bit 0 as the
table names them from the high bit (R142, log entry 33), and its rail's record. -/
def complianceNote (j : Nat) (pulses : Sparse (Nat × Nat)) (low high : BitVec 72) (s : State) : State :=
  (upTo 72).foldl (fun s k =>
    let pw := spGet (0, 0) pulses k
    if pw.2 * lgtStep s < 96 || spGet 0 s.lgb.fault (72 * j + k) = 1 then s
    else
      let l := low.getLsbD k
      let h := high.getLsbD k
      let c : Fin 3 := finOf 3 (k / 24)
      { s with
        lgb := { s.lgb with comp := spSet 0 s.lgb.comp k (bAt l 1 + bAt h 0) }
        lgt := { s.lgt with rails := modAt s.lgt.rails c (fun r =>
          { r with anySample := true, anyLow := r.anyLow || l, allHigh := r.allHigh && h }) } }) s

/-- The probe verdicts of line j (R115, R116): consecutive equal OPEN (1) or SHORT (2) verdicts per entry. -/
def verdictNote (j : Nat) (opens shorts : BitVec 72) (s : State) : State :=
  if !probesLine s j || s.lgt.blanked then s else
  (upTo 72).foldl (fun s k =>
    let e := 72 * j + k
    let tested := (lgtLive s 0x17).testBit k && !colourOff s (finOf 3 (k / 24)) && spGet 0 s.lgb.fault e = 0
      && (entryLevel s e ≠ 0 || (lgtLive s 0x15).testBit 2)
    if !tested then s
    else
      let v := if opens.getLsbD k then 1 else if shorts.getLsbD k then 2 else 0
      let o := spGet (0, 0) s.lgb.verdict e
      let n := if v = 0 then (0, 0) else if o.1 = v then (v, o.2 + 1) else (v, 1)
      { s with lgb := { s.lgb with verdict := spSet (0, 0) s.lgb.verdict e n } }) s

/-- Rails in soft start advance by the CK that pass (R111). -/
def railAdvance (ck : Nat) (s : State) : State :=
  { s with lgt := { s.lgt with rails := s.lgt.rails.map (fun r =>
    match r.st with
    | .soft n => { r with st := if n ≤ ck then .on else .soft (n - ck) }
    | _ => r) } }

/-- In the preparation for a power-down a blanked LGT has every stage and rail off (R136). -/
def lgtDark (s : State) : State :=
  if s.dct.lgtPrep && s.lgt.blanked then
    { s with lgt := { s.lgt with rails := s.lgt.rails.map (fun (r : Rail) => { r with st := .off })
                                 esPulse := s.lgt.esPulse.map (fun _ => (0, 0)) } }
  else s

/-- The sinks that carry the probe current in line j's slot (R115): every enabled one, but for a dark entry while PRBDARK is
0, a colour that is held off, and a blanked LGT (R123). -/
def probeSinks (s : State) (j : Nat) : BitVec 72 :=
  if !probesLine s j || s.lgt.blanked then 0 else
  (upTo 72).foldl (fun m k =>
    if (lgtLive s 0x17).testBit k && !colourOff s (finOf 3 (k / 24)) && (entryLevel s (72 * j + k) ≠ 0 || (lgtLive s 0x15).testBit 2)
    then m ||| (1#72 <<< k) else m) 0

/-- LINE_SLOT_START: the slot of the next line (R103, R109, R110, R115, R116), gap CK after the last one ended. A BLANK
takes effect (R123). -/
def lgtSlotStart (low high opens shorts : BitVec 72) (gap : Nat) (s : State) : State :=
  if !(domOn s 6 && s.lgt.running && !s.lgt.atB) then s else
  let dark : State := { s with lgt := { s.lgt with blanked := true, blankReq := false, esPulse := s.lgt.esPulse.map (fun _ => (0, 0)) } }
  let s0 := lgtDark (if s.lgt.blankReq then dark else s)
  let j := s0.lgt.next
  let s1 := railAdvance gap s0
  let pulses : Sparse (Nat × Nat) := (upTo 72).foldl (fun m k => spSet (0, 0) m k (sinkPulse s1 j k)) []
  let s2 := verdictNote j opens shorts (complianceNote j pulses low high s1)
  railAdvance (lgtSlot s2) { s2 with lgt := { s2.lgt with line := j, pulses := pulses, probe := probeSinks s1 j, next := j + 1
                                                          atB := decide (lgtLive s2 0x10 ≤ j + 1) } }

/-- LED_FAULT: PRBCONF consecutive equal verdicts latch the entry (R116). -/
def lgtLedFault (e : Nat) (s : State) : State :=
  let v := spGet (0, 0) s.lgb.verdict e
  if domOn s 6 && e < 1152 && v.1 ≠ 0 && lgtLive s 0x16 ≤ v.2 && spGet 0 s.lgb.fault e = 0 then
    logRec 0x05 (if v.1 = 1 then 0x03 else 0x04) [e]
      (lfltSet 0x04 { s with lgb := { s.lgb with fault := spSet 0 s.lgb.fault e v.1
                                                 verdict := spSet (0, 0) s.lgb.verdict e (0, 0) } })
  else s

/-! ### Frame boundary (R104, R108, R112, R114, R118, R123, R129) -/

/-- The rail update of one colour from the frame just ended (R112). -/
def railUpdate (upstep downfr rmin rmax : Nat) (r : Rail) : Rail :=
  let clear (r : Rail) : Rail := { r with anySample := false, anyLow := false, allHigh := true }
  if r.st = .off then clear { r with good := 0, lows := 0 }
  else
    let lows := if r.anyLow && r.rset = rmax then r.lows + 1 else 0
    if r.anyLow then clear { r with rset := min rmax (r.rset + upstep), good := 0, lows := lows }
    else if !r.anySample then clear { r with good := 0, lows := lows }
    else if !r.allHigh then clear { r with good := 0, lows := lows }
    else if downfr ≤ r.good + 1 then clear { r with rset := max rmin (r.rset - 1), good := 0, lows := lows }
    else clear { r with good := r.good + 1, lows := lows }

/-- A rail that soft-starts: RSTART, 256 switching periods (R111). -/
def railStart (s : State) (c : Fin 3) (r : Rail) : Rail :=
  { r with rset := lgtLive s (0x34 + c.val), st := .soft (softCk s)
           good := 0, lows := 0, anySample := false, anyLow := false, allHigh := true }

/-- The fade of the keys that are not lit (R129). -/
def fadeStep (n : Nat) (m : Sparse Rat) : Sparse Rat :=
  m.foldr (fun e r =>
    let a : Rat := if n = 0 then 0 else e.2 - 1 / (n : Rat)
    spSet 0 r e.1 (if a ≤ 0 then 0 else a)) []

/-- (C_n, W) of accent stage n at a frame boundary (R117, R118). -/
def stagePulse (s : State) (n : Nat) : Nat × Nat :=
  let b := 0x50 + 8 * n
  if (lgtLive s b).testBit 0 && s.lgt.run && !s.lgt.blanked && !(s.lgt.esopen ||| s.lgt.esshort).testBit n then
    dim (spGet 0 s.lgb.front (1152 + n)) (lgtLive s (b + 3)) (lgtLive s (b + 5)) (lgtLive s 0x26) 0
  else (0, 0)

/-- The work of a frame boundary, under the configuration and front half then in force. An UNBLANK that is pending when a
power-down preparation has blanked LGT, or that comes after it, clears BLANKED here as at any boundary: R136 does not say that
the preparation holds it off (DESIGN CHOICE, log entry 48). A master whose bank M has no supply drives no pulse (R483). -/
def lgtFrame (s : State) : State :=
  let q := s.lgt
  let blanked := if q.blankReq then true else if q.unblankReq then false else q.blanked
  let t : Int := if fld (lgtLive s 0x2B) 1 0 = 0 then 16 * toSigned 8 (lgtLive s 0x2A) else toSigned 16 s.lgb.ltin
  let up := fld (lgtLive s 0x2C) 6 4
  let rails : Vector Rail 3 := Vector.ofFn (fun c =>
    let r := railUpdate up (lgtLive s 0x2D) (lgtLive s (0x2E + c.val)) (lgtLive s (0x31 + c.val)) q.rails[c]
    let r := if s.lgb.tstale then r else { r with gain := lgtGain (lgtLive s (0x27 + c.val)) (lgtLive s 0x2A) t }
    if (lgtLive s 0x2C).testBit c.val && r.st = .off && !q.flt.testBit 4 && !s.dct.lgtPrep then railStart s c r else r)
  let cfs : Sparse Nat := (upTo 72).foldl (fun m k =>
    let c : Fin 3 := finOf 3 (k / 24)
    spSet 0 m k (if (lgtLive s 0x17).testBit k then
      lgtCfs (lgtLive s (0x10000 + k)) (lgtLive s (0x23 + k / 24)) s.lgb.ltrim[c] rails[c].gain else 0)) []
  let d := fld (lgtLive s 0x15) 7 4
  let lines := lgtLive s 0x10
  let pq := if q.first then 0 else if d ≤ q.pq then 0 else q.pq + 1
  let pp := if q.first then 0 else if q.pq = 0 then q.pp + 1 else q.pp
  let s1 := { s with
    lgt := { q with blanked := blanked, blankReq := false, unblankReq := false, rails := rails, cfs := cfs
                    pq := pq, pp := if lines ≤ pp then 0 else pp, first := false, begins := false, lframe := q.lframe + 1
                    lis := q.lis ||| 0x01, next := 0, atB := false, line := 0, esOff := 0 }
    lgb := { s.lgb with keys := { s.lgb.keys with fade := fadeStep (lgtLive s 0x3B) s.lgb.keys.fade }
                        lsync := if lgtRole s ≠ 1 || !s.gpio.viom then 0 else match s.lgb.swap with | some w => (if w.pulse then 32 else 4) | none => 4
                        swap := s.lgb.swap.map (fun (w : SwapReq) => { w with taken := lgtRole s ≠ 0 }) } }
  { s1 with lgt := { s1.lgt with esPulse := Vector.ofFn (fun n => stagePulse s1 n.val) } }

/-- LGT_FRAME_BOUNDARY: a new frame of a standalone device, a master, or a follower on its own timing (R104, R127), and of
a device that a COMMIT makes a follower at this boundary (R124). -/
def lgtFrameBoundary (s : State) : State :=
  if domOn s 6 && s.lgt.running && s.lgt.atB && s.lgt.run && (lgtRole s ≠ 2 || s.lgb.synclost || s.lgt.begins) then lgtFrame s else s

/-! ### Rails and stages (R112, R113, R119) -/

/-- HEADROOM: 64 consecutive frames with a LOW sample at RMAX (R112). The count then restarts at 0, so that a further record
comes after 64 more frames: the spec states none (DESIGN CHOICE, log entry 48). -/
def lgtHeadroom (c : Fin 3) (s : State) : State :=
  if domOn s 6 && decide (64 ≤ s.lgt.rails[c].lows) then
    logRec 0x05 0x01 [c.val] (lfltSet 0x20 { s with lgt := { s.lgt with
      rails := modAt s.lgt.rails c (fun r => { r with lows := 0 }) } })
  else s

/-- The soft start of rail c may have ended (R111, R113): slots count its periods, and while none starts the event itself says
that the 256 periods have passed. -/
def railPast (s : State) (c : Fin 3) : Bool :=
  match s.lgt.rails[c].st with
  | .off => false
  | .soft _ => !s.lgt.running || s.lgt.atB
  | .on => true

/-- RAIL_FAULT of colour c after soft start (R113). -/
def lgtRailFault (c : Fin 3) (s : State) : State :=
  if domOn s 6 && railPast s c then
    logRec 0x05 0x02 [c.val] (lfltSet 0x10 { s with lgt := { s.lgt with
      rails := modAt s.lgt.rails c (fun r => { r with st := .off }), pulses := [], probe := 0 } })
  else s

/-- A stage fault: OPEN or SHORT of stage n (R119), also in the last frame after RUN = 0 (R105). -/
def lgtStageFault (open_ : Bool) (n : Fin 8) (s : State) : State :=
  if domOn s 6 && (lgtLive s (0x50 + 8 * n.val)).testBit 0 && (s.lgt.run || s.lgt.running) && !s.lgt.blanked
      && !(s.lgt.esopen ||| s.lgt.esshort ||| s.lgt.esOff).testBit n.val then
    let q := s.lgt
    logRec 0x05 (if open_ then 0x05 else 0x06) [n.val] (lfltSet 0x08 { s with lgt := { q with
      esopen := if open_ then q.esopen ||| 2 ^ n.val else q.esopen
      esshort := if open_ then q.esshort else q.esshort ||| 2 ^ n.val
      esOff := q.esOff ||| 2 ^ n.val
      esPulse := q.esPulse.set n (0, 0) } })
  else s

/-! ### Banks, commit and swap (R120 to R124) -/

/-- A write of a back-half entry by any writer (R120, R121): discarded with WDROP while PEND is 1. -/
def lgtBackWrite (e v : Nat) (s : State) : State :=
  if s.lgb.swap.isSome then lfltSet 0x40 s
  else { s with lgb := { s.lgb with
    back := spSet 0 s.lgb.back e (v % 65536)
    written := if s.lgb.copying && decide (s.lgb.copied ≤ e) then e :: s.lgb.written else s.lgb.written } }

/-- A commit request, and whether a master announces it (R121, R123). -/
def lgtCommitReq (pulse : Bool) (s : State) : State :=
  match s.lgb.swap with
  | some _ => s
  | none => { s with lgb := { s.lgb with swap := some { atOnce := !s.lgt.run, taken := false, pulse := pulse } } }

/-- BLANK and UNBLANK (R123): on edge 2 while RUN = 0, else at the next slot start or frame boundary. With RUN = 0 while the
last frame still runs, slots start and the command waits as it does with RUN = 1 (DESIGN CHOICE, log entry 48). -/
def lgtBlank (b : Bool) (s : State) : State :=
  if !s.lgt.run && !s.lgt.running then
    { s with lgt := { s.lgt with blanked := b, blankReq := false, unblankReq := false } }
  else if b then { s with lgt := { s.lgt with blankReq := true } }
  else { s with lgt := { s.lgt with unblankReq := true } }

/-- A command code of LITECMD or LCMD (R123): 0 to 4; the rest are reserved. -/
def lgtCmd (c : Nat) (s : State) : State :=
  if c = 1 || c = 2 then lgtCommitReq (c = 1) s
  else if c = 3 then lgtBlank true s
  else if c = 4 then lgtBlank false s
  else s

/-- Whether a pending swap falls due now (R121, R122, R126). One requested with RUN = 1 that still waits when a stop takes effect
may take place at the stop's boundary, and else waits until frames run again: the spec gives it no boundary after the stop (DESIGN
CHOICE, log entry 48). -/
def swapDue (s : State) : Bool :=
  match s.lgb.swap with
  | none => false
  | some w =>
    !s.lgb.copying &&
    (if w.atOnce then true
     else if !s.lgt.running then false
     else if lgtRole s = 0 then s.lgt.atB
     else w.taken && s.lgt.next = 0 && !s.lgt.atB)

/-- SWAP: front and back exchange on one edge (R122). -/
def lgtSwap (s : State) : State :=
  if domOn s 6 && swapDue s then
    setHint 11 (lisSet (if s.lgt.copyback then 0x02 else 0x06) { s with lgb := { s.lgb with
      front := s.lgb.back, back := s.lgb.front, swap := none
      backrdy := !s.lgt.copyback, copying := s.lgt.copyback, copied := 0, written := [] } })
  else s

/-- The back half once a copy-back has gone on to copy the entries below n (R122): an entry written before its copy edge
keeps its value, those copied before stay as writers have left them, and those from n on are as they were. -/
def copyBack (n : Nat) (b : LgtBank) : Sparse Nat :=
  let base := spRange b.back 0 b.copied ++ spRange b.front b.copied n ++ spRange b.back n 1160
  (b.written.filter (fun e => decide (e < n))).foldl (fun m e => spSet 0 m e (spGet 0 b.back e)) base

/-- COPYBACK_COMPLETE: edge S + n of a copy-back, by which the entries below n are copied (R122); n = 1160 is its end. -/
def lgtCopyback (n : Nat) (s : State) : State :=
  let b := s.lgb
  if !(domOn s 6 && b.copying) then s
  else if n < 1160 then
    if n ≤ b.copied then s
    else { s with lgb := { b with back := copyBack n b, copied := n, written := b.written.filter (fun e => decide (n ≤ e)) } }
  else lisSet 0x04 { s with lgb := { b with back := copyBack 1160 b, copying := false, copied := 0, backrdy := true, written := [] } }

/-! ### Configuration (R45, R107, R111) -/

/-- COMMIT_APPLY of LGT at a frame boundary (R45, R107, R111). A follower that waits for its first LSYNC pulse and leaves its role
starts a frame at the next boundary (R105, R124). A rail that the set enables while RAILFLT of another is latched stays off with
the others, until the W1C and the boundary after it (DESIGN CHOICE, log entry 48). -/
def lgtApply (s : State) : State :=
  match s.lgt.cfg.pnd with
  | none => s
  | some set =>
    if domOn s 6 && (s.lgt.atB || (s.lgt.run && !s.lgt.running)) then
      let begins := s.lgt.atB && s.lgt.running && (lgtRole s ≠ 2 || s.lgb.synclost)
      let s1 := { s with lgt := { s.lgt with cfg := { s.lgt.cfg with live := set, pnd := none }, begins := begins } }
      let go := s.lgt.run && !s.lgt.running && lgtRole s1 ≠ 2
      let en := lgtLive s1 0x2C
      let rails : Vector Rail 3 := Vector.ofFn (fun c =>
        let r := s1.lgt.rails[c]
        if !en.testBit c.val then { r with st := .off }
        else if r.st = .off && !s1.lgt.flt.testBit 4 && !s1.dct.lgtPrep then railStart s1 c r else r)
      let off := lgtLive s1 0x2B / 4 = 0 || fld (lgtLive s1 0x2B) 1 0 = 0
      { s1 with lgt := { s1.lgt with rails := rails, running := s1.lgt.running || go, atB := s1.lgt.atB || go }
                lgb := { s1.lgb with tstale := if off then false else s1.lgb.tstale } }
    else s

/-- A write of LTIN from a source that TSRC names clears TSTALE (R107). -/
def ltinSet (v : Nat) (s : State) : State := { s with lgb := { s.lgb with ltin := v % 65536, tstale := false } }

/-- TSTALE: LTIN has not been written for STALE × 100 ms (R107). -/
def lgtTstale (s : State) : State :=
  if domOn s 6 && s.dct.mode = .run && fld (lgtLive s 0x2B) 1 0 ≠ 0 && lgtLive s 0x2B / 4 ≠ 0 then
    lisSet 0x08 { s with lgb := { s.lgb with tstale := true } }
  else s

/-! ### Run and stop (R105) -/

/-- A write of LCTL (R105, R123, R139). -/
def lgtLctl (v : Nat) (s : State) : State :=
  let run := v.testBit 0
  let s1 := { s with lgt := { s.lgt with copyback := v.testBit 2 } }
  let s2 := lgtBlank (v.testBit 1) s1
  let start := run && !s2.lgt.running && lgtRole s2 ≠ 2
  { s2 with lgt := { s2.lgt with run := run, running := s2.lgt.running || start
                                 atB := if start then true else s2.lgt.atB } }

/-- LIGHTING_STOP: at the end of the frame with RUN still 0 (R105). A BLANK or UNBLANK that still waits takes effect here, for
no slot start or boundary follows (DESIGN CHOICE, log entry 48); in a preparation the stages and rails go off (R136). -/
def lgtStop (s : State) : State :=
  let q := s.lgt
  if domOn s 6 && q.running && q.atB && !q.run then
    lgtDark { s with lgt := { q with running := false, atB := false, begins := false, pulses := [], probe := 0, next := 0, line := 0
                                     esPulse := q.esPulse.map (fun _ => (0, 0))
                                     blanked := q.blankReq || (q.blanked && !q.unblankReq)
                                     blankReq := false, unblankReq := false } }
  else s

/-! ### LSYNC (R125 to R127) -/

/-- LSYNC_PULSE at a follower: `low` the synchronised low time in CK, `off` the distance of its falling edge from the
frame boundary that the follower's own timing expects. An edge that ends the loss before that boundary starts the frame
(R127), and the edge that starts the first frame lies on that frame's boundary. With RUN = 0 a commit pulse is a request like
another, due on edge 2 (R121). -/
def lsyncPulse (low : Nat) (off : Int) (s : State) : State :=
  if !(domOn s 6 && lgtRole s = 2) then s else
  let commit := decide (16 ≤ low)
  let near (b : Bool) (s : State) : State := if b then { s with lgb := { s.lgb with synclost := false } } else s
  if !s.lgt.run then
    let s1 := near (s.lgt.running && |off| ≤ 2) s
    if commit then lgtCommitReq false s1 else s1
  else if !s.lgt.running then
    let s1 := near true { s with lgt := { s.lgt with running := true } }
    lgtFrame (if commit then lgtCommitReq false s1 else s1)
  else if s.lgb.synclost then
    let s1 := near (|off| ≤ 2) s
    let s2 := if commit then lgtCommitReq false s1 else s1
    if |off| ≤ 2 && s2.lgt.atB then lgtFrame s2 else s2
  else if (lgtLive s 0x14 : Int) - 16 < |off| || !s.lgt.atB then s
  else lgtFrame (if commit then lgtCommitReq false s else s)

/-- LSYNC_LOST at a follower (R127). -/
def lsyncLost (s : State) : State :=
  if domOn s 6 && lgtRole s = 2 && s.lgt.running && !s.lgb.synclost then
    logRec 0x05 0x07 [s.lgt.lframe.toNat] (lisSet 0x10 { s with lgb := { s.lgb with synclost := true } })
  else s

/-- SYNCFLT: LSYNC low for more than 64 CK (R127). -/
def lgtSyncflt (s : State) : State := if domOn s 6 then lfltSet 0x01 s else s

/-! ### Key light (R128, R131) -/

/-- A key stops being lit: `a` starts to fall from 1, or is 0 at once with KLFADE = 0 (R129). -/
def fadeStart (s : State) (i : Nat) (m : Sparse Rat) : Sparse Rat :=
  spSet 0 m i (if lgtLive s 0x3B = 0 then 0 else 1)

/-- A key record of type `typ` at position `pos` acts on the mapped RGB key (R128); `press` says whether a CANCEL
cancels a provisional press. Nothing happens while D6 is off. -/
def lgtKeyRecord (typ pos : Nat) (press : Bool) (s : State) : State :=
  let i := lgtLive s (0x20000 + pos)
  if !domOn s 6 || 384 ≤ i then s else
  let k := s.lgb.keys
  let b : BitVec 384 := 1#384 <<< i
  let lit := k.lit ||| b
  let unlit := k.lit &&& ~~~b
  let prov := k.provLit ||| b
  let noprov := k.provLit &&& ~~~b
  let set (k : KeyLight) : State := { s with lgb := { s.lgb with keys := k } }
  if typ = 1 then set { k with lit := lit, provLit := prov, fade := spSet 0 k.fade i 0 }
  else if typ = 4 then set { k with lit := lit, provLit := noprov, fade := spSet 0 k.fade i 0 }
  else if typ = 2 then set { k with lit := unlit, provLit := noprov, fade := if k.lit.getLsbD i then fadeStart s i k.fade else k.fade }
  else if typ = 5 then set { k with lit := unlit, provLit := noprov, fade := if k.lit.getLsbD i then fadeStart s i k.fade else k.fade }
  else if typ = 3 then
    if press then set { k with lit := unlit, provLit := noprov, fade := spSet 0 k.fade i 0 }
    else set { k with lit := lit, provLit := noprov, fade := spSet 0 k.fade i 0 }
  else s

/-- D5's clamp edge ends every key light that KSC's records set (R131). -/
def keyLightEnd (s : State) : State :=
  if !domOn s 6 then s else
  let k := s.lgb.keys
  let fade := (upTo 384).foldl (fun m i =>
    if k.provLit.getLsbD i then spSet 0 m i 0 else if k.lit.getLsbD i then fadeStart s i m else m) k.fade
  { s with lgb := { s.lgb with keys := { lit := 0, provLit := 0, fade := fade } } }

/-! ### Register access (R139, R142) -/

/-- A write of the LIXDAT pair (R142); beyond the table it only sets BSTAT.ERR. A fault-map value other than 0b00 is refused
and LIXIDX advances as for any entry (DESIGN CHOICE, log entry 48). -/
def lixWrite (v : Nat) (s : State) : State :=
  let i := s.lgb.lixidx
  let t := s.lgb.lixsel
  let adv (s : State) : State := { s with lgb := { s.lgb with lixidx := (i + 1) % 2048 } }
  let err (s : State) : State := { s with lgt := { s.lgt with cfg := { s.lgt.cfg with err := true } } }
  let stage (k d x : Nat) (s : State) : State :=
    { s with lgt := { s.lgt with cfg := { s.lgt.cfg with stg := spSet d s.lgt.cfg.stg k x, dirty := true } } }
  let size := if t < 2 then 1160 else if t = 3 then 480 else if t = 4 then 1152 else 72
  if size ≤ i then err s
  else adv (
    if t = 0 then lgtBackWrite i v s
    else if t = 2 then stage (0x10000 + i) 0 (v % 256) s
    else if t = 3 then stage (0x20000 + i) 0x1FF (v % 512) s
    else if t = 4 then
      (if v % 4 = 0 then { s with lgb := { s.lgb with fault := spSet 0 s.lgb.fault i 0 } } else err s)
    else s)

/-- A write of an LGT register that is not staged (R139, R142). -/
def lgtWrite (off v : Nat) (s : State) : State :=
  let q := s.lgt
  let err : State := { s with lgt := { q with cfg := { q.cfg with err := true } } }
  if off = 0x04 then lgtLctl v s
  else if off = 0x05 then if 5 ≤ v % 16 then err else lgtCmd (v % 16) s
  else if off = 0x07 then { s with lgt := { q with flt := w1c 7 q.flt v } }
  else if off = 0x08 then { s with lgt := { q with lie := v % 64 } }
  else if off = 0x09 then { s with lgt := { q with lis := w1c 6 q.lis v } }
  else if off = 0x90 then { s with lgt := { q with esopen := w1c 8 q.esopen v } }
  else if off = 0x91 then { s with lgt := { q with esshort := w1c 8 q.esshort v } }
  else if off = 0x92 then if fld (lgtLive s 0x2B) 1 0 = 2 then ltinSet v s else s
  else if off = 0x94 then { s with lgb := { s.lgb with ltrim := s.lgb.ltrim.set 0 (v % 256) } }
  else if off = 0x95 then { s with lgb := { s.lgb with ltrim := s.lgb.ltrim.set 1 (v % 256) } }
  else if off = 0x96 then { s with lgb := { s.lgb with ltrim := s.lgb.ltrim.set 2 (v % 256) } }
  else if off = 0xA0 then if 6 ≤ v % 8 then err else { s with lgb := { s.lgb with lixsel := v % 8 } }
  else if off = 0xA1 then { s with lgb := { s.lgb with lixidx := v % 2048 } }
  else s

/-! ### Lighting chain (R132 to R134) -/

/-- CHAIN_SHIFT: bit 47 goes to LTDO, LTDI into bit 0 (R132). -/
def chainShift (ltdi : Bool) (s : State) : State :=
  if !domOn s 6 then s else
  let c := s.lgb.chain
  let c' := (c <<< 1) ||| (if ltdi then 1#48 else 0#48)
  { s with lgb := { s.lgb with chain := c', ltdo := c'.getLsbD 47 } }

/-- The response word after a command (R134). -/
def chainResponse (denied : Bool) (cmd low : Nat) (s : State) : BitVec 48 :=
  let f := s.lgt.flt
  let st := bAt denied 7 + bAt (f.testBit 1) 6 + bAt (f.testBit 6) 5 + bAt s.lgb.swap.isSome 4 + bAt s.lgt.blanked 3
    + bAt (f.testBit 2) 2 + bAt (f.testBit 4) 1 + bAt (f.testBit 3) 0
  BitVec.ofNat 48 (cmd * 2 ^ 40 + st * 2 ^ 32 + s.lgt.lframe.toNat * 2 ^ 16 + low)

/-- A chain command on a rising LTLE edge: performed when permitted, then the response is loaded (R132, R134).
`low` gives bits [15:0] of the response from the state after the command; they are 0 after a command that R134 gives none, or that
is refused, and so are bits [15:8] after READ (DESIGN CHOICE, log entry 48). -/
def chainRun (cmd : Nat) (act : Nat → State → State) (low : Nat → State → Nat) (s : State) : State :=
  if !domOn s 6 || s.lgb.chain.toNat / 2 ^ 40 ≠ cmd then s else
  let arg := s.lgb.chain.toNat % 2 ^ 40
  let ok := cmd = 0 || s.rst.bootPhase || s.prt.gflags.testBit 0
  let s1 := if ok then act arg s else s
  { s1 with lgb := { s1.lgb with chain := chainResponse (!ok) cmd (if ok then low arg s1 else 0) s1 } }

/-- The staged set of CHAIN START (R133). -/
def chainStartSet (arg : Nat) : Regs :=
  let i := min (arg % 256) 0x50
  let base : Regs := spSet 0 (spSet 0x20 [] 0x2C 0x27) 0x17 (2 ^ 72 - 1)
  (upTo 72).foldl (fun m k => spSet 0 m (0x10000 + k) i) base

/-- FILL: every back-half matrix entry of the scanned lines in a colour group (R133). -/
def chainFill (arg : Nat) (s : State) : State :=
  let g := fld arg 17 16
  (upTo (72 * lgtLive s 0x10)).foldl (fun s e =>
    if g = 3 || (e % 72) / 24 = g then lgtBackWrite e (arg % 65536) s else s) s

end Sys2Proof.Machine
end

