-- ==== Sys2Proof/Machine/Mbx.lean ====
section
/-! DEFINITION. The mailbox unit and the lock unit: sends, releases, doorbells, ROLEMAP, locks, and the registers of
both sides (08 R294 to R315). -/

namespace Sys2Proof.Machine

/-! ### Channels (R296 to R305) -/

/-- Replaces channel c. -/
def putChan (c : Nat) (x : Chan) (s : State) : State := { s with mbx := { s.mbx with chans := spSet {} s.mbx.chans c x } }

/-- Replaces the mailbox registers of engine e. -/
def putEngMb (e : Fin 6) (q : EngMb) (s : State) : State := { s with mbx := { s.mbx with eng := s.mbx.eng.set e q } }

/-- HINTS.MB in each port named in PORTS of channel c (R302). -/
def hintPorts (c : Nat) (s : State) : State :=
  let m := chanPorts s c
  let s := if m.testBit 0 then setHintP 0 5 s else s
  if m.testBit 1 then setHintP 1 5 s else s

/-- The slot of a send: words 0 to len - 1, the rest zero (R296). -/
def sendSlot (buf : Nat → Nat) (len : Nat) : List Nat := (upTo 16).map (fun w => if w < len then buf w % 65536 else 0)

/-- A send that is performed (R301): the slot, FULL, LEN, STAMP, SEQ, COLL where it replaced a message, and the event
of R302. -/
def sendPerform (c stamp len : Nat) (buf : Nat → Nat) (s : State) : State :=
  let x := chan s c
  let s1 := putChan c { x with
    full := true, coll := x.coll || x.full, len := len, stamp := stamp, seq := x.seq + 1, slot := sendSlot buf len
    epend := x.epend || !chanDir s c } s
  if chanDir s c then hintPorts c s1 else s1

/-- A send refused by a full slot sets COLL (R300). -/
def sendColl (c : Nat) (s : State) : State := putChan c { chan s c with coll := true } s

/-- A release: the slot empties and zeroes (R296, R302). -/
def releasePerform (c : Nat) (s : State) : State :=
  let x := chan s c
  let s1 := putChan c { x with full := false, len := 0, stamp := 0, slot := [], epend := chanDir s c } s
  if chanDir s c then s1 else hintPorts c s1

/-- An engine send of channel c by engine e; the result code of EMBRES (R300): 0 when performed. -/
def engSend (e c len : Nat) (buf : Nat → Nat) (s : State) : State × Nat :=
  if !chanDir s c then (s, 2)
  else if (chan s c).full && !chanLatest s c then (sendColl c s, 1)
  else (sendPerform c e len buf s, 0)

/-- An engine release of channel c; its EMBRES code (R300). The release of a message that a send has stored on the same edge is
engReleaseSent. -/
def engRelease (c : Nat) (s : State) : State × Nat :=
  if chanDir s c || !(chan s c).full then (s, 3) else (releasePerform c s, 0)

/-- EMBRES 0x03: engine e's release finds a message that was stored on the same edge, and the message stays (R305). -/
def engReleaseSent (e : Fin 6) (s : State) : State := putEngMb e { s.mbx.eng[e] with embres := 3 } s

/-! ### Doorbells (R306 to R308) -/

/-- Doorbell k of port p rings toward the host (R307); a DBCLR of the same edge comes before it (R281, R308, log entry 2). -/
def ringHost (p : Port) (k : Nat) (s : State) : State :=
  setHintP p 4 { s with mbx := { s.mbx with dbH := s.mbx.dbH.set p (s.mbx.dbH[p] ||| (1#64 <<< (k % 64))) } }

/-- DBSET of doorbell k by port p (R306, R439). -/
def ringEngine (p : Port) (k : Nat) (s : State) : State :=
  raiseWake 5 { s with mbx := { s.mbx with dbE := s.mbx.dbE.set p (s.mbx.dbE[p] ||| (1#64 <<< (k % 64))) } }

/-- DBCLR by port p: one doorbell from the engines, or all (R281). Where an engine rings on the same edge the clear's command
comes first, and the doorbell stays set (R308; the order of the commands of one edge is log entry 2). -/
def dbClrHost (p : Port) (all : Bool) (k : Nat) (s : State) : State :=
  { s with mbx := { s.mbx with dbH := s.mbx.dbH.set p (if all then 0 else s.mbx.dbH[p] &&& ~~~(1#64 <<< (k % 64))) } }

/-- EDBCLR by engine e (R314): only doorbells routed to it. -/
def dbClrEng (e : Fin 6) (v : Nat) (s : State) : State :=
  let p : Port := if v.testBit 7 then 1 else 0
  let m : BitVec 64 := if v.testBit 6 then BitVec.ofNat 64 (edbPend s p e.val)
    else if dbMine s p e.val (v % 64) then 1#64 <<< (v % 64) else 0
  { s with mbx := { s.mbx with dbE := s.mbx.dbE.set p (s.mbx.dbE[p] &&& ~~~m) } }

/-! ### ROLEMAP (R295) -/

/-- Role r is served by engine e; a change logs ROLE_MAP (R295, R441). -/
def roleMapSet (r : Fin 6) (e : Nat) (s : State) : State :=
  let was := s.mbx.rolemap[r]
  if was = e then s
  else logRec 0x0A 1 [r.val, was, e] { s with mbx := { s.mbx with rolemap := s.mbx.rolemap.set r e } }

/-! ### Engine side registers (R313, R314) -/

/-- The engine may name channel c for EMBDAT reads and EMBCMD (R299). -/
def mbMine (s : State) (e c : Nat) : Bool := chanOwner s c = some e

/-- EMBDAT read by engine e that owns the channel (R304). -/
def embRead (e : Fin 6) (s : State) : State × Nat :=
  let q := s.mbx.eng[e]
  let c := q.echsel
  let live : List Nat := (upTo 32).map (fun i => byteOf (slotWord (chan s c) (i / 2)) (i % 2))
  let q1 := if q.embptr = 0 then { q with latch := some (c, live) } else q
  let v := match q1.latch with
    | some (c', l) => if c' = c then l.getD q.embptr 0 else live.getD q.embptr 0
    | none => live.getD q.embptr 0
  (putEngMb e { q1 with embptr := (q.embptr + 1) % 32 } s, v)

/-- EMBDAT write: the engine's own send buffer (R298, R299). -/
def embWrite (e : Fin 6) (v : Nat) (s : State) : State :=
  let q := s.mbx.eng[e]
  putEngMb e { q with buf := spSet 0 q.buf q.embptr (v % 256), embptr := (q.embptr + 1) % 32 } s

/-- Word w of an engine's send buffer. -/
def engBuf (q : EngMb) (w : Nat) : Nat := spGet 0 q.buf (2 * w) + 256 * spGet 0 q.buf (2 * w + 1)

/-- EMBCMD by an engine that owns the channel (R300 to R303, R313). The ring of a performed SEND names a doorbell that
is routed to the engine's role. -/
def embCmd (e : Fin 6) (v : Nat) (s : State) : State :=
  let q := s.mbx.eng[e]
  let c := q.echsel
  let cmd := v / 32 % 8
  let p : Port := if q.embdb.testBit 7 then 1 else 0
  let res (r : State × Nat) : State := putEngMb e { r.1.mbx.eng[e] with embres := r.2 } r.1
  if cmd = 1 then
    let r := engSend e.val c (v % 16 + 1) (engBuf q) s
    if v.testBit 4 && r.2 = 0 then ringHost p (q.embdb % 64) (res r) else res r
  else if v % 32 ≠ 0 then { s with mbx := { s.mbx with err := true } }
  else if cmd = 2 then res (engRelease c s)
  else if cmd = 3 then res (putChan c { chan s c with epend := false } s, 0)
  else { s with mbx := { s.mbx with err := true } }

/-- An EMBCMD that its engine's rights refuse with a bus error (R299, R307, R313). -/
def embRefused (e : Fin 6) (v : Nat) (s : State) : Bool :=
  let q := s.mbx.eng[e]
  let p : Port := if q.embdb.testBit 7 then 1 else 0
  let c := q.echsel
  !mbMine s e.val c
  || (v / 32 % 8 = 1 && v.testBit 4 && chanDir s c && (!(chan s c).full || chanLatest s c) && !dbMine s p e.val (q.embdb % 64))

/-- A write of an MBX register by engine e (R313, R314) that no rule refuses with a bus error. -/
def mbxWrite (e : Fin 6) (off v : Nat) (s : State) : State :=
  let q := s.mbx.eng[e]
  let err : State := { s with mbx := { s.mbx with err := true } }
  if off = 0x00 then { s with mbx := { s.mbx with err := s.mbx.err && !v.testBit 0 } }
  else if off = 0x04 then putEngMb e { q with echsel := v % 1024, latch := none } s
  else if off = 0x06 then
    if v.testBit 14 then putChan q.echsel { chan s q.echsel with coll := false } s else s
  else if off = 0x09 then putEngMb e { q with embptr := v % 32 } s
  else if off = 0x0A then embWrite e v s
  else if off = 0x0B then embCmd e v s
  else if off = 0x0D then putEngMb e { q with embdb := v % 64 + (if v.testBit 7 then 128 else 0) } s
  else if off = 0x30 then dbClrEng e v s
  else if off = 0x31 then ringHost (if v.testBit 7 then 1 else 0) (v % 64) s
  else if 0x40 ≤ off ∧ off < 0x46 then if 6 ≤ v % 8 then err else roleMapSet (finOf 6 (off - 0x40)) (v % 8) s
  else s

/-! ### Host side registers (R280) -/

/-- MBSTAT of port p (R280). -/
def mbstat (s : State) (p : Port) : Nat :=
  let m := s.hp[p].sel.mbsel
  let c := m % 1024
  let x := chan s c
  bAt x.full 15 + bAt x.coll 14 + bAt (chanDir s c) 13
  + bAt ((chanPorts s c).testBit p.val && chanRole s c < 6) 12 + bAt (chanOff s c) 11 + x.stamp * 16 + m / 1024

/-- MBDATA read of port p (R304). -/
def mbDataRead (p : Port) (s : State) : State × Nat :=
  let h := s.hp[p]
  let q := h.sel
  let c := q.mbsel % 1024
  let w := q.mbsel / 1024 % 16
  let live := (upTo 16).map (slotWord (chan s c))
  let l := if w = 0 then some (c, live) else q.mlatch
  let v := match l with
    | some (c', l) => if c' = c then l.getD w 0 else live.getD w 0
    | none => live.getD w 0
  (putPort p { h with sel := { q with mlatch := l, mbsel := c + 1024 * ((w + 1) % 16) } } s, v)

/-- MBDATA write of port p (R280, R298). -/
def mbDataWrite (p : Port) (v : Nat) (s : State) : State :=
  let h := s.hp[p]
  let q := h.sel
  let w := q.mbsel / 1024 % 16
  putPort p { h with sel := { q with mbuf := spSet 0 q.mbuf w (v % 65536), mbsel := q.mbsel % 1024 + 1024 * ((w + 1) % 16) } } s

/-- MBSEL write of port p (R304). -/
def mbselWrite (p : Port) (v : Nat) (s : State) : State :=
  let h := s.hp[p]
  let v := v % 16384
  putPort p { h with sel := { h.sel with mbsel := v, mlatch := if v % 1024 = h.sel.mbsel % 1024 then h.sel.mlatch else none } } s

/-- The ERRINFO code of a host mailbox access by R299: MB_RIGHTS, then CHAN_OFF; 0 when both checks pass. -/
def mbAccess (s : State) (p : Port) : Nat :=
  let c := s.hp[p].sel.mbsel % 1024
  if 6 ≤ chanRole s c || !(chanPorts s c).testBit p.val then 0x08 else if chanOff s c then 0x07 else 0

/-- The ERRINFO code that refuses an MBSEND (R299, R300); 0 when it is performed. -/
def mbSendCode (s : State) (p : Port) (v : Nat) : Nat :=
  let c := s.hp[p].sel.mbsel % 1024
  let a := mbAccess s p
  if a ≠ 0 then a
  else if v.testBit 15 then (if !chanDir s c || !(chan s c).full then 0x0D else 0)
  else if v % 32 = 0 || 16 < v % 32 then 0x05
  else if chanDir s c || ((chan s c).full && !chanLatest s c) then 0x0D
  else 0

/-- MBSEND of port p with its PRIV sample (R297, R300 to R302): the new state and the refusal code. -/
def mbSend (p : Port) (priv : Bool) (v : Nat) (s : State) : State × Nat :=
  let q := s.hp[p].sel
  let c := q.mbsel % 1024
  let code := mbSendCode s p v
  if code = 0 then
    if v.testBit 15 then (releasePerform c s, 0)
    else (sendPerform c (6 + p.val + (if priv then 2 else 0)) (v % 32) (spGet 0 q.mbuf) s, 0)
  else if code = 0x0D && !v.testBit 15 && !chanDir s c then (sendColl c s, code)
  else (s, code)

/-! ### Locks (R309, R310, R315) -/

/-- An acquire by master m of lock l (R309): the new state, and HELD, BUSY and the owner. A single requester moves no
pointer. -/
def lockAcquire (m l : Nat) (s : State) : State × (Bool × Bool × Nat) :=
  match lockOwner s l with
  | none => ({ s with lck := { s.lck with held := spSet 0 s.lck.held l (m + 1) } }, (true, false, m))
  | some o => if o = m then (s, (true, false, m)) else (s, (false, true, o))

/-- The first master of a list at or after a pointer, in the cyclic order of the eight codes (R309). -/
def cyclicFirst (ptr : Nat) (l : List Nat) : Option Nat :=
  l.foldl (fun a m => match a with
    | some w => if (m + 8 - ptr) % 8 < (w + 8 - ptr) % 8 then some m else some w
    | none => some m) none

/-- Two or more masters acquire lock l on one edge (R309): the winner by the round-robin pointer when it is free. -/
def lockContend (ms : List Nat) (l : Nat) (s : State) : State :=
  match lockOwner s l, cyclicFirst (spGet 0 s.lck.ptr l) ms with
  | some _, _ => s
  | none, none => s
  | none, some w =>
    { s with lck := { s.lck with held := spSet 0 s.lck.held l (w + 1), ptr := spSet 0 s.lck.ptr l ((w + 1) % 8) } }

/-- Lock l becomes free. -/
def lockFree (l : Nat) (s : State) : State := { s with lck := { s.lck with held := spErase s.lck.held l } }

/-- Every lock of master m is released (R310). -/
def locksRelease (m : Nat) (s : State) : State :=
  { s with lck := { s.lck with held := s.lck.held.filter (fun x => x.2 ≠ m + 1) } }

/-- LKREL by engine e (R310, R315). -/
def lkRel (e : Fin 6) (l : Nat) (s : State) : State :=
  if lockOwner s l = some e.val then lockFree l s
  else { s with lck := { s.lck with stat := s.lck.stat.set e (s.lck.stat[e] ||| 2) } }

/-- LKFORCE by engine e with the remap right (R310). -/
def lkForce (e : Fin 6) (l : Nat) (s : State) : State :=
  match lockOwner s l with
  | none => s
  | some o => logRec 0x0B 1 [l, o, e.val] (lockFree l s)

/-- A write of an LCK register by engine e that no rule refuses with a bus error (R315). -/
def lckWrite (e : Fin 6) (off v : Nat) (s : State) : State :=
  if off = 0x00 then { s with lck := { s.lck with stat := s.lck.stat.set e (w1c 2 s.lck.stat[e] v) } }
  else if off = 0x04 then { s with lck := { s.lck with lksel := s.lck.lksel.set e (v % 32) } }
  else if off = 0x06 then lkRel e (v % 32) s
  else if off = 0x11 then lkForce e (v % 32) s
  else s

/-- LKACQ by engine e (R309, R315). -/
def lkAcq (e : Fin 6) (s : State) : State × Nat :=
  let r := lockAcquire e.val s.lck.lksel[e] s
  (r.1, bAt r.2.1 7 + bAt r.2.2.1 6 + r.2.2.2)

end Sys2Proof.Machine
end

