-- ==== Sys2Proof/Machine/Cpy.lean ====
section
/-! DEFINITION. The copy unit: agreement checks, starts, jobs, stops and registers (11 R381 to R387), and the SHM
bytes it moves (R379). -/

namespace Sys2Proof.Machine

/-! ### SHM (R379) -/

/-- A byte of SHM. -/
def shmByte (s : State) (a : Nat) : Nat := (spGet 0 s.shm (a % 131072)).toNat

/-- Writes a byte of SHM. -/
def shmPut (a v : Nat) (s : State) : State := { s with shm := spSet 0 s.shm (a % 131072) (BitVec.ofNat 8 v) }

/-- A 16-bit word of SHM by word address, low byte first. -/
def shmWord (s : State) (w : Nat) : Nat := shmByte s (2 * w) + 256 * shmByte s (2 * w + 1)

/-- Writes a word of SHM. -/
def shmPutWord (w v : Nat) (s : State) : State := shmPut (2 * w + 1) (v / 256) (shmPut (2 * w) v s)

/-! ### Rights (R418) -/

/-- The 2-bit right of engine e to region r. -/
def engRight (s : State) (e : Fin 6) (r : Nat) : Nat := fld s.prt.eright[e] (2 * r + 1) (2 * r)

/-- Engine e may write region r. -/
def engMayWrite (s : State) (e : Fin 6) (r : Nat) : Bool := engRight s e r = 2

/-! ### Agreement checks (R381, R387) -/

/-- The descriptor fields of channel j in a set. -/
def cjMode (g : Nat → Nat) (j : Nat) : Nat := g (0x20 + 8 * j)
def cjSrc (m : Nat) : Nat := fld m 7 6
def cjDst (m : Nat) : Nat := fld m 5 4

/-- An endpoint stays inside its space (R381). -/
def cjFits (space adr len : Nat) : Bool :=
  if space = 0 then decide (adr + len ≤ 65536)
  else if space = 1 then decide (fld adr 13 10 + len ≤ 16)
  else if space = 2 then decide (fld adr 10 0 + len ≤ 1160)
  else true

/-- The code of the first failing CPY agreement check, 0 when all pass (R387). -/
def cpyCheck (g : Nat → Nat) : Nat :=
  let any (f : Nat → Bool) : Bool := (upTo 8).any f
  let m := cjMode g
  let len (j : Nat) : Nat := g (0x25 + 8 * j)
  if any (fun j => cjSrc (m j) = 3 || cjDst (m j) = 3 || cjSrc (m j) = 2) then 1
  else if any (fun j => len j = 0 || 4096 < len j || !cjFits (cjSrc (m j)) (g (0x21 + 8 * j)) (len j)
      || !cjFits (cjDst (m j)) (g (0x23 + 8 * j)) (len j)) then 2
  else if any (fun j => ((m j).testBit 3 && cjDst (m j) ≠ 1) || ((m j).testBit 2 && cjSrc (m j) ≠ 1)
      || ((m j).testBit 1 && !(m j).testBit 3)) then 3
  else if any (fun j => cjSrc (m j) = 1 && cjDst (m j) = 1) then 4
  else 0

/-- COMMIT_APPLY of CPY (R45): a pending set becomes live in every idle channel; a busy channel takes it at the end of
its transfer. -/
def cpyApply (s : State) : State :=
  match s.cpy.cfg.pnd with
  | none => s
  | some set =>
    if !domOn s 7 then s else
    let busy := cpyBusy s
    let mine (k : Nat) : Bool := 0x20 ≤ k && k < 0x60 && busy.testBit ((k - 0x20) / 8)
    let live := (set.filter (fun e => !mine e.1)) ++ (s.cpy.cfg.live.filter (fun e => mine e.1))
    let live := live.foldr (fun e m => spInsert m e.1 e.2) []
    { s with cpy := { s.cpy with cfg := { s.cpy.cfg with live := live, pnd := if busy = 0 then none else some set } } }

/-! ### Jobs (R382 to R384) -/

/-- The code that refuses a start of channel j by engine e (R382): 0 when it is queued. Of MBX, a slot's words ask for
the read right, and a destination or a release for the write right (R418). A job that is to ring a doorbell asks that it be routed to
the engine, as for a ring of the engine's own (R306, R307, DEDUCED, log entry 38). -/
def cpyRefusal (s : State) (e : Fin 6) (j : Nat) : Nat :=
  let g := cpyLive s
  let m := cjMode g j
  let box (c : Nat) (dir : Bool) : Nat :=
    if (if dir then !engMayWrite s e 0 else engRight s e 0 = 0 || (m.testBit 2 && !engMayWrite s e 0)) || chanOwner s c ≠ some e.val then 1
    else if chanOff s c then 3
    else if dir then
      (if m.testBit 3 && !chanDir s c then 2
       else if m.testBit 3 && m.testBit 1 && !dbMine s (if (g (0x27 + 8 * j)).testBit 7 then 1 else 0) e.val (g (0x27 + 8 * j) % 64) then 1 else 0)
    else if chanDir s c then 2 else 0
  let lgt := if cjDst m = 2 then (if !engMayWrite s e 3 then 1 else if !domOn s 6 then 3 else 0) else 0
  if lgt ≠ 0 then lgt
  else if cjSrc m = 1 then box (g (0x21 + 8 * j) % 1024) false
  else if cjDst m = 1 then box (g (0x23 + 8 * j) % 1024) true
  else 0

/-- Job j ends with a code (R385). -/
def cpyEnd (j code : Nat) (s : State) : State :=
  let q := s.cpy
  cpyApply { s with cpy := { q with
    queued := setBit q.queued j false, run := if (q.run.map CpyRun.j) = some j then none else q.run
    code := q.code.set (finOf 8 j) code, is_ := setBit q.is_ j true } }

/-- A write of CPYGO by engine e (R382). -/
def cpyGo (e : Fin 6) (mask : Nat) (s : State) : State :=
  (bitsOf 8 mask).foldl (fun s j =>
    if (cpyBusy s).testBit j then s else
    let q := s.cpy
    let s1 := { s with cpy := { q with eng := q.eng.set (finOf 8 j) e.val, rem := q.rem.set (finOf 8 j) (cpyLive s (0x25 + 8 * j)) } }
    match cpyRefusal s e j with
    | 0 => { s1 with cpy := { s1.cpy with queued := setBit q.queued j true } }
    | c => cpyEnd j c s1) s

/-- COPY_JOB_BEGIN: the lowest queued job begins and latches a mailbox source (R383). -/
def cpyBegin (s : State) : State :=
  if !domOn s 7 then s else
  match s.cpy.run, lowestBit 8 s.cpy.queued with
  | none, some j =>
    let g := cpyLive s
    let m := cjMode g j
    let sadr := g (0x21 + 8 * j)
    let latch := if cjSrc m = 1 then (upTo 16).map (slotWord (chan s (sadr % 1024))) else []
    { s with cpy := { s.cpy with queued := setBit s.cpy.queued j false
                                 run := some { j := j, mode := m, sadr := sadr, dadr := g (0x23 + 8 * j)
                                               len := g (0x25 + 8 * j), db := g (0x27 + 8 * j), latch := latch } } }
  | _, _ => s

/-- Word i of the source of a running job. -/
def cpyWord (r : CpyRun) (i : Nat) (s : State) : Nat :=
  if cjSrc r.mode = 1 then r.latch.getD (fld r.sadr 13 10 + i) 0 else shmWord s (r.sadr + i)

/-- The first k words of the job are moved (R383); a mailbox destination is only buffered. -/
def cpyMove (r : CpyRun) (k : Nat) (s : State) : State :=
  let s1 := (upTo k).foldl (fun s i =>
    let w := cpyWord r i s
    if cjDst r.mode = 0 then shmPutWord (r.dadr + i) w s
    else if cjDst r.mode = 2 then lgtBackWrite (fld r.dadr 10 0 + i) w s
    else s) s
  { s1 with cpy := { s1.cpy with rem := s1.cpy.rem.set (finOf 8 r.j) (r.len - k) } }

/-- COPY_JOB_END: the last word is moved and the send, release or ring follows (R383, R384). Words of the per-channel
buffer below the start word are zero (DEDUCED, log entry 38); a job to LGT that finds D6 off ends with code 0x3 (DEDUCED, log
entry 32). CJDB rings with every send that is performed: where its doorbell is routed was looked at when the job started (R384). -/
def cpyFinish (s : State) : State :=
  if !domOn s 7 then s else
  match s.cpy.run with
  | none => s
  | some r =>
    let eng := s.cpy.eng[(finOf 8 r.j)]
    let s1 := cpyMove r r.len s
    let p : Port := if r.db.testBit 7 then 1 else 0
    let lgt := if cjDst r.mode ≠ 2 then 0 else if s.lgb.swap.isSome then 5 else if domOn s 6 then 0 else 3
    if cjDst r.mode = 1 then
      let c := r.dadr % 1024
      let w0 := fld r.dadr 13 10
      if chanOff s c then cpyEnd r.j 3 s1
      else if r.mode.testBit 3 then
        let x := engSend eng c (w0 + r.len) (fun w => if w < w0 then 0 else cpyWord r (w - w0) s) s1
        let s2 := if x.2 = 0 && r.mode.testBit 1 then ringHost p (r.db % 64) x.1 else x.1
        cpyEnd r.j (if x.2 = 0 then 0 else 2) s2
      else cpyEnd r.j 0 s1
    else if cjSrc r.mode = 1 then
      let c := r.sadr % 1024
      if chanOff s c then cpyEnd r.j 3 s1
      else if r.mode.testBit 2 then
        let x := engRelease c s1
        cpyEnd r.j (if lgt ≠ 0 then lgt else if x.2 = 0 then 0 else 2) x.1
      else cpyEnd r.j lgt s1
    else cpyEnd r.j lgt s1

/-- A write of CPYSTOP (R384). How far a running job has come is timing: at least the word in progress is moved, and
how many more is a free value (DESIGN CHOICE, log entry 13). -/
def cpyStop (mask : Nat) (s : State) : State :=
  (bitsOf 8 mask).foldl (fun s j =>
    match s.cpy.run with
    | some r =>
      if r.j = j then
        let k := (Config.freeValue s.free).toNat % r.len + 1
        cpyEnd j 4 (cpyMove r k { s with free := s.free + 1 })
      else if s.cpy.queued.testBit j then cpyEnd j 4 s else s
    | none => if s.cpy.queued.testBit j then cpyEnd j 4 s else s) s

/-- A write of a CPY register by engine e that is not staged (R385). -/
def cpyWrite (e : Fin 6) (off v : Nat) (s : State) : State :=
  if off = 0x04 then cpyGo e v s
  else if off = 0x05 then cpyStop v s
  else if off = 0x07 then { s with cpy := { s.cpy with ie := v % 256 } }
  else if off = 0x08 then { s with cpy := { s.cpy with is_ := w1c 8 s.cpy.is_ v } }
  else s

end Sys2Proof.Machine
end

