-- ==== Sys2Proof/Machine/Engine.lean ====
section
/-! DEFINITION. The Cerxa engines: what an instruction reads, how it retires, traps, interrupts, stops, WAIT, repeats,
data memory, and the engine-local registers (09 R316 to R349, 10 R350 to R376). -/

namespace Sys2Proof.Machine

/-- Replaces engine e. -/
def putEng (e : Fin 6) (q : Ceng) (s : State) : State := { s with eng := s.eng.set e q }

/-! ### Registers and ready distances (R323 to R327) -/

/-- What instruction number j of the run reads (R325): the last writer that is ready. -/
def cellRead (j : Nat) (c : Cell) : Nat :=
  c.pend.foldl (fun a x => if x.1 + x.2.1 ≤ j then x.2.2 else a) c.base

/-- Forgets the writers that no later instruction can obtain. -/
def cellPrune (j : Nat) (c : Cell) : Cell :=
  c.pend.foldl (fun a x => if x.1 + x.2.1 ≤ j then { base := x.2.2, pend := [] } else { a with pend := a.pend ++ [x] })
    { base := c.base, pend := [] }

/-- Instruction number j writes v with ready distance d (R324). -/
def cellWrite (j d v : Nat) (c : Cell) : Cell :=
  let p := cellPrune j c
  { p with pend := p.pend ++ [(j, d, v)] }

/-- The end of a run (R325): every writer is ready. -/
def cellSettle (c : Cell) : Cell := { base := cellLast c, pend := [] }

/-- G register i as the engine's next instruction reads it. -/
def gRead (q : Ceng) (i : Fin 16) : Nat := cellRead q.idx q.g[i] % 256

/-- Pair n as the next instruction reads it (R316, R325: byte by byte). -/
def gpRead (q : Ceng) (n : Fin 8) : Nat :=
  gRead q (finOf 16 (2 * n.val)) + 256 * gRead q (finOf 16 (2 * n.val + 1))

/-- The present instruction writes G register i with ready distance d. -/
def gWrite (i : Fin 16) (d v : Nat) (q : Ceng) : Ceng := { q with g := q.g.set i (cellWrite q.idx d (v % 256) q.g[i]) }

/-- The present instruction writes pair n with ready distance d. -/
def gpWrite (n : Fin 8) (d v : Nat) (q : Ceng) : Ceng :=
  gWrite (finOf 16 (2 * n.val + 1)) d (v / 256) (gWrite (finOf 16 (2 * n.val)) d v q)

/-- The end of a run (R325). -/
def runEnd (q : Ceng) : Ceng := { q with g := q.g.map cellSettle, cnt := cellSettle q.cnt, idx := 0 }

/-! ### The next instruction (R331, R367) -/

/-- An instruction retires: the repeat, the delay slot or the sequence gives the next address. -/
def retire (q : Ceng) : Ceng :=
  let q1 := { q with idx := q.idx + 1 }
  match q.rep with
  | some r => if r.left ≤ 1 then { q1 with rep := none, pc := (r.pc + 2) % 65536 } else { q1 with rep := some { r with left := r.left - 1 } }
  | none =>
    match q.ds with
    | some t => { q1 with ds := none, pc := t }
    | none => { q1 with pc := (q.pc + 1) % 65536 }

/-! ### Stops (R291, R342) -/

/-- The SVC bits that engine e last wrote to 1 clear (R291, R426). -/
def svcDrop (e : Fin 6) (s : State) : State :=
  (List.finRange 2).foldl (fun s (p : Port) =>
    if s.hsh.svc.testBit p.val && s.hsh.svcBy[p] = e.val then
      let s1 := { s with hsh := { s.hsh with svc := setBit s.hsh.svc p.val false } }
      if domOn s 7 then setHintP p 14 s1 else s1
    else s) s

/-- Engine e stops or halts with a cause (1 WDT, 2 BADKICK, 3 DOUBLE); addr is the oldest annulled instruction. -/
def engStop (e : Fin 6) (cause addr : Nat) (s : State) : State :=
  let s1 := putEng e { runEnd s.eng[e] with run := .stopped, failed := true, ds := none, rep := none, resume := none, badKick := false } s
  let s2 := { s1 with eng := Vector.ofFn (fun (n : Fin 6) =>
    let q := s1.eng[n]
    if n = e ∨ domOn s1 (engDom n.val) = false then q else { q with estop := setBit q.estop e.val true }) }
  logRec (0x10 + e.val) 1 [cause, addr] (svcDrop e s2)

/-- The edge after a bad kick: the engine stops, the oldest annulled instruction at pc (R342, R343). -/
def kickStop (e : Fin 6) (pc : Nat) (s : State) : State :=
  if s.eng[e].badKick && s.eng[e].run ≠ .stopped then engStop e 2 pc s else s

/-! ### Traps and interrupts (R333 to R341) -/

/-- A trap frame as an entry writes it: R338 states no TFTGT without DS and no TFREP without REPV, and each takes a free
value there (DESIGN CHOICE, log entry 13). -/
def frameOf (n : Nat) (f : TrapFrame) : TrapFrame :=
  { f with tgt := if f.ds then f.tgt else (Config.freeValue n).toNat
           rep := if f.repv then f.rep else (Config.freeValue (n + 1)).toNat }

/-- The entry of a trap or interrupt with a frame already made (R338). -/
def engEnter (e : Fin 6) (f : TrapFrame) (s : State) : State :=
  let q := runEnd s.eng[e]
  putEng e { q with run := .running, tf := frameOf s.free f, ie := false, intrap := true, gov := none, ds := none, rep := none
                    resume := none, pc := (q.ivbase * 64 + 2 * f.vec) % 65536 } { s with free := s.free + 2 }

/-- A synchronous trap ILLEGAL, BUSERR or FETCH on the instruction at pc (R337, R338, R372); a double trap halts (R341). Where the
instruction before was a bad kick, the stop falls on the edge that registers the trap: the instruction is annulled, and no frame
is written (R342, R343). -/
def engTrap (e : Fin 6) (vec word addr info : Nat) (s : State) : State :=
  let q := s.eng[e]
  if q.intrap then stopOnEdge (engStop e 3 q.pc) s
  else if q.badKick then stopOnEdge (engStop e 2 q.pc) s
  else engEnter e { pc := (match q.rep with | some r => r.pc | none => q.pc), word := word, vec := vec
                    repv := q.rep.isSome, ds := q.ds.isSome && q.rep.isNone, ie := q.ie
                    tgt := q.ds.getD 0, rep := (match q.rep with | some r => r.left | none => 0)
                    addr := addr, info := info } s

/-- SWTRAP: the TRAP instruction completes (R337, R338); after a bad kick the engine stops as in `engTrap`. -/
def engSwTrap (e : Fin 6) (word : Nat) (s : State) : State :=
  let q := s.eng[e]
  let nx := (q.pc + 1) % 65536
  if q.intrap then stopOnEdge (engStop e 3 nx) s
  else if q.badKick then stopOnEdge (engStop e 2 nx) s
  else engEnter e { pc := nx, word := word, vec := 3, ie := q.ie } s

/-- IE, INTRAP and IRQEN as they govern the present boundary (R335). -/
def engGov (q : Ceng) : Bool × Bool × Nat := q.gov.getD (q.ie, q.intrap, q.irqen)

/-- The interrupt frame of the present boundary; word is the resume point's word (R334, R338). At a boundary before a
prefix, a RETT that resumes it included, REPV is 0 (R371). -/
def irqFrame (q : Ceng) (src : Nat) (word : Nat) : TrapFrame :=
  match q.rep with
  | some r => { pc := r.pc, word := r.word, vec := 8 + src, repv := true, ie := q.ie, rep := r.left }
  | none => { pc := q.pc, word := word, vec := 8 + src, repv := false, ie := q.ie, rep := 0 }

/-- INTERRUPT_ACCEPT of engine e (R333, R334, R370); the stop of a bad kick by the instruction before follows it. -/
def engIrq (e : Fin 6) (word : Nat) (s : State) : State :=
  let q := s.eng[e]
  let g := engGov q
  let rdy := irqReady s e g.2.2
  let unint := match q.rep with | some r => r.unint | none => false
  match (if domOn s (engDom e.val) && q.run = .running && g.1 && !g.2.1 && q.ds.isNone && !unint then lowestBit 24 rdy else none) with
  | some n =>
    let s1 := engEnter e (irqFrame q n word) s
    if q.badKick then stopOnEdge (kickStop e q.pc) s1 else s1
  | none => s

/-- WAIT_RESUME of engine e (R344). -/
def engResume (e : Fin 6) (word : Nat) (s : State) : State :=
  let q := s.eng[e]
  match (if domOn s (engDom e.val) && q.run = .waiting then lowestBit 24 (irqReady s e q.irqen) else none) with
  | some n => if q.ie && !q.intrap then engEnter e (irqFrame q n word) s else putEng e { q with run := .running } s
  | none => s

/-! ### Issue -/

/-- The boundary after an OUT to ECTL or IRQEN is past: the next one is governed by the registers themselves (R335). -/
def pastGov (q : Ceng) : Ceng := { q with gov := none }

/-- A bad kick by the instruction before stops engine e on the edge that ends this one's M: s1 is the state after it, q
the engine before it. Where it traps, `engTrap` has stopped the engine. -/
def afterKick (e : Fin 6) (q : Ceng) (s1 : State) : State :=
  if q.badKick then stopOnEdge (kickStop e s1.eng[e].pc) s1 else s1

/-- Engine e executes an instruction when it runs; one fetched at 0x4000 or above takes FETCH instead (R321, R375). -/
def issue (e : Fin 6) (f : State → State) (s : State) : State :=
  let q := s.eng[e]
  if !(domOn s (engDom e.val) && q.run = .running) then s
  else afterKick e q (if 0x4000 ≤ q.pc then engTrap e 2 0 q.pc 0 s else f (putEng e (pastGov q) s))

/-- An instruction that only changes its engine: f, then the next instruction. -/
def issueReg (e : Fin 6) (f : Ceng → Ceng) (s : State) : State :=
  issue e (fun s => putEng e (retire { f s.eng[e] with resume := none }) s) s

/-- An ALU instruction: Gd takes the value that the registers give, d = 1 (R324, R345). -/
def issueAlu (e : Fin 6) (d : Fin 16) (v : (Fin 16 → Nat) → Nat) (s : State) : State :=
  issueReg e (fun q => gWrite d 1 (v (gRead q)) q) s

/-- An instruction that the machine refuses as a word (R337, R374). -/
def engIllegal (e : Fin 6) (word : Nat) (s : State) : State := issue e (fun s => engTrap e 0 word 0 0 s) s

/-! ### Control transfer (R331, R357 to R360) -/

/-- The address A + 2 + sext(off8) (R358). -/
def brTarget (pc : Nat) (off : BitVec 8) : Nat := ((pc : Int) + 2 + off.toInt).toNat % 65536 + (if (pc : Int) + 2 + off.toInt < 0 then 65536 - (-((pc : Int) + 2 + off.toInt)).toNat else 0)

/-- A control transfer of engine e: in a delay slot or a repeat it takes ILLEGAL; else the delay slot follows, and then
the address that `next` gives, none when it is not taken. -/
def issueJump (e : Fin 6) (word : Nat) (next : Ceng → Option Nat) (upd : Ceng → Ceng) (s : State) : State :=
  issue e (fun s =>
    let q := s.eng[e]
    if q.ds.isSome || q.rep.isSome then engTrap e 0 word 0 0 s
    else
      let t := (next q).getD ((q.pc + 2) % 65536)
      putEng e { upd q with ds := some t, pc := (q.pc + 1) % 65536, idx := q.idx + 1, resume := none } s) s

/-- A compare-and-branch (R357, R358). -/
def issueBranch (e : Fin 6) (word : Nat) (taken : (Fin 16 → Nat) → Bool) (off : BitVec 8) (s : State) : State :=
  issueJump e word (fun q => if taken (gRead q) then some (brTarget q.pc off) else none) id s

/-- PRT_SEAL takes effect (R421). -/
def prtSeal (s : State) : State :=
  if s.rst.bootPhase then
    let r := s.rst
    logRec 2 0xA [r.cause, r.bootstat, r.bootver % 65536, r.bootver / 65536, r.svn, r.hist]
      { s with rst := { r with bootPhase := false, sealed := true } }
  else s

/-- JMP: the ROM flag clears on a target of 0x0800 or above, and the seal happens if CE0 leaves the boot phase (R406,
R421). -/
def issueJmp (e : Fin 6) (t : Nat) (s : State) : State :=
  let s1 := issueJump e (0x70 * 65536 + t) (fun _ => some t) (fun q => if 0x0800 ≤ t then { q with rom := false } else q) s
  if s.eng[e].rom && !s1.eng[e].rom && e = 0 then prtSeal s1 else s1

/-! ### RETT, WAIT and the repeat prefix (R340, R344, R366 to R373) -/

/-- RETT (R340). -/
def issueRett (e : Fin 6) (s : State) : State :=
  issue e (fun s =>
    let q := s.eng[e]
    if q.ds.isSome || q.rep.isSome then engTrap e 0 0x790000 0 0 s
    else
      let f := q.tf
      putEng e { runEnd q with pc := f.pc, ie := f.ie, intrap := false, ds := if f.ds then some f.tgt else none
                               resume := if f.repv then some f.rep else none } s) s

/-- WAIT (R344, R360). -/
def issueWait (e : Fin 6) (s : State) : State :=
  issue e (fun s =>
    let q := s.eng[e]
    if q.ds.isSome || q.rep.isSome then engTrap e 0 0x7A0000 0 0 s
    else putEng e { runEnd q with pc := (q.pc + 1) % 65536, run := .waiting, resume := none } s) s

/-- A word that must not follow a prefix (R368): a control transfer, TRAP, RETT, WAIT, SNAP or a prefix. -/
def repForbidden (w : IWord) : Bool :=
  let op := w.toNat / 65536
  (0x60 ≤ op && op ≤ 0x65) || op = 0x68 || op = 0x69 || (0x70 ≤ op && op ≤ 0x74) || (0x78 ≤ op && op ≤ 0x7B)
  || (0x80 ≤ op && op ≤ 0x83)

/-- A repeat prefix; count is imm16 or, for none, CNT as a reader one place earlier sees it (R327, R366 to R368). -/
def issueRep (e : Fin 6) (word : Nat) (unint : Bool) (count : Option Nat) (next : IWord) (s : State) : State :=
  issue e (fun s =>
    let q := s.eng[e]
    if q.ds.isSome || q.rep.isSome || (repForbidden next && q.pc + 1 < 0x4000) then engTrap e 0 word 0 0 s
    else
      let n := match q.resume with
        | some n => n
        | none => match count with | some n => n | none => cellRead (q.idx - 1) q.cnt
      let q1 := { q with idx := q.idx + 1, resume := none }
      putEng e (if n = 0 then { q1 with pc := (q.pc + 2) % 65536 }
                else { q1 with pc := (q.pc + 1) % 65536, rep := some { pc := q.pc, word := word, unint := unint, left := n } }) s) s

/-! ### Special registers (R317, R365) -/

/-- MTS of a word: DSB of a reserved value takes ILLEGAL. -/
def issueMtsDsb (e : Fin 6) (word : Nat) (a : Fin 16) (s : State) : State :=
  issue e (fun s =>
    let q := s.eng[e]
    let v := gRead q a
    if 8 ≤ v then engTrap e 0 word 0 0 s
    else putEng e (retire { q with dsb := v, resume := none }) s) s

/-! ### Data memory (R318, R319, R361 to R364) -/

/-- A pointer plus a sign-extended displacement (R361). -/
def addDisp (p : Nat) (d : BitVec 8) : Nat := (p + (d.signExtend 16).toNat) % 65536

/-- A load of data address a by engine e (R319): the byte, or the TFINFO code of its bus error. -/
def dataLoad (e : Fin 6) (a : Nat) (s : State) : Except Nat Nat :=
  if a < 0x4000 then .ok (spGet 0 s.emem[e].dmem a).toNat
  else if a < 0x8000 then (if domOn s 7 then .ok (shmByte s (s.eng[e].dsb * 0x4000 + (a - 0x4000))) else .error 3)
  else .ok 0

/-- A store (R319). -/
def dataStore (e : Fin 6) (a v : Nat) (s : State) : Except Nat State :=
  if a < 0x4000 then
    let m := s.emem[e]
    .ok { s with emem := s.emem.set e { m with dmem := spSet 0 m.dmem a (BitVec.ofNat 8 v) } }
  else if a < 0x8000 then (if domOn s 7 then .ok (shmPut (s.eng[e].dsb * 0x4000 + (a - 0x4000)) v s) else .error 3)
  else .error 1

/-- LD and LDP: Gd ← D[address], d = 3, then the increment of the pair with d = 1, which counts as the earlier writer
(R361, R362). -/
def issueLoad (e : Fin 6) (word : Nat) (d : Fin 16) (p : Fin 8) (disp : BitVec 8) (post : Bool) (s : State) : State :=
  issue e (fun s =>
    let q := s.eng[e]
    let a := if post then gpRead q p else addDisp (gpRead q p) disp
    match dataLoad e a s with
    | .error i => engTrap e 1 word a i s
    | .ok v =>
      let q1 := if post then gpWrite p 1 (addDisp (gpRead q p) disp) q else q
      putEng e (retire (gWrite d 3 v { q1 with resume := none })) s) s

/-- ST and STP (R361, R362). -/
def issueStore (e : Fin 6) (word : Nat) (g : Fin 16) (p : Fin 8) (disp : BitVec 8) (post : Bool) (s : State) : State :=
  issue e (fun s =>
    let q := s.eng[e]
    let a := if post then gpRead q p else addDisp (gpRead q p) disp
    match dataStore e a (gRead q g) s with
    | .error i => engTrap e 1 word a i s
    | .ok s1 =>
      let q1 := if post then gpWrite p 1 (addDisp (gpRead q p) disp) q else q
      putEng e (retire { q1 with resume := none }) s1) s

/-- MVB (R363); a reserved destination comes before an off domain (R375). -/
def issueMvb (e : Fin 6) (word : Nat) (a b : Fin 8) (s : State) : State :=
  issue e (fun s =>
    let q := s.eng[e]
    let pa := gpRead q a
    let pb := gpRead q b
    if 0x8000 ≤ pa then engTrap e 1 word pa 1 s
    else match dataLoad e pb s with
    | .error i => engTrap e 1 word pb i s
    | .ok v =>
      match dataStore e pa v s with
      | .error i => engTrap e 1 word pa i s
      | .ok s1 =>
        putEng e (retire (gpWrite b 1 ((pb + 1) % 65536) (gpWrite a 1 ((pa + 1) % 65536) { q with resume := none }))) s1) s

/-- ILD (R364). -/
def issueIld (e : Fin 6) (word : Nat) (d : Fin 16) (p : Fin 8) (sel : Fin 3) (s : State) : State :=
  issue e (fun s =>
    let q := s.eng[e]
    let a := gpRead q p
    if 0x4000 ≤ a then engTrap e 1 word a 5 s
    else
      let w := (spGet 0 s.emem[e].imem a).toNat
      putEng e (retire (gWrite d 3 (byteOf w sel.val) { q with resume := none })) s) s

/-- IST (R364). -/
def issueIst (e : Fin 6) (word : Nat) (g : Fin 16) (p : Fin 8) (sel : Fin 3) (s : State) : State :=
  issue e (fun s =>
    let q := s.eng[e]
    let a := gpRead q p
    if 0x4000 ≤ a then engTrap e 1 word a 5 s
    else
      let m := s.emem[e]
      let w := BitVec.ofNat 24 (setByte (spGet 0 m.imem a).toNat sel.val (gRead q g))
      putEng e (retire { q with resume := none }) { s with emem := s.emem.set e { m with imem := spSet 0 m.imem a w } }) s

/-! ### The watchdog and the timers (R343, R347) -/

/-- A new watchdog period. -/
def wdStart (w : Wdog) : Wdog := { w with cur := w.per, left := w.per * 24000, warnf := false, first := false }

/-- A write of WDKICK (R343); a bad kick stops the engine on the following edge, on which the next instruction
completes (R334, R342, R345). -/
def wdKick (e : Fin 6) (v : Nat) (s : State) : State :=
  let q := s.eng[e]
  if !q.wd.en then s
  else if v = 0x5A then putEng e { q with wd := { q.wd with first := true } } s
  else if v = 0xA5 && q.wd.first then putEng e { q with wd := wdStart q.wd } s
  else putEng e { q with badKick := true } s

/-- A write of WDCTL (R343, R348). -/
def wdCtl (e : Fin 6) (v : Nat) (s : State) : State :=
  let q := s.eng[e]
  let w := { q.wd with warn := fld v 2 1 }
  putEng e { q with wd := if v.testBit 0 && !w.en then { wdStart w with en := true } else w } s

/-- What is left of a period at its warning point, in crystal periods (R348); WARN 0 has none. -/
def wdWarnAt (w : Wdog) : Nat := w.cur * 24000 / (if w.warn = 1 then 2 else if w.warn = 2 then 4 else 8)

/-- WATCHDOG_WARNING (R343). -/
def wdWarn (e : Fin 6) (s : State) : State :=
  let q := s.eng[e]
  if domOn s (engDom e.val) && q.wd.en && q.wd.warn ≠ 0 && decide (q.wd.left ≤ wdWarnAt q.wd) && q.run ≠ .stopped then
    putEng e { q with wd := { q.wd with warnf := true } } s
  else s

/-- WATCHDOG_EXPIRY (R342, R343). -/
def wdExpire (e : Fin 6) (s : State) : State :=
  let q := s.eng[e]
  if domOn s (engDom e.val) && q.wd.en && q.wd.left = 0 && (q.run = .running || q.run = .waiting) then engStop e 1 q.pc s else s

/-- A write of TMRnCTL (R347). -/
def tmrCtl (v : Nat) (t : Tmr) : Tmr :=
  let start := v.testBit 0 && !t.en
  { t with flag := t.flag && !v.testBit 7, pre := fld v 3 2, per := v.testBit 1, en := v.testBit 0
           cnt := if start then t.rld else t.cnt, sub := if start then 0 else t.sub }

/-- TIMER_EXPIRY: a tick finds COUNT at 0 (R347). -/
def tmrExpire (e : Fin 6) (n : Fin 2) (s : State) : State :=
  let q := s.eng[e]
  let t := q.tmr[n]
  if domOn s (engDom e.val) && t.en && t.cnt = 0 then
    putEng e { q with tmr := q.tmr.set n (if t.per then { t with flag := true, cnt := t.rld } else { t with flag := true, en := false }) } s
  else s

/-- One CK of a timer: COUNT falls on each prescaled tick and waits at 0 for the expiry (R347). -/
def tmrTick (t : Tmr) : Tmr :=
  if !t.en then t
  else if t.sub + 1 < (if t.pre = 0 then 1 else if t.pre = 1 then 16 else if t.pre = 2 then 256 else 4096) then { t with sub := t.sub + 1 }
  else { t with sub := 0, cnt := t.cnt - 1 }

/-- One CK of an engine: its cycle counter and timers; the watchdog on a crystal period (R343, R347). -/
def engTick (xtal : Bool) (q : Ceng) : Ceng :=
  { q with cyc := q.cyc + 1, tmr := q.tmr.map tmrTick
           wd := if xtal && q.wd.en then { q.wd with left := q.wd.left - 1 } else q.wd }

/-! ### XSIG (R336) -/

/-- A write of XSIG by engine e. -/
def xsigWrite (e : Fin 6) (mask : Nat) (s : State) : State :=
  { s with eng := Vector.ofFn (fun (n : Fin 6) =>
    let q := s.eng[n]
    if mask.testBit n.val && domOn s (engDom n.val) then { q with xpend := setBit q.xpend e.val true } else q) }

/-! ### Engine-local registers (R346 to R349) -/

/-- A write of a local register of engine e. -/
def locWrite (e : Fin 6) (off v : Nat) (s : State) : State :=
  let q := s.eng[e]
  let err : State := putEng e { q with err := true } s
  let gov := some (q.ie, q.intrap, q.irqen)
  let tf (f : TrapFrame) : State := putEng e { q with tf := f } s
  if off = 0x01 then putEng e { q with err := q.err && !v.testBit 0 } s
  else if off = 0x02 then if 8 ≤ v then err else putEng e { q with dsb := v } s
  else if off = 0x03 then putEng e { q with ivbase := v } s
  else if off = 0x04 then putEng e { q with ie := v.testBit 0, intrap := v.testBit 1, gov := gov } s
  else if off = 0x0C then putEng e { q with irqen := v % 2 ^ 22, gov := gov } s
  else if off = 0x10 then xsigWrite e v s
  else if off = 0x11 then putEng e { q with xpend := w1c 6 q.xpend v } s
  else if off = 0x12 then putEng e { q with estop := w1c 6 q.estop v } s
  else if off = 0x20 then putEng e { q with tmr := q.tmr.set 0 (tmrCtl v q.tmr[0]) } s
  else if off = 0x28 then putEng e { q with tmr := q.tmr.set 1 (tmrCtl v q.tmr[1]) } s
  else if off = 0x21 then putEng e { q with tmr := q.tmr.set 0 { q.tmr[0] with rld := v % 2 ^ 24 } } s
  else if off = 0x29 then putEng e { q with tmr := q.tmr.set 1 { q.tmr[1] with rld := v % 2 ^ 24 } } s
  else if off = 0x40 then wdCtl e v s
  else if off = 0x41 then
    let p := v % 1024
    if p = 0 || 1000 < p then err else putEng e { q with wd := { q.wd with per := p } } s
  else if off = 0x43 then wdKick e v s
  else if off = 0x44 then putEng e { q with wd := { q.wd with warnf := q.wd.warnf && !v.testBit 0 } } s
  else if off = 0x50 then tf { q.tf with pc := v % 65536 }
  else if off = 0x56 then
    if v.testBit 3 && v.testBit 2 then err else tf { q.tf with repv := v.testBit 3, ds := v.testBit 2, ie := v.testBit 1 }
  else if off = 0x57 then tf { q.tf with tgt := v % 65536 }
  else if off = 0x59 then tf { q.tf with rep := v % 65536 }
  else s

end Sys2Proof.Machine
end

