-- ==== Sys2Proof/Machine/Cerxa.lean ====
section
/-! DEFINITION. The Cerxa instruction words: the formats, the encoder and the decoder of the opcode table, and the values
of the arithmetic instructions (10 R350 to R356, R365). -/

namespace Sys2Proof.Machine

/-! ### Formats (R350) -/

/-- Format N: d, a, b, x. -/
def wordN (op d a b x : Nat) : Nat := op * 65536 + d * 4096 + a * 256 + b * 16 + x

/-- Format I, M, B or BI with the two nibbles and the low byte; J and X fall under it too. -/
def wordI (op d a k : Nat) : Nat := op * 65536 + d * 4096 + a * 256 + k

/-- Format J. -/
def wordJ (op k : Nat) : Nat := op * 65536 + k

/-- Format X. -/
def wordX (op d port : Nat) : Nat := op * 65536 + d * 4096 + port

/-! ### Instructions (R351, R352) -/

/-- The two-operand instructions with x = 0, in the order of their opcodes 0x01 to 0x16. -/
inductive AluOp where
  | add | sub | carry | borrow | and | or | xor | shl | shr | sar | mull | mulh | seq | sltu | slts | addd | subd | dcar
  deriving DecidableEq, Repr

/-- The instructions with a carry or borrow in. -/
inductive CinOp where
  | addc | subc | carryc | borrowc
  deriving DecidableEq, Repr

/-- The instructions with an 8-bit immediate. -/
inductive ImmOp where
  | addi | andi | ori | xori | seqi | sltiu
  deriving DecidableEq, Repr

/-- The shifts by an immediate count. -/
inductive ShiftOp where
  | shli | shri | sari
  deriving DecidableEq, Repr

/-- The register accesses of format M: the data and I/O spaces, and the post-increment forms. -/
inductive MemOp where
  | ld | st | ldp | stp | inr | outr
  deriving DecidableEq, Repr

/-- The compare-and-branch instructions of format B. -/
inductive BrOp where
  | beq | bne | bltu | bgeu | blts | bges
  deriving DecidableEq, Repr

/-- The instructions of format J with imm16. -/
inductive JmpOp where
  | jmp | call | trap | rep | repu
  deriving DecidableEq, Repr

/-- The instructions whose every field but the opcode is 0. -/
inductive BareOp where
  | nop | ret | rett | wait | snap | repCnt | repuCnt
  deriving DecidableEq, Repr

/-- One Cerxa instruction with its fields; no field can hold a reserved value. -/
inductive Cx where
  | bare (op : BareOp)
  | alu (op : AluOp) (d a b : Fin 16)
  | cin (op : CinOp) (d a b x : Fin 16)
  | daa (d a : Fin 16)
  | imm (op : ImmOp) (d a : Fin 16) (k : BitVec 8)
  | shift (op : ShiftOp) (d a : Fin 16) (n : Fin 8)
  | movi (d : Fin 16) (k : BitVec 8)
  | addp (d a : Fin 8) (k : BitVec 8)
  | mfs (r : SReg)
  | mts (r : SReg)
  | mem (op : MemOp) (d : Fin 16) (p : Fin 8) (disp : BitVec 8)
  | mvb (a b : Fin 8)
  | im (store : Bool) (d : Fin 16) (p : Fin 8) (sel : Fin 3)
  | io (store : Bool) (d : Fin 16) (port : BitVec 12)
  | br (op : BrOp) (a b : Fin 16) (off : BitVec 8)
  | bri (ne : Bool) (a : Fin 16) (k : BitVec 4) (off : BitVec 8)
  | jmp (op : JmpOp) (k : BitVec 16)
  | jr (link : Bool) (p : Fin 8)
  deriving DecidableEq, Repr

/-- The opcodes of the groups (R352). -/
def AluOp.code : AluOp → Nat
  | .add => 0x01 | .sub => 0x02 | .carry => 0x05 | .borrow => 0x07 | .and => 0x09 | .or => 0x0A | .xor => 0x0B | .shl => 0x0C
  | .shr => 0x0D | .sar => 0x0E | .mull => 0x0F | .mulh => 0x10 | .seq => 0x11 | .sltu => 0x12 | .slts => 0x13 | .addd => 0x14
  | .subd => 0x15 | .dcar => 0x16

def CinOp.code : CinOp → Nat | .addc => 0x03 | .subc => 0x04 | .carryc => 0x06 | .borrowc => 0x08

def ImmOp.code : ImmOp → Nat | .addi => 0x20 | .andi => 0x21 | .ori => 0x22 | .xori => 0x23 | .seqi => 0x27 | .sltiu => 0x28

def ShiftOp.code : ShiftOp → Nat | .shli => 0x24 | .shri => 0x25 | .sari => 0x26

def MemOp.code : MemOp → Nat | .ld => 0x40 | .st => 0x41 | .ldp => 0x42 | .stp => 0x43 | .inr => 0x52 | .outr => 0x53

def BrOp.code : BrOp → Nat | .beq => 0x60 | .bne => 0x61 | .bltu => 0x62 | .bgeu => 0x63 | .blts => 0x64 | .bges => 0x65

def JmpOp.code : JmpOp → Nat | .jmp => 0x70 | .call => 0x71 | .trap => 0x78 | .rep => 0x80 | .repu => 0x81

def BareOp.code : BareOp → Nat
  | .nop => 0x00 | .ret => 0x74 | .rett => 0x79 | .wait => 0x7A | .snap => 0x7B | .repCnt => 0x82 | .repuCnt => 0x83

/-- The b field and the register field of a special register operand (R365). -/
def sregFields : SReg → Nat × Nat
  | .cnt n => (0, n.val) | .lnk n => (1, n.val) | .dsb g => (2, g.val) | .iob n => (3, n.val)

/-- The 24-bit word of an instruction as a number (R350 to R352). -/
def Cx.word : Cx → Nat
  | .bare op => wordJ op.code 0
  | .alu op d a b => wordN op.code d.val a.val b.val 0
  | .cin op d a b x => wordN op.code d.val a.val b.val x.val
  | .daa d a => wordN 0x17 d.val a.val 0 0
  | .imm op d a k => wordI op.code d.val a.val k.toNat
  | .shift op d a n => wordI op.code d.val a.val n.val
  | .movi d k => wordI 0x29 d.val 0 k.toNat
  | .addp d a k => wordI 0x2A d.val a.val k.toNat
  | .mfs r => wordN 0x30 (sregFields r).2 0 (sregFields r).1 0
  | .mts r => wordN 0x31 0 (sregFields r).2 (sregFields r).1 0
  | .mem op d p k => wordI op.code d.val p.val k.toNat
  | .mvb a b => wordN 0x44 0 a.val b.val 0
  | .im st d p sel => wordI (if st then 0x49 else 0x48) d.val p.val sel.val
  | .io st d port => wordX (if st then 0x51 else 0x50) d.val port.toNat
  | .br op a b off => wordI op.code a.val b.val off.toNat
  | .bri ne a k off => wordI (if ne then 0x69 else 0x68) a.val k.toNat off.toNat
  | .jmp op k => wordJ op.code k.toNat
  | .jr link p => wordN (if link then 0x73 else 0x72) 0 p.val 0 0

/-- The word of an instruction. -/
def Cx.encode (c : Cx) : IWord := BitVec.ofNat 24 c.word

/-! ### The decoder (R350 to R352, R374) -/

/-- The value when the condition on the other fields holds: fields marked 0 and reserved values. -/
def given (b : Bool) (c : Cx) : Option Cx := if b then some c else none

/-- The special register operand of field b and register field r. -/
def sregOf (b r : Nat) : Option SReg :=
  if b = 2 then some (.dsb (finOf 16 r))
  else if 8 ≤ r then none
  else if b = 0 then some (.cnt (finOf 8 r)) else if b = 1 then some (.lnk (finOf 8 r)) else if b = 3 then some (.iob (finOf 8 r))
  else none

/-- The instruction of a word given as a number; none for an undefined opcode or a reserved field value. -/
def cxDecode (w : Nat) : Option Cx :=
  let op := w / 65536
  let d := w / 4096 % 16
  let a := w / 256 % 16
  let b := w / 16 % 16
  let x := w % 16
  let k := w % 256
  let j := w % 65536
  let D : Fin 16 := finOf 16 d
  let A : Fin 16 := finOf 16 a
  let B : Fin 16 := finOf 16 b
  let dp : Fin 8 := finOf 8 d
  let ap : Fin 8 := finOf 8 a
  let K : BitVec 8 := BitVec.ofNat 8 k
  let J : BitVec 16 := BitVec.ofNat 16 j
  let bare (o : BareOp) : Option Cx := given (j = 0) (.bare o)
  let alu (o : AluOp) : Option Cx := given (x = 0) (.alu o D A B)
  let cin (o : CinOp) : Option Cx := some (.cin o D A B (finOf 16 x))
  let mem (o : MemOp) : Option Cx := given (a < 8) (.mem o D ap K)
  let shift (o : ShiftOp) : Option Cx := given (k < 8) (.shift o D A (finOf 8 k))
  match op with
  | 0x00 => bare .nop
  | 0x01 => alu .add | 0x02 => alu .sub | 0x03 => cin .addc | 0x04 => cin .subc
  | 0x05 => alu .carry | 0x06 => cin .carryc | 0x07 => alu .borrow | 0x08 => cin .borrowc
  | 0x09 => alu .and | 0x0A => alu .or | 0x0B => alu .xor
  | 0x0C => alu .shl | 0x0D => alu .shr | 0x0E => alu .sar | 0x0F => alu .mull | 0x10 => alu .mulh
  | 0x11 => alu .seq | 0x12 => alu .sltu | 0x13 => alu .slts
  | 0x14 => alu .addd | 0x15 => alu .subd | 0x16 => alu .dcar
  | 0x17 => given (k = 0) (.daa D A)
  | 0x20 => some (.imm .addi D A K) | 0x21 => some (.imm .andi D A K) | 0x22 => some (.imm .ori D A K)
  | 0x23 => some (.imm .xori D A K)
  | 0x24 => shift .shli | 0x25 => shift .shri | 0x26 => shift .sari
  | 0x27 => some (.imm .seqi D A K) | 0x28 => some (.imm .sltiu D A K)
  | 0x29 => given (a = 0) (.movi D K)
  | 0x2A => given (d < 8 && a < 8) (.addp dp ap K)
  | 0x30 => if a = 0 && x = 0 then (sregOf b d).map Cx.mfs else none
  | 0x31 => if d = 0 && x = 0 then (sregOf b a).map Cx.mts else none
  | 0x40 => mem .ld | 0x41 => mem .st | 0x42 => mem .ldp | 0x43 => mem .stp
  | 0x44 => given (d = 0 && x = 0 && a < 8 && b < 8) (.mvb ap (finOf 8 b))
  | 0x48 => given (a < 8 && k < 3) (.im false D ap (finOf 3 k))
  | 0x49 => given (a < 8 && k < 3) (.im true D ap (finOf 3 k))
  | 0x50 => some (.io false D (BitVec.ofNat 12 (w % 4096)))
  | 0x51 => some (.io true D (BitVec.ofNat 12 (w % 4096)))
  | 0x52 => mem .inr | 0x53 => mem .outr
  | 0x60 => some (.br .beq D A K) | 0x61 => some (.br .bne D A K) | 0x62 => some (.br .bltu D A K)
  | 0x63 => some (.br .bgeu D A K) | 0x64 => some (.br .blts D A K) | 0x65 => some (.br .bges D A K)
  | 0x68 => some (.bri false D (BitVec.ofNat 4 a) K) | 0x69 => some (.bri true D (BitVec.ofNat 4 a) K)
  | 0x70 => some (.jmp .jmp J) | 0x71 => some (.jmp .call J)
  | 0x72 => given (d = 0 && k = 0 && a < 8) (.jr false ap)
  | 0x73 => given (d = 0 && k = 0 && a < 8) (.jr true ap)
  | 0x74 => bare .ret
  | 0x78 => some (.jmp .trap J)
  | 0x79 => bare .rett | 0x7A => bare .wait | 0x7B => bare .snap
  | 0x80 => some (.jmp .rep J) | 0x81 => some (.jmp .repu J)
  | 0x82 => bare .repCnt | 0x83 => bare .repuCnt
  | _ => none

/-- The instruction that a word encodes. -/
def Cx.decode (w : IWord) : Option Cx := cxDecode w.toNat

/-! ### Values (R352 to R356) -/

/-- Bit 0 of a byte: the carry or borrow in. -/
def cinBit (x : Nat) : Nat := x % 2

/-- The byte that says whether a comparison holds. -/
def truth (b : Bool) : Nat := if b then 1 else 0

/-- SHL, SHR and SAR of a byte by a count of 0 to 255 (R354). -/
def shlByte (a n : Nat) : Nat := a * 2 ^ n % 256
def shrByte (a n : Nat) : Nat := a / 2 ^ n
def sarByte (a n : Nat) : Nat := ofSigned 8 (toSigned 8 a / ((2 ^ n : Nat) : Int))

/-- dec(x) of a packed decimal byte, and BCD(v) of 0 to 99 (R355). -/
def decOf (x : Nat) : Nat := 10 * (x / 16 % 16) + x % 16
def bcdOf (v : Nat) : Nat := v / 10 * 16 + v % 10

/-- The value of a two-operand instruction (R352 to R356). -/
def AluOp.eval (op : AluOp) (a b : Nat) : Nat :=
  match op with
  | .add => (a + b) % 256
  | .sub => ofSigned 8 ((a : Int) - b)
  | .carry => truth (decide (256 ≤ a + b))
  | .borrow => truth (decide (a < b))
  | .and => a &&& b
  | .or => a ||| b
  | .xor => a ^^^ b
  | .shl => shlByte a b
  | .shr => shrByte a b
  | .sar => sarByte a b
  | .mull => a * b % 256
  | .mulh => a * b / 256
  | .seq => truth (decide (a = b))
  | .sltu => truth (decide (a < b))
  | .slts => truth (decide (toSigned 8 a < toSigned 8 b))
  | .addd => bcdOf ((decOf a + decOf b) % 100)
  | .subd => bcdOf (((decOf a : Int) - (decOf b : Int)) % 100).toNat
  | .dcar => (decOf a + decOf b) / 100

/-- The value of an instruction with a carry or borrow in (R353). -/
def CinOp.eval (op : CinOp) (a b x : Nat) : Nat :=
  match op with
  | .addc => (a + b + cinBit x) % 256
  | .subc => ofSigned 8 ((a : Int) - b - cinBit x)
  | .carryc => truth (decide (256 ≤ a + b + cinBit x))
  | .borrowc => truth (decide (a < b + cinBit x))

/-- The condition of a compare-and-branch (R352, R357). -/
def BrOp.taken (op : BrOp) (a b : Nat) : Bool :=
  match op with
  | .beq => a = b
  | .bne => a ≠ b
  | .bltu => decide (a < b)
  | .bgeu => decide (b ≤ a)
  | .blts => decide (toSigned 8 a < toSigned 8 b)
  | .bges => decide (toSigned 8 b ≤ toSigned 8 a)

/-! ### Special registers (R365) -/

/-- MFS: the destination takes the special register as the instruction reads it. -/
def sregGet (r : SReg) (q : Ceng) : Ceng :=
  match r with
  | .cnt n => gpWrite n 1 (cellRead q.idx q.cnt) q
  | .lnk n => gpWrite n 1 q.lnk q
  | .dsb g => gWrite g 1 q.dsb q
  | .iob n => gpWrite n 1 q.iob q

/-- MTS of CNT, LNK and IOB; DSB has its own check (issueMtsDsb). -/
def sregPut (r : SReg) (q : Ceng) : Ceng :=
  match r with
  | .cnt n => { q with cnt := cellWrite q.idx 1 (gpRead q n) q.cnt }
  | .lnk n => { q with lnk := gpRead q n }
  | .dsb _ => q
  | .iob n => { q with iob := gpRead q n }

/-- MTS (R365). -/
def issueMts (e : Fin 6) (r : SReg) (s : State) : State :=
  match r with
  | .dsb g => issueMtsDsb e (Cx.mts r).word g s
  | _ => issueReg e (sregPut r) s

/-- SNAP: an internal snapshot trigger of engine e (R345, R461); in a repeat or a delay slot it is an instruction like
any other. -/
def issueSnap (e : Fin 6) (same : Bool) (s : State) : State :=
  issue e (fun s => trigSnap same 4 (putEng e (retire { s.eng[e] with resume := none }) s)) s

/-- TRAP: in a delay slot it takes ILLEGAL (R331, R337); after a repeat prefix it cannot stand (R368). -/
def issueTrap (e : Fin 6) (word : Nat) (s : State) : State :=
  issue e (fun s =>
    if s.eng[e].ds.isSome || s.eng[e].rep.isSome then engTrap e 0 word 0 0 s else engSwTrap e word s) s

/-- UNDEFINED_OPCODE: the word acts only when the decoder refuses it (R374). -/
def issueIllegal (e : Fin 6) (w : IWord) (s : State) : State := if (Cx.decode w).isNone then engIllegal e w.toNat s else s

/-- FETCH: the engine reaches an address of 0x4000 or above (R321). -/
def issueFetch (e : Fin 6) (s : State) : State := if 0x4000 ≤ s.eng[e].pc then issue e id s else s

end Sys2Proof.Machine
end

