-- ==== Sys2Proof/Machine/Chg.lean ====
section
/-! DEFINITION. The charger: agreement checks, the period start with its states, contour steps and loops, telemetry,
the safety timer, protection, the input port, battery removal and reverse boost (04 R143 to R198). -/

namespace Sys2Proof.Machine

/-! ### Agreement checks (R197) -/

/-- The code of the first failing CHG agreement check on a staged set, 0 when all pass; the ceilings are PRT's. -/
def chgCheck (g : Nat → Nat) (ceilv ceili ceilrbv ceilrbi : Nat) : Nat :=
  let tz (i : Nat) : Int := toSigned 8 (g (0x16 + i))
  let gaps := (upTo 4).map (fun i => tz (i + 2) - tz (i + 1))
  let steps (z : Nat) : Nat := fld (g (0x11 + z)) 2 0
  let i (z k : Nat) : Nat := g (0x10000 + 8 * z + 2 * k)
  let v (z k : Nat) : Nat := g (0x10000 + 8 * z + 2 * k + 1)
  let zones := (upTo 6).filter (fun z => decide (1 ≤ steps z))
  let badSteps (z : Nat) : Bool := (upTo (steps z)).any (fun k =>
    i z k = 0 || (k ≠ 0 && (decide (v z k ≤ v z (k - 1)) || decide (i z (k - 1) < i z k))))
  let cov := g 0x25
  let n := g 0x10
  if gaps.any (fun d => decide (d ≤ 0)) || gaps.any (fun d => decide (d ≤ (g 0x1C : Int))) then 0x01
  else if zones.any badSteps then 0x02
  else if zones.any (fun z => decide (cov < v z (steps z - 1) + 50)) then 0x03
  else if zones.any (fun z => (upTo (steps z)).any (fun k => decide (ceili < i z k)) || decide (ceilv < v z (steps z - 1)))
      || decide (ceili < g 0x1F) then 0x04
  else if g 0x1F = 0 || zones.any (fun z => decide (v z 0 ≤ g 0x21) || decide (i z (steps z - 1) ≤ g 0x1D)) then 0x05
  else if g 0x21 ≤ g 0x28 then 0x06
  else if g 0x2C < 180 || g 0x2E ≤ g 0x2C || 2600 < g 0x2E then 0x07
  else if g 0x32 < 200 || 600 < g 0x32 || g 0x35 = 0 || g 0x34 < g 0x35 || g 0x32 < 16 * g 0x34 then 0x08
  else if g 0x45 < 250 || 1000 < g 0x45 || ceilrbv < g 0x45 || g 0x47 = 0 || 65 < g 0x47 || ceilrbi < g 0x47 then 0x09
  else if 20 * g 0x30 < n * 3000 || decide ((n : Int) * ((cov : Int) - 50) < 20 * (g 0x30 : Int)) then 0x0A
  else if g 0x3B < 16 || g 0x3E = 0 || g 0x3F = 0 then 0x0B
  else 0

/-! ### Flags and states -/

/-- Sets bits of CFLT, and CIS.FAULT with them (R193). -/
def cfltSet (m : Nat) (s : State) : State :=
  raiseWake 0xA (setHint 9 { s with chg := { s.chg with flt := s.chg.flt ||| m, cis := s.chg.cis ||| 0x02 } })

/-- Sets bits of CIS (R193); CIS.INPUT is a wake event (R439). -/
def cisSet (m : Nat) (s : State) : State :=
  let s1 := { s with chg := { s.chg with cis := s.chg.cis ||| m } }
  if m.testBit 6 then raiseWake 0xA s1 else s1

/-- The CEND code of a change into a state that ends a charge (R154). The table gives PROTECT 0x6 and 0x8 and no order between them:
with CFLT.OVP latched and the trip line asserted it is 0x6 (DESIGN CHOICE, log entry 34). -/
def cendCode (s : State) (st : Nat) : Option Nat :=
  if st = 0x8 then some 0x1 else if st = 0x9 then some 0x2 else if st = 0xA then some 0x3
  else if st = 0x3 then some 0x4
  else if st = 0x1 then some (if s.chp.isol then 0x4 else 0x5)
  else if st = 0xC then some (if s.chg.flt.testBit 0 then 0x6 else 0x8)
  else if st = 0xB then some (if s.chg.flt.testBit 3 then 0x7 else 0xA)
  else if st = 0x0 then some 0x9
  else none

/-- A change of STATE (R153, R154): CEND when it ends a charge, CIS.STATE, the timer of R153 and CTIME of R185. The precharge
counter of R164 goes back to 0 where the safety timer does, and a write that clears PRETMO leaves it: the spec gives it no reset
of its own (DESIGN CHOICE, log entry 34). -/
def chgEnter (st : Nat) (s : State) : State :=
  let q := s.chg
  if q.st = st then s else
  let charging (x : Nat) : Bool := x = 4 || x = 5
  let ends := q.inProg && (charging q.st || q.st = 6 || q.st = 7)
  let start := charging st && !q.inProg
  let s1 := match (if ends then cendCode s st else none) with
    | some c => { s with
        chg := { q with cend := c, inProg := false }
        cht := { s.cht with ctime := if c = 1 then s.cht.ctime else 0xFFFF, ctimeRun := none } }
    | none =>
      if start then { s with
        chg := { q with inProg := true }
        cht := { s.cht with ctime := 0xFFFF, ctimeRun := none, above := s.chp.fcc ≠ 0 && decide (100 < chgSoc s) } }
      else s
  let z := st = 0 || st = 1 || st = 3 || st = 8 || st = 0xD
  setHint 9 { s1 with chg := { s1.chg with st := st, cis := s1.chg.cis ||| 0x01
                                           timer := if z then 0 else s1.chg.timer, pre := if z then 0 else s1.chg.pre } }

/-- The states in which the stage switches (R153). -/
def switching (st : Nat) : Bool := st = 3 || (4 ≤ st && st ≤ 0xB) || st = 0xD

/-! ### The period start (R146 to R159) -/

/-- The stage mode that the ratio a / b selects (R146): 1 buck, 2 buck-boost, 3 boost; 0 is idle before. From idle a ratio from
0.86 to 1.14 takes buck-boost, which R146 enters from buck and from boost only; from buck a ratio above 1.14 takes boost, and from
boost one below 0.86 buck, where R146 would also let buck-boost be entered (DESIGN CHOICE for both, log entry 34). -/
def stageMode (mode : Nat) (a b : Int) : Nat :=
  let lt (n : Int) : Bool := decide (100 * a < n * b)
  let gt (n : Int) : Bool := decide (n * b < 100 * a)
  if mode = 1 then (if gt 114 then 3 else if gt 90 then 2 else 1)
  else if mode = 3 then (if lt 86 then 1 else if lt 110 then 2 else 3)
  else if lt 86 then 1 else if gt 114 then 3 else 2

/-- The gate outputs at a period start: CGH1, CGL1, CGL2, CGH2 from bit 3 to bit 0 (R146). -/
def startGates (rev : Bool) (mode : Nat) : Nat :=
  if mode = 0 then 0
  else if rev then (if mode = 1 then 0b1001 else if mode = 2 then 0b0101 else 0b0101)
  else (if mode = 1 then 0b1001 else 0b1010)

/-- The gate outputs after the running on-time has ended and the complementary switch is on (R148, R149). -/
def endGates (rev : Bool) (mode : Nat) : Nat :=
  if mode = 0 then 0
  else if rev then (if mode = 1 then 0b1010 else if mode = 2 then 0b1010 else 0b1001)
  else (if mode = 1 then 0b0101 else if mode = 2 then 0b0101 else 0b1001)

/-- The CK after a turn-off in which the complementary switch may turn on: DTMIN + MPDT clamped to 1 to DT, and DT; both
scaled to the crystal (R148, R188, R400). -/
def deadWindow (s : State) : Nat × Nat :=
  let ck (k : Nat) : Nat := if s.clk.ckPll then chgLive s k else (chgLive s k + 9) / 10
  ((clampI 1 (ck 0x34) (ck 0x35 + toSigned 8 s.chp.mpLive.2.1)).toNat, ck 0x34)

/-- The gate outputs t CK after they begin to change from a to b (R148): where a switch turns off, what is to turn on waits for the
end of the dead time, at which the switch node has arrived `arrive` CK after the turn-off, or DT is over. -/
def deadGates (s : State) (a b t arrive : Nat) : Nat :=
  let x := BitVec.ofNat 4 a
  let y := BitVec.ofNat 4 b
  if x &&& ~~~y ≠ 0 && decide (t < max (deadWindow s).1 (min arrive (deadWindow s).2)) then (x &&& y).toNat else b

/-- The gate outputs t CK after their last change in the state, which a period start or the cut of an on-time makes (R146 to R149):
after a period start the main switches from the dead time on, and the complementary ones after the on-time. -/
def gatesAt (s : State) (t arrive : Nat) : Nat :=
  let q := s.chg
  let a := startGates (q.rb ≠ 0) q.mode
  if q.gates ≠ a then deadGates s q.gatesWas q.gates t arrive
  else if t < q.onCk then deadGates s q.gatesWas a t arrive
  else deadGates s (if q.onCk = 0 then q.gatesWas else a) (endGates (q.rb ≠ 0) q.mode) (t - q.onCk) arrive

/-- The CK of a switching period, scaled to the crystal (R147, R188, R400). -/
def switchCk (s : State) : Nat := if s.clk.ckPll then chgLive s 0x32 else (chgLive s 0x32 + 5) / 10

/-- The gate outputs at the end of a period: the complementary ones where its on-time has ended (R147, R148). -/
def gatesEnd (s : State) : Nat :=
  let q := s.chg
  if q.mode ≠ 0 && q.gates = startGates (q.rb ≠ 0) q.mode && q.onCk < switchCk s then endGates (q.rb ≠ 0) q.mode else q.gates

/-- The running on-time ends, and the complementary switches follow (R148, R149, R175). ended says that the on-time of the period
has come to its own end before; one that has been cut runs no more. -/
def endOnTime (ended : Bool) (s : State) : State :=
  if s.chg.mode ≠ 0 && !ended && s.chg.gates = startGates (s.chg.rb ≠ 0) s.chg.mode then
    { s with chg := { s.chg with gates := endGates (s.chg.rb ≠ 0) s.chg.mode, gatesWas := s.chg.gates } }
  else s

/-- The lowest step of a zone whose effective voltage exceeds the highest cell (R157). -/
def selectStep (s : State) (z : Nat) (hc : Int) : Option Nat :=
  (upTo (zoneSteps s z)).find? (fun k => decide (hc < veff s z k))

/-- The restart conditions of R163. -/
def restartMet (s : State) (hc : Int) : Bool :=
  let z := s.chg.zone
  decide (1 ≤ zoneSteps s z) && !zoneDerate s z && decide (hc < veffFinal s z - chgLive s 0x23)

/-- The state that R154 selects. -/
def chgNextState (s : State) (m : ChgMeas) : Nat :=
  let q := s.chg
  let z := q.zone
  let hc := maxInt (cellsOf s m)
  let lc := minInt (cellsOf s m)
  let vpre : Int := chgLive s 0x21
  let full := decide (veffFinal s z ≤ hc)
  let precharge := decide (lc < vpre) || (q.st = 4 && decide (lc < vpre + 100))
  if !q.en then 0x0
  else if q.flt.testBit 0 || chgTripLine s then 0xC
  else if q.rb = 2 then 0xD
  else if !inputValid s then 0x1
  else if !s.chp.attached then 0x2
  else if s.chp.isol then 0x3
  else if q.flt.testBit 2 || q.flt.testBit 3 then 0xB
  else if q.expKind.isSome && !restartMet s hc then (if q.expKind = some true then 0xA else 0x9)
  else if z = 7 || zoneSteps s z = 0 then 0x7
  else if q.termHeld then 0x8
  else if full && (q.st = 6 || (q.st = 5 && q.zoneP ≠ z) || (!precharge && q.st ≠ 5)) then 0x6
  else if precharge then 0x4
  else 0x5

/-- The charge-current target before and after the ITHLIM and ceiling clamps, in mA (R150, R158, R170). Outside PRECHARGE and CHARGE
it is 0 mA, so that entering or leaving one of these counts as a change of target for R184 (DESIGN CHOICE, log entry 34). -/
def chargeTarget (s : State) : Int × Int :=
  let q := s.chg
  let raw := if q.st = 4 then min (10 * (chgLive s 0x1F : Int)) (ichg s q.zone 0) else ichg s q.zone q.step
  if q.st = 4 || q.st = 5 then (min raw (10 * s.prt.ceili), min (min raw (10 * s.prt.ceili)) (10 * s.chp.ithlim))
  else (0, 0)

/-- The voltage target per cell in PRECHARGE and CHARGE (R150). In PRECHARGE, where R157 has selected no step, it is that of step
0 (DESIGN CHOICE, log entry 34). -/
def cellTarget (s : State) : Int := veff s s.chg.zone (if s.chg.st = 5 then s.chg.step else 0)

/-- The input-current target in mA: IINLIM, at most 6.50 A. The spec states the bound and no check of it; a larger value
acts as 6.50 A (DESIGN CHOICE, log entry 49). -/
def iinLimit (s : State) : Int := 10 * (min 650 (chgLive s 0x2A) : Nat)

/-- RBV under its ceiling, in mV (R170, R180). -/
def rbGoal (s : State) : Int := 20 * (min (chgLive s 0x45) s.prt.ceilrbv : Nat)

/-- The port current limit of reverse boost in mA: min(RBI, CEILRBI, 65 W / RBV) (R170, R180). -/
def rbLimit (s : State) : Rat := min (50 * (min (chgLive s 0x47) s.prt.ceilrbi : Nat)) (65000000 / (20 * (chgLive s 0x45 : Rat)))

/-- The binding loop and its demand (R150): 0 primary, 1 cell, 2 pack, 3 input current, 4 input voltage, 5 junction. -/
def bindLoop (s : State) (m : ChgMeas) (d : ChgDemand) : Nat × Int :=
  let charging := s.chg.st = 4 || s.chg.st = 5
  let n : Int := chgLive s 0x10
  let t := cellTarget s
  let cand : List (Nat × Int × Bool) := [
    (1, d.cell, charging && decide (t - 10 ≤ maxInt (cellsOf s m))),
    (2, d.pack, charging && decide (n * t - n * 10 ≤ m.pack)),
    (3, d.iin, s.chp.acg && s.chg.rb = 0 && decide (98 * iinLimit s ≤ 100 * m.iin)),
    (4, d.vin, s.chp.acg && s.chg.rb = 0 && decide (100 * m.vin ≤ 102 * 20 * (chgLive s 0x2C : Int))),
    (5, d.tj, decide (16 * ((chgLive s 0x40 : Int) - 2) ≤ m.tj))]
  cand.foldl (fun a c => if c.2.2 && decide (c.2.1 < a.2) then (c.1, c.2.1) else a) (0, d.primary)

/-- Reverse boost stops (R181): ACG and the gates go off and RB_STOP carries the cause. -/
def rbHalt (cause : Nat) (s : State) : State :=
  if s.chg.rb = 0 then s else
  logRec 0x06 0x0E [cause] { s with
    chg := { s.chg with rb := 0, rbStop := 0, gates := 0, mode := 0, modeNext := 0 }
    chp := { s.chp with acg := false, attached := false } }

/-- Step 4 of R177: BATT_INSERTED at the period start that leaves SYSREG. -/
def insertLog (s : State) : State :=
  match s.chp.insDue with
  | some pack => logRec 0x06 0x08 [pack] (cisSet 0x08 { s with chp := { s.chp with insDue := none } })
  | none => s

/-- The whole-CK on-time of a period from 1/16 CK, spread over 16 periods (R147). -/
def dither (on acc : Nat) : Nat × Nat := ((on + acc) / 16, (on + acc) % 16)

/-- A pending set of CHG becomes live (R45). -/
def chgTakeSet (s : State) : State :=
  match s.chg.cfg.pnd with
  | none => s
  | some set => { s with chg := { s.chg with cfg := { s.chg.cfg with live := set, pnd := none } } }

/-- PERIOD_START: the measurements of the previous period, the loop demands and the on-time in 1/16 CK (R146, R147,
R150, R154, R157, R175, R179, R180). It is the boundary at which a pending set becomes live (R45). Of a stop of reverse boost by
EN = 0 and another cause that waits, RB_STOP names EN = 0 (DESIGN CHOICE, log entry 34). -/
def chgPeriod (m : ChgMeas) (d : ChgDemand) (on : Nat) (s : State) : State :=
  if !domOn s 1 then s else
  let gatesWas := gatesEnd s
  let s := chgTakeSet s
  -- margin-plan registers, VIN validity and a pending reverse-boost stop apply at the period start
  let ovp : Int := 20 * (chgLive s 0x2E : Int)
  let vinOk := decide (m.vin ≤ ovp) && decide ((if s.chp.vinOk then 3300 else 3500) ≤ m.vin)
  let s0 := { s with
    chp := { s.chp with mpLive := (s.chp.mpvdn, s.chp.mpdt, s.chp.mpilk), vinOk := if s.chg.rb = 0 then vinOk else s.chp.vinOk }
    cht := { s.cht with last := m } }
  let s1 := if s0.chg.rb ≠ 0 && !s0.chg.en then rbHalt 2 s0
    else if s0.chg.rbStop ≠ 0 then rbHalt s0.chg.rbStop s0 else s0
  -- the state (R154) and the step (R156, R157)
  let st := chgNextState s1 m
  let hc := maxInt (cellsOf s1 m)
  let restart := s1.chg.expKind.isSome && (st = 4 || st = 5 || st = 6 || st = 7 || st = 8)
  let s2 := if restart then { s1 with chg := { s1.chg with expKind := none, timer := 0, pre := 0 } } else s1
  let was := s2.chg.st
  let s3 := chgEnter st s2
  let select := st = 5 && (was ≠ 5 || s3.chg.zoneP ≠ s3.chg.zone)
  let step := if select then (selectStep s3 s3.chg.zone hc).getD s3.chg.step
    else if st = 5 then s3.chg.stepNext.getD s3.chg.step else s3.chg.step
  let handover := st = 5 && was = 5 && !select && s3.chg.stepNext.isSome
  -- the stage (R146, R147), held off around a planned change of the CK source (R173)
  let rev := s3.chg.rb ≠ 0
  let sw := (switching st || (rev && st ≠ 0xC)) && !s3.clk.prep
  let (a, b) := if rev then (m.vin, m.vsys) else (m.vsys, m.vchg)
  let mode := if !sw then 0 else if s3.chg.mode = 0 then stageMode 0 a b else s3.chg.modeNext
  let (onCk, dith) := dither on s3.chg.dith
  let s4 := { s3 with chg := { s3.chg with
    step := step, stepNext := none, zoneP := s3.chg.zone
    mode := mode, modeNext := if mode = 0 then 0 else stageMode mode a b
    gates := startGates rev mode, gatesWas := gatesWas, onCk := if mode = 0 then 0 else onCk, dith := if mode = 0 then s3.chg.dith else dith } }
  -- the loops (R150) and the counts of R151
  let (raw, tgt) := chargeTarget s4
  let (bind, dem) := bindLoop s4 m d
  let t := s4.cht
  let big := decide (500 ≤ |tgt - t.target|)
  let zm := if handover || big then t.zm ++ [{ hc := t.hcPrev, ib := t.ibPrev, n := 0 }] else t.zm
  -- in the start-up of reverse boost ACG turns on once VCHG is within 2% of RBV (R179)
  let near := s4.chg.rb = 1 && decide (50 * |m.vchg - rbGoal s4| ≤ rbGoal s4)
  let ith := (st = 4 || st = 5) && decide (10 * (s4.chp.ithlim : Int) < raw)
  insertLog { s4 with
    -- OFF holds ACG off and BATG on (R153); else BATG is off while the battery is isolated (R175, R177)
    chp := { s4.chp with acg := (s4.chp.acg || near) && st ≠ 0, attached := s4.chp.attached && st ≠ 0, batg := st = 0 || !s4.chp.isol
                         rbLim := if rev then rbLimit s4 else 0 }
    cht := { t with
      binding := bind, demand := dem, target := tgt, zm := zm
      nPer := t.nPer + 1
      nIn := t.nIn + b2n (mode ≠ 0 && (bind = 3 || bind = 4))
      nTj := t.nTj + b2n (mode ≠ 0 && bind = 5)
      nV := t.nV + b2n (mode ≠ 0 && (bind = 1 || bind = 2))
      ithAll := t.ithAll && ith } }

/-- PEAK_CURRENT_LIMIT: the running on-time ends on edge 2 (R149). -/
def chgPeak (ended : Bool) (s : State) : State := if domOn s 1 then endOnTime ended s else s

/-- COMMIT_APPLY of CHG (R45): on edge 2 in WATCH with the loop idle. At a period start PERIOD_START itself makes the set
live. -/
def chgApply (s : State) : State := if domOn s 1 && s.dct.mode = .watch && s.chg.mode = 0 then chgTakeSet s else s

/-! ### Telemetry (R182 to R187) -/

/-- OCV at a state of charge in half percent, in mV, by linear interpolation of the 21 entries (R185). -/
def ocvAt (s : State) (h : Nat) : Rat :=
  let i := h / 10
  let v (j : Nat) : Rat := ((spGet 0 s.chp.ocv (min j 20) : Nat) : Rat)
  v i + (v (i + 1) - v i) * ((h % 10 : Nat) : Rat) / 10

/-- One loop of R185 with fuel: adds `dt soc` seconds while `go soc`, from a state of charge in half percent. -/
def cminLoop (go : Nat → Bool) (dt : Nat → Rat) (fuel soc : Nat) (t : Rat) : Nat × Rat :=
  match fuel with
  | 0 => (soc, t)
  | n + 1 => if decide (soc < 200) && go soc then cminLoop go dt n (soc + 1) (t + dt soc) else (soc, t)

/-- The seconds that half a percent of capacity dq takes at current i (R185); at no current none is stated (DESIGN CHOICE, log entry 14). -/
def cminStep (dq i : Rat) : Rat := if i = 0 then Config.cminNoCurrent dq else 3600 * dq / i

/-- CMIN (R185). -/
def chgCmin (s : State) : Nat :=
  let z := s.chg.zone
  let n := zoneSteps s z
  let dq : Rat := (s.chp.fcc : Rat) / 200
  let zc : Rat := (s.cht.zcell : Rat) / 10000
  let early := (upTo (n - 1)).foldl (fun (a : Nat × Rat) k =>
    cminLoop (fun c => decide (ocvAt s c + (ichg s z k : Rat) * zc < (veff s z k : Rat)))
      (fun _ => cminStep dq (ichg s z k : Rat)) 200 a.1 a.2) (20, 0)
  let vf : Rat := veffFinal s z
  let last := cminLoop (fun c => decide (ocvAt s c + 10 * (chgLive s 0x1D : Rat) * zc < vf))
    (fun c => cminStep dq (if zc = 0 then (ichg s z (n - 1) : Rat) else min (ichg s z (n - 1) : Rat) ((vf - ocvAt s c) / zc)))
    200 early.1 early.2
  reg16 (openRound last.2)

/-- The switches that switch in a stage mode, Q1 to Q4 (R146). -/
def switchMask (rev : Bool) (mode : Nat) : Nat :=
  if mode = 2 then 0b1111 else if mode = 0 then 0 else if (mode = 1) = (rev = false) then 0b0011 else 0b1100

/-- FLOOR in mW (R187). -/
def lossFloor (s : State) (t : ChgTelem) : Rat :=
  let il : Rat := t.m.il
  let cond : Rat := (List.finRange 4).foldl (fun a k => a + ((s.chs.ron[k] * t.frac[k] : Nat) : Rat) / 65536) 0
  let gate : Rat := (List.finRange 4).foldl (fun a k =>
    if (switchMask (s.chg.rb ≠ 0) s.chg.mode).testBit k.val then a + ((s.chs.qg[k] : Nat) : Rat) else a) 0
  il * il * cond / 20000000 + gate * ((t.drvv % 256 : Nat) : Rat) * (3 / 5) / (chgLive s 0x32 : Rat)

/-- LOSS in mW (R187). -/
def lossNow (s : State) (t : ChgTelem) : Rat :=
  (t.pin : Rat) - t.pout - (t.m.iin : Rat) * t.m.iin * s.chp.srin / 20000000
    - (t.m.il : Rat) * t.m.il * ((s.chp.srl : Rat) + s.chp.ldcr) / 20000000

/-- The values of the completed interval by select code (R192). -/
def chgValues (s : State) (t : ChgTelem) : List Nat :=
  let n := chgLive s 0x10
  let mv (x : Int) : Nat := reg16 x
  let sg (x : Int) : Nat := ofSigned 16 x
  [mv t.m.vin, mv t.m.vchg, mv t.m.vsys, mv t.m.pack]
  ++ (List.finRange 5).map (fun i => if i.val < n then mv t.m.cells[i] else 0)
  ++ [sg t.m.iin, sg t.m.ibat, mv t.iout, sg s.chp.tbat, chgSoc s, reg16 (openRound ((rcMicro s : Rat) / 1000)), s.chp.fcc,
      reg16 (openRound ((t.pin : Rat) / 10)), reg16 (openRound ((t.pout : Rat) / 10)),
      reg16 s.chs.loss, reg16 (openRound s.chs.floor), s.chs.lratio, s.cht.cmin, s.cht.ctime,
      reg16 (openRound ((240 * (chgLive s 0x37 : Rat) - s.chg.timer) / 240)), reg16 s.cht.zcell,
      reg16 (openRound (240000 / (chgLive s 0x32 : Rat))), s.chg.cend + crst s * 256]

/-- A value moves toward a goal by at most d. -/
def rampTo (d goal x : Int) : Int := if x < goal then min goal (x + d) else max goal (x - d)

/-- SOC has risen from soc0 through 10.0% in PRECHARGE or CHARGE: CTIME starts and CMIN is computed, once, in a charge that
did not start above 10% (R185). -/
def socCross (soc0 : Nat) (s : State) : State :=
  if s.chp.fcc ≠ 0 && decide (soc0 < 100) && decide (100 ≤ chgSoc s) && (s.chg.st = 4 || s.chg.st = 5)
      && s.cht.ctimeRun.isNone && !s.cht.above then
    { s with cht := { s.cht with ctimeRun := some 0, ctime := 0, cmin := chgCmin s } }
  else s

/-- The charge count clamped at 0 and FCC (R183). -/
def rcClamp (s : State) : State := { s with cht := { s.cht with rcq := clampI 0 (3600000 * (s.chp.fcc : Int)) s.cht.rcq } }

/-- ZCELL and the measurements that still wait after an interval with highest cell hc and IBAT ib (R184). The interval in which the
change falls counts as the first after it: the measurement is of the next (DESIGN CHOICE, log entry 34). -/
def zcellFold (hc ib : Int) (l : List ZMeas) (z : Int) : Int × List ZMeas :=
  l.foldl (fun a x =>
    if x.n = 0 then (a.1, a.2 ++ [{ x with n := 1 }])
    else
      let di := ib - x.ib
      let new : Rat := if di = 0 then (Config.zcellNoStep (hc - x.hc) : Rat) else 10000 * ((hc - x.hc : Int) : Rat) / (di : Rat)
      (openRound ((7 * (a.1 : Rat) + new) / 8), a.2)) (z, [])

/-- TELEMETRY_INTERVAL: a 1-ms interval ends (R151, R156, R159, R175, R182 to R187). The loss comparison is made in RUN, and the
count of its consecutive intervals is kept over WATCH (DESIGN CHOICE, log entry 34). -/
def chgInterval (t : ChgTelem) (s : State) : State :=
  if !domOn s 1 then s else
  let q := s.chg
  let c := s.cht
  let hc := maxInt (cellsOf s t.m)
  let inreg := decide (c.nPer < 2 * c.nIn)
  let threg := decide (c.nPer < 2 * c.nTj) || (c.ithAll && c.nPer ≠ 0)
  let slow := inreg || threg || zoneDerate s q.zone
  let final := decide (zoneSteps s q.zone ≤ q.step + 1)
  let next := q.st = 5 && !final && decide (veff s q.zone q.step ≤ hc)
  let term := q.st = 5 && final && decide (t.m.ibat < 10 * (chgLive s 0x1D : Int)) && decide (c.nPer < 2 * c.nV)
  -- the coulomb counter (R183)
  let soc0 := chgSoc s
  let s1 := rcClamp { s with cht := { c with rcq := c.rcq + t.m.ibat } }
  let (zcell, zm) := zcellFold hc t.m.ibat c.zm c.zcell
  -- CTIME (R185)
  let ct := c.ctimeRun.map (· + 1)
  let s2 := { s1 with
    cht := { s1.cht with zcell := zcell, zm := zm, inreg := inreg, threg := threg, slowCnt := c.slowCnt + b2n slow
                         termCnt := if term then c.termCnt + 1 else 0
                         nPer := 0, nIn := 0, nTj := 0, nV := 0, ithAll := true, hcPrev := hc, ibPrev := t.m.ibat
                         ctimeRun := ct, ctime := match ct with | some n => reg16 (n / 1000 : Nat) | none => c.ctime }
    chg := { q with stepNext := if next then some (q.step + 1) else q.stepNext, cis := q.cis ||| 0x20 } }
  let s3 := socCross soc0 s2
  -- the loss measurement, in RUN (R182, R187)
  let s4 := if s3.dct.mode ≠ .run then s3 else
    let fl := lossFloor s3 t
    let ls := lossNow s3 t
    let ratio : Int := (256 * ls / fl).floor
    let high := fl ≠ 0 && decide (294 < ratio) && decide (50 ≤ fl)
    { s3 with
      chs := { s3.chs with loss := openRound ls, floor := fl
                           lratio := if fl = 0 then (Config.ratioNoFloor ls).toNat else reg16 (min 65535 ratio) }
      cht := { s3.cht with lossCnt := if high then s3.cht.lossCnt + 1 else 0 } }
  -- ramps at 1 V/ms, and 5 V/ms in the start-up of reverse boost (R175, R177, R179, R180)
  let goal : Int := match s4.chp.insPack with
    | some p => p
    | none => 20 * (chgLive s4 0x30 : Int)
  let s5 := { s4 with chp := { s4.chp with
    vsysTgt := if s4.chp.isol then rampTo 1000 goal s4.chp.vsysTgt else s4.chp.vsysTgt
    rbTgt := if s4.chg.rb = 0 then s4.chp.rbTgt else rampTo (if s4.chg.rb = 1 then 5000 else 1000) (rbGoal s4) s4.chp.rbTgt } }
  { s5 with cht := { s5.cht with vals := chgValues s5 t }, chs := { s5.chs with drvv := t.drvv % 256 } }

/-- LOSS_BOUND: 16 consecutive intervals with LRATIO above 294 (R187). While the excess lasts, a further record comes after 16 more
(DESIGN CHOICE, log entry 34). -/
def chgLossBound (s : State) : State :=
  if domOn s 1 && decide (16 ≤ s.cht.lossCnt) then
    logRec 0x06 0x12 [s.chs.lratio, reg16 (openRound s.chs.floor)]
      (cfltSet 0x80 { s with cht := { s.cht with lossCnt := 0 } })
  else s

/-! ### Zones (R155) -/

/-- The zone of the thresholds alone: how many of TZ1 to TZ5 T has reached. -/
def zoneRaw (s : State) (t : Int) : Nat :=
  ((upTo 5).filter (fun i => decide (16 * toSigned 8 (chgLive s (0x17 + i)) ≤ t))).length

/-- The zone with hysteresis on a move down, from zone z. -/
def zoneHyst (s : State) (t : Int) (z : Nat) : Nat :=
  match z with
  | 0 => zoneRaw s t
  | i + 1 => if t < 16 * (toSigned 8 (chgLive s (0x17 + i)) - (chgLive s 0x1C : Int)) then zoneHyst s t i else max (i + 1) (zoneRaw s t)

/-- TBAT_CONVERSION of a 14-bit code (R155). After a conversion that is not valid the temperature shows the last valid one: the spec
does not say (DESIGN CHOICE, log entry 34). -/
def chgTbat (y : Nat) (s : State) : State :=
  if !domOn s 1 then s else
  let t := ntcTemp (chgLive s 0x41) (chgLive s 0x43) 1000 y
  let valid := decide (256 ≤ y) && decide (y ≤ 16128) && decide (-640 ≤ t) && decide (t ≤ 2000)
  let p := s.chp
  if valid then
    { s with
      chp := { p with tbat := t, ntcBad := 0, ntcGood := p.ntcGood + 1 }
      chg := { s.chg with zone := if s.chg.zone = 7 then 7 else zoneHyst s t s.chg.zone } }
  else { s with chp := { p with ntcBad := p.ntcBad + 1, ntcGood := 0 } }

/-- NTC_FAULT: three consecutive invalid conversions (R155). -/
def chgNtcFault (s : State) : State :=
  if domOn s 1 && decide (3 ≤ s.chp.ntcBad) && s.chg.zone ≠ 7 then
    logRec 0x06 0x11 [1] (cfltSet 0x20 { s with chg := { s.chg with zone := 7 } })
  else s

/-- NTC_RECOVERY: three consecutive valid conversions; the zone by the thresholds alone (R155). -/
def chgNtcRecovery (s : State) : State :=
  if domOn s 1 && decide (3 ≤ s.chp.ntcGood) && s.chg.zone = 7 then
    logRec 0x06 0x11 [0] { s with chg := { s.chg with zone := zoneRaw s s.chp.tbat } }
  else s

/-! ### Termination, recharge and the safety timer (R159 to R164) -/

/-- CHARGE_DONE after 16 qualifying intervals (R159). -/
def chgDone (s : State) : State :=
  if domOn s 1 && s.chg.st = 5 && decide (16 ≤ s.cht.termCnt) then
    let s1 := { s with
      chg := { s.chg with termHeld := true, exp1 := false, expKind := none, flt := w1c 10 s.chg.flt 0x04, cis := s.chg.cis ||| 0x10 }
      cht := { s.cht with rcq := 3600000 * (s.chp.fcc : Int), termCnt := 0 } }
    logRec 0x06 0x0C [s1.cht.ctime, s1.cht.cmin] (chgEnter 0x8 s1)
  else s

/-- RECHARGE: the highest cell stayed below the final voltage minus VRECH for 1 s (R160). -/
def chgRecharge (s : State) : State :=
  if domOn s 1 && s.chg.st = 8 then { s with chg := { s.chg with termHeld := false, timer := 0, pre := 0 } } else s

/-- SAFETY_TIMER_TICK (R161, R164, R182). -/
def chgTick (s : State) : State :=
  if !domOn s 1 then s else
  let q := s.chg
  let half := decide (250 ≤ s.cht.slowCnt)
  let d := if half then 1 else 2
  let counts := q.st = 4 || q.st = 5
  { s with
    chg := { q with timer := if counts then q.timer + d else q.timer
                    pre := if q.st = 4 then q.pre + d else q.pre
                    half := if counts then half else q.half }
    cht := { s.cht with slowCnt := 0 } }

/-- The precharge counter has reached its limit (R164). -/
def preExpired (s : State) : Bool := s.chg.st = 4 && decide (240 * chgLive s 0x39 ≤ s.chg.pre)

/-- SAFETY_TIMER_EXPIRY (R162, R163); the precharge timeout on the same tick takes effect alone (R164). -/
def chgExpiry (s : State) : State :=
  let q := s.chg
  if domOn s 1 && (q.st = 4 || q.st = 5) && decide (240 * chgLive s 0x37 ≤ q.timer) && !preExpired s then
    let thermal := s.cht.threg || zoneDerate s q.zone
    let pay := [q.zone, q.step, q.st]
    if q.exp1 then
      logRec 0x06 0x05 pay (chgEnter 0xB (cfltSet 0x04 s))
    else
      let s1 := { s with chg := { q with exp1 := true, expKind := some thermal } }
      logRec 0x06 (if thermal then 0x04 else 0x03) pay (chgEnter (if thermal then 0xA else 0x9) s1)
  else s

/-- PRE_TIMEOUT (R164). -/
def chgPreTimeout (s : State) : State :=
  if domOn s 1 && preExpired s then
    logRec 0x06 0x06 [s.chg.zone, s.chg.step, s.chg.st] (chgEnter 0xB (cfltSet 0x08 s))
  else s

/-! ### Protection (R166 to R169) -/

/-- Every switching gate off on edge 2 (R47, R166). -/
def chgGatesOff (s : State) : State := { s with chg := { s.chg with gates := 0, mode := 0, modeNext := 0 } }

/-- The cell voltages that CHG's comparators see now (R166, R167). -/
def cellsNow (cells : Vector Int 5) (s : State) : State := { s with cht := { s.cht with last := { s.cht.last with cells := cells } } }

/-- CELL_OV of cell c at v mV (R46, R166, R181). -/
def chgCellOv (c v : Nat) (s : State) : State :=
  if domOn s 1 && decide (1 ≤ c) && decide (c ≤ chgLive s 0x10) then
    let s1 := cellsNow (s.cht.last.cells.set (finOf 5 (c - 1)) (v : Int)) s
    rbHalt 4 (chgGatesOff (logRec 0x06 0x01 [c, v] (cfltSet 0x01 s1)))
  else s

/-- CELL_UV: the lowest cell stayed below CUV for 1 s with no valid input (R168). In reverse boost its stop
cause 0x3 takes the place of one that waits already (DESIGN CHOICE, log entry 34). -/
def chgCellUv (c v : Nat) (s : State) : State :=
  if domOn s 1 && !inputValid s then
    let s1 := cfltSet 0x100 s
    logRec 0x06 0x02 [c, v] (if s1.chg.rb = 0 then s1 else { s1 with chg := { s1.chg with rbStop := 3 } })
  else s

/-! ### The input port (R171, R172) -/

/-- ACG_ON: VIN has been valid for INDEB × 10 ms (R171). -/
def chgAcgOn (vin : Nat) (s : State) : State :=
  if domOn s 1 && s.chg.rb = 0 && decide (3300 ≤ vin) && decide (vin ≤ 20 * chgLive s 0x2E) then
    { s with chp := { s.chp with vinOk := true, blocked := false, acg := s.chp.acg || s.chg.en } }
  else s

/-- INPUT_ATTACH: VCHG is within 5% of VIN (R171). -/
def chgAttach (vin : Nat) (s : State) : State :=
  if domOn s 1 && s.chp.acg && !s.chp.attached && s.chg.rb = 0 then
    logRec 0x06 0x09 [vin] (cisSet 0x40 { s with chp := { s.chp with attached := true } })
  else s

/-- The common effect of the decisions of R172. -/
def inputDrop (vinOk : Bool) (s : State) : State :=
  { s with
    chg := { s.chg with gates := 0, mode := 0, modeNext := 0, timer := 0, pre := 0 }
    chp := { s.chp with acg := false, attached := false, blocked := true, vinOk := vinOk } }

/-- INPUT_LOST: cause 1 undervoltage, 2 reverse current (R172). While reverse boost starts or runs, VIN is the output that CHG
drives, and the decisions of R172 do not act: the spec does not say (DESIGN CHOICE, log entry 34). -/
def chgInputLost (cause : Nat) (s : State) : State :=
  if domOn s 1 && s.chg.rb = 0 && (s.chp.acg || s.chp.vinOk) && (cause = 1 || cause = 2) then
    inputDrop (cause = 2) (logRec 0x06 0x0A [cause] (cisSet 0x40 s))
  else s

/-- INPUT_OV (R172); not while reverse boost starts or runs (DESIGN CHOICE, log entry 34). -/
def chgInputOv (vin : Nat) (s : State) : State :=
  if domOn s 1 && s.chg.rb = 0 then inputDrop false (logRec 0x06 0x0B [vin] (cisSet 0x40 (cfltSet 0x10 s))) else s

/-! ### Battery removal and reinsertion (R174, R175, R177) -/

/-- BATT_REMOVED: the first removal decision, and the first after reinsertion has been detected (R174, R175). -/
def chgRemoved (rise bid : Bool) (vsys : Nat) (ended : Bool) (s : State) : State :=
  let q := s.chg
  let r := rise && chgLive s 0x3D ≠ 0 && (q.st = 4 || q.st = 5)
  let b := bid && (chgLive s 0x3A).testBit 0
  if domOn s 1 && (!s.chp.isol || s.chp.insPack.isSome) && (r || b) then
    let p0 := bAt r 0 + bAt b 1
    let s1 := { s with
      chg := { q with timer := 0, pre := 0, exp1 := false, expKind := none, termHeld := false
                      flt := w1c 10 q.flt 0x0D, cis := q.cis ||| 0x04 }
      chp := { s.chp with isol := true, remP0 := p0, remVsys := vsys, remSecond := !(r && b), vsysTgt := vsys, insPack := none, insDue := none } }
    let s2 := endOnTime ended (logRec 0x06 0x07 [p0, vsys, 0] s1)
    { s2 with chp := { s2.chp with batg := false } }
  else s

/-- Whether the detector that did not decide first is active: rise detection, or BID detection (R174). -/
def secondActive (s : State) : Bool :=
  if s.chp.remP0 = 2 then chgLive s 0x3D ≠ 0 && (s.chg.st = 4 || s.chg.st = 5) else (chgLive s 0x3A).testBit 0

/-- BATT_REMOVED_SECOND: the other detector decides ck CK after the first, within 1 ms (R174). P2 of more CK than its 16 bits hold is
a free value (log entry 14). -/
def chgRemovedSecond (ck : Nat) (s : State) : State :=
  if domOn s 1 && s.chp.isol && s.chp.remSecond && secondActive s && decide (ck ≤ (if s.clk.ckPll then 240000 else 24000)) then
    logRec 0x06 0x07 [3 - s.chp.remP0, s.chp.remVsys, reg16 ck] { s with chp := { s.chp with remSecond := false } }
  else s

/-- The end of an isolation (R177): BATG on, a new charge with the timer at 0, and BATT_INSERTED due. In SYSREG the record waits
for the period start that leaves it; a removal before that start takes it back (DEDUCED, log entry 34). -/
def chgJoin (pack : Nat) (s : State) : State :=
  let s1 := { s with
    chg := { s.chg with timer := 0, pre := 0 }
    chp := { s.chp with batg := true, isol := false, insPack := none, insDue := some pack, remSecond := false } }
  if s.chg.st = 3 then s1 else insertLog s1

/-- BATT_INSERTED: reinsertion is detected; with a valid input VSYS ramps to the pack first (R177). -/
def chgInserted (pack : Nat) (s : State) : State :=
  if domOn s 1 && s.chp.isol && s.chp.insPack = none then
    if inputValid s then { s with chp := { s.chp with insPack := some pack } } else chgJoin pack s
  else s

/-- BATG_RECONNECT: VSYS is within 200 mV of the pack (R177). -/
def chgReconnect (s : State) : State :=
  match s.chp.insPack with
  | some p => if domOn s 1 && s.chp.isol then chgJoin p s else s
  | none => s

/-! ### Reverse boost (R178 to R181) -/

/-- The conditions of R178 that fail, bit n for the n-th listed. -/
def rbFails (s : State) : Nat :=
  let m := s.cht.last
  bAt (!s.chg.en) 0 + bAt (s.chg.st ≠ 1) 1 + bAt (decide (800 ≤ m.vin)) 2
  + bAt (decide (minInt (cellsOf s m) ≤ (chgLive s 0x28 : Int))) 3 + bAt (s.chg.flt.testBit 0) 4

/-- A write of 1 to CCTL.RBGO (R178); the start-up raises VCHG from 0 V (R179). While reverse boost is already starting and the
conditions still hold, a further write neither restarts the rise nor is refused (DESIGN CHOICE, log entry 34). -/
def chgRbgo (s : State) : State :=
  let f := rbFails s
  if f = 0 && s.chg.rb = 0 then { s with chg := { s.chg with rb := 1, rbStop := 0 }, chp := { s.chp with acg := false, attached := false, rbTgt := 0 } }
  else if s.chg.rb ≠ 0 && f = 0 then s
  else logRec 0x06 0x10 [f] (cfltSet 0x200 s)

/-- RB_START: ACG is on and VIN is within 2% of RBV (R179). -/
def chgRbStart (s : State) : State :=
  if domOn s 1 && s.chg.rb = 1 && s.chp.acg then
    logRec 0x06 0x0D [chgLive s 0x45] (chgEnter 0xD { s with chg := { s.chg with rb := 2 } })
  else s

/-- A stop cause of R181 that takes effect at the next period start; one that waits already stays (DESIGN CHOICE, log entry 34). -/
def chgRbStopAt (cause : Nat) (s : State) : State :=
  if domOn s 1 && s.chg.rb ≠ 0 then { s with chg := { s.chg with rbStop := if s.chg.rbStop = 0 then cause else s.chg.rbStop } } else s

/-- RB_OVERLOAD: below 80% of RBV for 8 ms (R181), from RBGO on. -/
def chgOverload (s : State) : State :=
  if domOn s 1 && s.chg.rb ≠ 0 then chgRbStopAt 7 (cfltSet 0x40 s) else s

/-- RB_BACKDRIVE: above RBV + 500 mV for 240 CK (R181), from RBGO on. -/
def chgBackdrive (s : State) : State := chgRbStopAt 6 s

/-! ### Loss-floor measurements (R186) -/

/-- LOSS_FLOOR_AUTO: the first eligible point after 24 h of RUN time (R186). -/
def chgLfmAuto (s : State) : State :=
  if domOn s 1 && s.dct.mode = .run && (s.chg.st = 5 || s.chg.st = 3) && decide (2000 ≤ |s.cht.last.il|) then
    { s with cht := { s.cht with lfm := true } }
  else s

/-- RON in 0.05 mΩ: the mean of 4096 samples of the voltage across a switch in µV by IL in mA, taken where |IL| is at least
2.0 A; a switch without so many keeps its value (R186). -/
def ronMean (l : List (Int × Int)) (old : Nat) : Nat :=
  let good := (l.filter (fun x => decide (2000 ≤ |x.2|))).take 4096
  if good.length < 4096 then old
  else reg16 (openRound (20 * (good.foldl (fun a x => a + (x.1 : Rat) / (x.2 : Rat)) 0) / 4096))

/-- QG in 0.1 nC: 20 mA by the CK counted by 4.1667 ns, averaged over 16 periods (R186). -/
def qgMean (l : List Nat) (old : Nat) : Nat :=
  if l.length < 16 then old else reg16 (openRound (20 * 41667 / 1000000 * ((l.take 16).foldl (fun a x => a + (x : Rat)) 0) / 16))

/-- LOSS_FLOOR_DONE: a measurement completes, with the samples of each switch's voltage and IL, and the counts of each
gate's charging (R186). A switch that does not switch in the present mode keeps its QG. -/
def chgLfmDone (ron : Vector (List (Int × Int)) 4) (qg : Vector (List Nat) 4) (s : State) : State :=
  if domOn s 1 && s.cht.lfm && s.dct.mode = .run then
    let mask := switchMask (s.chg.rb ≠ 0) s.chg.mode
    cisSet 0x80 { s with
      cht := { s.cht with lfm := false }
      chs := { s.chs with ron := Vector.ofFn (fun k => ronMean ron[k] s.chs.ron[k])
                          qg := Vector.ofFn (fun k => if mask.testBit k.val then qgMean qg[k] s.chs.qg[k] else s.chs.qg[k]) } }
  else s

/-! ### Register access (R193, R195, R196) -/

/-- A write of CCTL: EN, then the actions of LFMGO, RBSTOP and RBGO (R193). -/
def chgCctl (v : Nat) (s : State) : State :=
  let s0 := { s with chg := { s.chg with en := v.testBit 0 } }
  let s1 := if v.testBit 3 then { s0 with cht := { s0.cht with lfm := true } } else s0
  let s2 := if v.testBit 2 then chgRbStopAt 1 s1 else s1
  if v.testBit 1 then chgRbgo s2 else s2

/-- A W1C write of CFLT: OVP clears only below COV - COVHYS, TMRLATCH also clears EXP1 (R163, R164, R167).
The safety timer keeps its count at the write, so that a tick in a charge expires again: R163 gives the write no restart of it
(DESIGN CHOICE, log entry 34). -/
def chgCfltWrite (v : Nat) (s : State) : State :=
  let q := s.chg
  let low := (cellsOf s s.cht.last).all (fun c => decide (c < (chgLive s 0x25 : Int) - chgLive s 0x27))
  let keep := v.testBit 0 && q.flt.testBit 0 && !low
  let v' := setBit (setBit (v % 1024) 1 false) 0 (v.testBit 0 && !keep)
  let s1 := { s with chg := { q with
    flt := w1c 10 q.flt v', exp1 := q.exp1 && !v.testBit 2
    expKind := if v.testBit 2 then none else q.expKind } }
  if keep then cisSet 0x02 s1 else s1

/-- A write of a CHG register that is not staged. -/
def chgWrite (off v : Nat) (s : State) : State :=
  let err : State := { s with chg := { s.chg with cfg := { s.chg.cfg with err := true } } }
  let p := s.chp
  if off = 0x04 then chgCctl v s
  else if off = 0x07 then chgCfltWrite v s
  else if off = 0x09 then { s with chg := { s.chg with cie := v % 256 } }
  else if off = 0x0A then { s with chg := { s.chg with cis := w1c 8 s.chg.cis v } }
  else if off = 0x48 then { s with chs := { s.chs with ctsel := v % 128 } }
  else if off = 0x49 then
    let i := s.chs.ctsel
    let s1 := if i < 48 then { s with chg := { s.chg with cfg := { s.chg.cfg with stg := spSet 0 s.chg.cfg.stg (0x10000 + i) (v % 65536), dirty := true } } }
      else if i < 69 then { s with chp := { p with ocv := spSet 0 p.ocv (i - 48) (v % 65536) } }
      else err
    { s1 with chs := { s1.chs with ctsel := (i + 1) % 128 } }
  else if off = 0x50 then { s with chp := { p with ithlim := v % 2048 } }
  else if off = 0x52 then socCross (chgSoc s) (rcClamp { s with chp := { p with fcc := v % 65536 } })
  else if off = 0x54 then socCross (chgSoc s) (rcClamp { s with cht := { s.cht with rcq := 3600000 * ((v % 65536 : Nat) : Int) } })
  else if off = 0x56 then { s with chp := { p with srin := v % 65536 } }
  else if off = 0x58 then { s with chp := { p with srl := v % 65536 } }
  else if off = 0x5A then { s with chp := { p with ldcr := v % 65536 } }
  else if off = 0x5C then { s with chp := { p with mpvdn := v % 256 } }
  else if off = 0x5D then { s with chp := { p with mpdt := v % 256 } }
  else if off = 0x5E then { s with chp := { p with mpilk := v % 256 } }
  else if off = 0x67 then if 0x1B ≤ v % 64 then err else { s with chs := { s.chs with tsel := v % 64 } }
  else if off = 0x6A then { s with chs := { s.chs with lfsel := v % 4 } }
  else s

end Sys2Proof.Machine
end

