-- ==== Sys2Proof/Machine/Seq.lean ====
section
/-! DEFINITION. The traverse sequencer: agreement checks, requests, traverses and their steps, fault traverses,
unwinding, watches, the button, the lid and the wake inputs (05 R199 to R227). -/

namespace Sys2Proof.Machine

/-! ### Agreement checks (R226) -/

/-- The bits that a step's operation names (R203); none for a reserved OP. -/
def stepMask (op : Nat) : Option Nat :=
  match op with
  | 0 => some 0xF0000000 | 1 => some 0xF000011F | 2 => some 0xF003FFFF | 3 => some 0xF8FFFFFF
  | 4 => some 0xFE1FFFFF | 5 => some 0xF000011F | 6 => some 0xF0000000 | 7 => some 0xF00000FF
  | _ => none

/-- A step word with a reserved OP or bit, a DELAY of 0 or a WAITPG of 0 (check 0x05). -/
def stepBad (w : Nat) : Bool :=
  match stepMask (w / 2 ^ 28) with
  | none => true
  | some m => (w &&& m) ≠ w || (w / 2 ^ 28 = 3 && w % 2 ^ 24 = 0) || (w / 2 ^ 28 = 4 && w % 65536 = 0)

/-- The rails a SET or SETG step names. -/
def stepRails (w : Nat) : List Nat :=
  if w / 2 ^ 28 = 1 then [w % 32]
  else if w / 2 ^ 28 = 2 then (bitsOf 8 (fld w 15 8)).map (fun b => 8 * fld w 17 16 + b)
  else []

/-- The code of the first failing SEQ agreement check on a staged set, 0 when all pass (R226). -/
def seqCheck (g : Nat → Nat) : Nat :=
  let val := (upTo 8).filter (thValid g)
  let ord := val.filter (fun n => !thFault g n)
  let stp (n i : Nat) : Nat := g (0x10000 + 64 * n + i)
  let op (n i : Nat) : Nat := stp n i / 2 ^ 28
  let idx (n : Nat) : List Nat := upTo (thLast g n + 1)
  let commits (n : Nat) : Nat := ((idx n).filter (fun i => op n i = 6)).length
  let fltOk (n : Nat) : Bool := thValid g n && thFault g n
  if val.any (fun n => !seqCode (thTo g n)) || ord.any (fun n => !seqCode (thFrom g n) || thFrom g n = thTo g n) then 0x01
  else if ord.any (fun n => ord.any (fun m => n ≠ m && thFrom g n = thFrom g m && thTo g n = thTo g m)) then 0x02
  else if val.any (fun n => op n (thLast g n) ≠ 0 || (upTo (thLast g n)).any (fun i => op n i = 0)) then 0x03
  else if ord.any (fun n => commits n ≠ 1) || (val.filter (thFault g)).any (fun n => commits n ≠ 0) then 0x04
  else if val.any (fun n => (idx n).any (fun i => stepBad (stp n i))) then 0x05
  else if val.any (fun n => (idx n).any (fun i => (stepRails (stp n i)).any (fun r => !(g 0x20).testBit r))) then 0x06
  else if ord.any (fun n => !fltOk (thFlt g n)) then 0x07
  else if g 0x2F ≠ 0 && (!fltOk (fld (g 0x30) 2 0) || ((g 0x30).testBit 4 && decide (g 0x2F ≤ g 0x2E))) then 0x08
  else 0

/-! ### Flags -/

/-- Sets bits of SIS (R224). -/
def sisSet (m : Nat) (s : State) : State := { s with seq := { s.seq with sis := s.seq.sis ||| m } }

/-- Sets bits of SFLT, and SIS.FAULT with them. -/
def sfltSet (m : Nat) (s : State) : State :=
  { s with seq := { s.seq with sflt := s.seq.sflt ||| m, sis := s.seq.sis ||| 0x08 } }

/-! ### Requests (R205, R213, R214) -/

/-- A refused request (R205). -/
def seqRefuse (r : SeqReq) (s : State) : State := logRec 0x07 0x07 [r.src, r.tgt, s.seq.cur] (sfltSet 0x04 s)

/-- The ordinary traverse from C to G of the live set. -/
def findTraverse (s : State) (c t : Nat) : Option Nat :=
  (upTo 8).find? (fun n => thValid (seqLive s) n && !thFault (seqLive s) n && thFrom (seqLive s) n = c && thTo (seqLive s) n = t)

/-- A request while nothing runs (R205). -/
def seqStart (r : SeqReq) (s : State) : State :=
  if r.tgt = s.seq.cur then s
  else if !s.seq.en then seqRefuse r s
  else match findTraverse s s.seq.cur r.tgt with
    | none => seqRefuse r s
    | some n =>
      logRec 0x07 0x01 [n, r.src, r.tgt] (sisSet 0x02 { s with seq := { s.seq with
        kind := .ordinary, trv := n, step := 0, waiting := false, pastcmt := false, undo := [], pend := none } })

/-- An ordinary traverse starts to unwind (R213). -/
def seqUnwind (r : SeqReq) (s : State) : State :=
  let q := s.seq
  logRec 0x07 0x03 [q.trv, q.step, r.src, r.tgt] { s with seq := { q with kind := .unwind, waiting := false, pend := some r } }

/-- A platform request for a target from a source (R205, R213, R214). -/
def seqRequest (r : SeqReq) (s : State) : State :=
  let q := s.seq
  let goal := thTo (seqLive s) q.trv
  if !domOn s 2 then s else
  match q.kind with
  | .idle => seqStart r s
  | .unwind =>
    if q.en then { s with seq := { q with pend := some r } }
    else if q.pend.map SeqReq.tgt = some r.tgt then s
    else seqRefuse r s
  | .ordinary =>
    if q.pastcmt then
      (if r.tgt = goal then { s with seq := { q with queue := none } }
       else if !q.en then seqRefuse r s else { s with seq := { q with queue := some r } })
    else if r.tgt = goal then s
    else if !q.en then seqRefuse r s
    else seqUnwind r s
  | .fault =>
    if r.tgt = goal then { s with seq := { q with queue := none } }
    else if !q.en then seqRefuse r s else { s with seq := { q with queue := some r } }

/-- SEQ refuses a request that is registered now (R205, R213, R214). -/
def seqRefuses (r : SeqReq) (s : State) : Bool :=
  let q := s.seq
  domOn s 2 && (match q.kind with
    | .idle => r.tgt ≠ q.cur && (!q.en || (findTraverse s q.cur r.tgt).isNone)
    | .unwind => !q.en && q.pend.map SeqReq.tgt ≠ some r.tgt
    | _ => !q.en && r.tgt ≠ thTo (seqLive s) q.trv)

/-- A request of a source. One to which `newer` says that a newer request is registered on the same edge has no effect: it leaves
its own SEQ_REFUSED record where it is refused, and nothing else (R215). -/
def seqAsk (newer : Bool) (r : SeqReq) (s : State) : State :=
  if !newer then seqRequest r s
  else if seqRefuses r s then logRec 0x07 0x07 [r.src, r.tgt, s.seq.cur] s
  else s

/-- A queued target is taken (R207). -/
def seqTakeQueue (s : State) : State :=
  match s.seq.queue with
  | none => s
  | some r => seqStart r { s with seq := { s.seq with queue := none } }

/-- A pending staged set becomes live (R45). -/
def seqApplySet (s : State) : State :=
  match s.seq.cfg.pnd with
  | none => s
  | some set => { s with seq := { s.seq with cfg := { s.seq.cfg with live := set, pnd := none } } }

/-- COMMIT_APPLY of SEQ while no traverse runs (R45). -/
def seqApply (s : State) : State := if domOn s 2 && s.seq.kind = .idle then seqApplySet s else s

/-! ### Fault traverses (R208, R210, R211, R218) -/

/-- Edge 1 and 2 of R211: whatever runs is abandoned, every watch is disarmed, and fault traverse n starts when the
live set holds it VALID with FAULT = 1; otherwise a pending set applies and a queued request is taken as at an END (R207, R208). -/
def seqFault (n : Nat) (s : State) : State :=
  let q := s.seq
  let queue := if q.kind = .unwind then (match q.pend with | some r => some r | none => q.queue) else q.queue
  let q1 := { q with watch := [], queue := queue, pend := none, undo := [], waiting := false, pastcmt := false, step := 0
                     sis := q.sis ||| 0x08 }
  if thValid (seqLive s) n && thFault (seqLive s) n then raiseWake 9 (setHint 7 { s with seq := { q1 with kind := .fault, trv := n } })
  else seqTakeQueue (seqApplySet { s with seq := { q1 with kind := .idle } })

/-! ### Steps (R203 to R209, R212) -/

/-- The word of the step that is due. -/
def seqWord (s : State) : Nat := seqLive s (0x10000 + 64 * s.seq.trv + s.seq.step)

/-- A step with operation op is due in a running traverse or fault traverse. -/
def stepDue (op : Nat) (s : State) : Bool :=
  domOn s 2 && (s.seq.kind = .ordinary || s.seq.kind = .fault) && !s.seq.waiting && seqWord s / 2 ^ 28 = op

/-- The step completes: its undo entry is kept and the next step is due. -/
def stepDone (u : Undo) (s : State) : State :=
  { s with seq := { s.seq with step := s.seq.step + 1, waiting := false, undo := u :: s.seq.undo } }

/-- STEP_END (R207). -/
def seqEnd (s : State) : State :=
  if stepDue 0 s then
    let q := s.seq
    let goal := thTo (seqLive s) q.trv
    let s1 := { s with seq := { q with cur := goal, kind := .idle, pastcmt := false, undo := [], sis := q.sis ||| 0x01 } }
    seqTakeQueue (seqApplySet (raiseWake 9 (setHint 7 (logRec 0x07 0x02 [q.trv, goal] s1))))
  else s

/-- Writes the PSOUT bits in mask. -/
def psWrite (mask v : Nat) (s : State) : State :=
  let o := BitVec.ofNat 32 s.seq.psout
  let m := BitVec.ofNat 32 mask
  { s with seq := { s.seq with psout := ((o &&& ~~~m) ||| (BitVec.ofNat 32 v &&& m)).toNat } }

/-- STEP_SET (R203, R204). -/
def seqSet (s : State) : State :=
  if stepDue 1 s then
    let w := seqWord s
    let mask := 2 ^ (w % 32)
    stepDone { step := s.seq.step, mask := mask, old := s.seq.psout } (psWrite mask (if w.testBit 8 then mask else 0) s)
  else s

/-- STEP_SETG (R203, R204). -/
def seqSetg (s : State) : State :=
  if stepDue 2 s then
    let w := seqWord s
    let k := 2 ^ (8 * fld w 17 16)
    let mask := fld w 15 8 * k
    stepDone { step := s.seq.step, mask := mask, old := s.seq.psout } (psWrite mask (fld w 7 0 * k) s)
  else s

/-- STEP_DELAY: the wait as one indivisible step (R203). -/
def seqDelay (s : State) : State := if stepDue 3 s then stepDone { step := s.seq.step } s else s

/-- PGIN bit PG of a WAITPG word equals its LEVEL. -/
def waitMet (s : State) (w : Nat) : Bool := (pgin s).testBit (fld w 20 16) = w.testBit 25

/-- The synchronised levels of the PG pins, which PGIN follows in every state of SEQ (R200). -/
def pgPins (pins : BitVec 32) (s : State) : State := { s with seq := { s.seq with pg := pins } }

/-- STEP_WAITPG with the present PG pins: it completes at once when PGIN is at LEVEL (R206). -/
def seqWait (pins : BitVec 32) (s : State) : State :=
  let s1 := pgPins pins s
  if !stepDue 4 s then s1
  else if waitMet s1 (seqWord s1) then stepDone { step := s1.seq.step } s1
  else { s1 with seq := { s1.seq with waiting := true } }

/-- WAITPG_COMPLETE with the PG pins of this edge (R206). While no WAITPG waits it is a change of the PG pins, and PGIN
follows (R200, DEDUCED, log entry 46). -/
def seqWaitDone (pins : BitVec 32) (s : State) : State :=
  let s1 := pgPins pins s
  if domOn s 2 && (s.seq.kind = .ordinary || s.seq.kind = .fault) && s.seq.waiting && waitMet s1 (seqWord s1) then
    stepDone { step := s1.seq.step } s1
  else s1

/-- PG_TIMEOUT of the WAITPG in progress (R206, R210, R211). -/
def seqTimeout (s : State) : State :=
  let q := s.seq
  if domOn s 2 && q.waiting && q.kind ≠ .idle then
    let w := seqLive s (0x10000 + 64 * q.trv + q.step)
    let pg := fld w 20 16
    let s1 := logRec 0x07 0x05 [q.trv, q.step, pg]
      (sfltSet (if q.kind = .unwind then 0x08 else 0x01)
        { s with seq := { q with fltTrv := q.trv, fltStep := q.step, fltPg := pg } })
    if q.kind = .fault then stepDone { step := q.step } s1 else seqFault (thFlt (seqLive s) q.trv) s1
  else s

/-- STEP_WATCH (R208): arms or disarms; an arming records the FLT of the traverse, in a fault traverse its own. -/
def seqWatch (s : State) : State :=
  if stepDue 5 s then
    let w := seqWord s
    let pg := w % 32
    let q := s.seq
    let v := if w.testBit 8 then thFlt (seqLive s) q.trv + 1 else 0
    stepDone { step := q.step, pg := pg, oldWatch := spGet 0 q.watch pg } { s with seq := { q with watch := spSet 0 q.watch pg v } }
  else s

/-- STEP_COMMIT (R212). -/
def seqCommitStep (s : State) : State :=
  if stepDue 6 s then stepDone { step := s.seq.step } (sisSet 0x04 { s with seq := { s.seq with pastcmt := true } }) else s

/-- STEP_MARK (R203). -/
def seqMark (s : State) : State :=
  if stepDue 7 s then
    let c := seqWord s % 256
    logRec 0x07 0x04 [s.seq.trv, c] (stepDone { step := s.seq.step } (sisSet 0x80 { s with seq := { s.seq with smark := c } }))
  else s

/-- PG_LOST: an armed watch on PG m decides (R208). -/
def seqPgLost (m : Fin 32) (pins : BitVec 32) (s : State) : State :=
  let s0 := pgPins pins s
  let w := spGet 0 s.seq.watch m.val
  if domOn s 2 && w ≠ 0 && s.seq.kind ≠ .fault && !(pgin s0).testBit m.val then
    seqFault (w - 1) (logRec 0x07 0x06 [m.val, w - 1] (sfltSet 0x02 { s0 with seq := { s0.seq with fltPg := m.val } }))
  else s0

/-! ### Unwinding (R213) -/

/-- The word of a completed step of the traverse that unwinds. -/
def undoWord (s : State) (u : Undo) : Nat := seqLive s (0x10000 + 64 * s.seq.trv + u.step)

/-- A MARK, or a WAITPG with UW = 0: skipped in 0 CK (R213). -/
def undoSkip (s : State) (u : Undo) : Bool :=
  undoWord s u / 2 ^ 28 = 7 || (undoWord s u / 2 ^ 28 = 4 && !(undoWord s u).testBit 26)

/-- UNWIND_REVERSE_STEP with the present PG pins: the last completed step is reversed; MARK and a WAITPG with UW = 0
are skipped in the same step, and a WAITPG with UW = 1 waits for the opposite level. -/
def seqReverse (pins : BitVec 32) (s : State) : State :=
  let s := pgPins pins s
  if !(domOn s 2 && s.seq.kind = .unwind) then s else
  match s.seq.undo.dropWhile (undoSkip s) with
  | [] => { s with seq := { s.seq with undo := [], waiting := false } }
  | u :: t =>
    let w := undoWord s u
    let pop (s : State) : State := { s with seq := { s.seq with undo := t, step := u.step, waiting := false } }
    if w / 2 ^ 28 = 1 || w / 2 ^ 28 = 2 then pop (psWrite u.mask u.old s)
    else if w / 2 ^ 28 = 4 then
      if waitMet s w then { s with seq := { s.seq with undo := u :: t, step := u.step, waiting := true } } else pop s
    else if w / 2 ^ 28 = 5 then pop { s with seq := { s.seq with watch := spSet 0 s.seq.watch u.pg u.oldWatch } }
    else pop s

/-- UNWIND_END: the reverse of step 0 is complete, or only steps that are skipped remain; the pending target is taken as a new request (R213). -/
def seqUnwindEnd (s : State) : State :=
  if domOn s 2 && s.seq.kind = .unwind && s.seq.undo.all (undoSkip s) && !s.seq.waiting then
    let p := s.seq.pend
    let s1 := setHint 7 (seqApplySet { s with seq := { s.seq with kind := .idle, undo := [], pend := none } })
    match p with
    | some r => seqStart r s1
    | none => s1
  else s

/-! ### Button, lid and wake inputs (R217 to R220) -/

/-- POWER_BUTTON_PRESS: a press decision (R217); newer as in `seqAsk`. -/
def seqPress (newer : Bool) (s : State) : State :=
  if !domOn s 2 || s.seq.pressed then s else
  let s1 := raiseWake 7 <| setHint 6 (sisSet 0x10 { s with seq := { s.seq with pressed := true, longDone := false, hardDone := false } })
  let q := s1.seq
  let low (c : Nat) : Bool := c = 3 || c = 4 || c = 5
  let ask := match q.kind with
    | .idle => low q.cur
    | .unwind => low q.cur
    | _ => low (thTo (seqLive s1) q.trv)
  if (seqLive s1 0x30).testBit 3 && ask then seqAsk newer { tgt := 0, src := 0xA } s1 else s1

/-- POWER_BUTTON_RELEASE: a release decision (R217). -/
def seqRelease (s : State) : State := if domOn s 2 then { s with seq := { s.seq with pressed := false } } else s

/-- LONG_PRESS: once per press (R217). -/
def seqLong (s : State) : State :=
  if domOn s 2 && s.seq.pressed && !s.seq.longDone && (seqLive s 0x30).testBit 4 then
    seqRequest { tgt := 5, src := 0xB } { s with seq := { s.seq with longDone := true } }
  else s

/-- HARD_OFF (R218). -/
def seqHard (s : State) : State :=
  if domOn s 2 && s.seq.pressed && !s.seq.hardDone && seqLive s 0x2F ≠ 0 then
    let n := fld (seqLive s 0x30) 2 0
    let s1 := logRec 0x07 0x08 [n] (sfltSet 0x10 { s with seq := { s.seq with hardDone := true } })
    seqFault n { s1 with seq := { s1.seq with queue := none, pend := none } }
  else s

/-- LID_DECISION: the LID pin has shown a level for LIDDEB ms (R219). It is open where the level is the one that LIDPOL names; a
level that the debounced state shows already is no decision, and without bank S the lid input is not asserted, so that it reads
closed (R483); newer as in `seqAsk`. -/
def seqLid (high newer : Bool) (s : State) : State :=
  let isOpen := s.gpio.vios && (high != (seqLive s 0x31).testBit 1)
  if !domOn s 2 || isOpen = s.seq.lidOpen then s else
  let s0 := setHint 6 (sisSet 0x20 { s with seq := { s.seq with lidOpen := isOpen } })
  let s1 := if isOpen then raiseWake 8 s0 else s0
  if isOpen && (seqLive s1 0x31).testBit 0 && s1.seq.cur = 3 && s1.seq.kind = .idle then seqAsk newer { tgt := 0, src := 9 } s1 else s1

/-- WAKEi shows its wake level: high with POL = 0, low with POL = 1 (R220, R225). -/
def wakeShown (s : State) (i : Fin 4) (high : Bool) : Bool := high != (seqLive s 0x33).testBit i.val

/-- WAKE_INPUT: WAKEi takes a level. Its decision is the edge on which it first shows its wake level (R220); without bank S it is
not asserted (R483), and while D2 is off its level is followed alone (log entry 4); newer as in `seqAsk`. -/
def seqWake (i : Fin 4) (high newer : Bool) (s : State) : State :=
  if !s.gpio.vios then s else
  let s0 := { s with seq := { s.seq with wk := if high then s.seq.wk ||| (1#4 <<< i.val) else s.seq.wk &&& ~~~(1#4 <<< i.val) } }
  if !domOn s 2 || !wakeShown s i high || wakeShown s i (s.seq.wk.getLsbD i.val) then s0 else
  let s1 := raiseWake 6 (sisSet 0x40 s0)
  let c := seqLive s1 0x32
  let q := s1.seq
  if q.kind = .idle && ((c.testBit i.val && q.cur = 3) || (c.testBit (4 + i.val) && (q.cur = 4 || q.cur = 5))) then
    seqAsk newer { tgt := 0, src := 8 } s1
  else s1

/-- A KSC wake request that DCT passes on the SEQ-DCT link (R220); newer as in `seqAsk`. -/
def seqKbWake (newer : Bool) (s : State) : State :=
  if !domOn s 2 then s else
  let s1 := sisSet 0x40 s
  if (seqLive s1 0x33).testBit 4 && s1.seq.kind = .idle && s1.seq.cur = 3 then seqAsk newer { tgt := 0, src := 0xD } s1 else s1

/-! ### Register access (R224, R225) -/

/-- A write of a SEQ register that is not staged; src is the request source of the writer (R216). R203 gives a step word with OP 0x8 to
0xF the agreement check 0x05 and no BSTAT.ERR: SSTDAT stages it, and COMMIT finds it (DEDUCED, log entry 50). -/
def seqWrite (src : Nat) (off v : Nat) (s : State) : State :=
  let q := s.seq
  let err : State := { s with seq := { q with cfg := { q.cfg with err := true } } }
  if off = 0x04 then { s with seq := { q with viewlive := v.testBit 1, en := v.testBit 0 } }
  else if off = 0x06 then
    if !seqCode (v % 16) || seqRun s then err else { s with seq := { q with cur := v % 16 } }
  else if off = 0x07 then if seqCode (v % 16) then seqRequest { tgt := v % 16, src := src } s else err
  else if off = 0x0A then { s with seq := { q with sflt := w1c 5 q.sflt v } }
  else if off = 0x0D then { s with seq := { q with sie := v % 256 } }
  else if off = 0x0E then { s with seq := { q with sis := w1c 8 q.sis v } }
  else if off = 0x10 then if seqRun s then err else { s with seq := { q with psout := v % 2 ^ 32 } }
  else if off = 0x60 then { s with seq := { q with sstsel := v % 512 } }
  else if off = 0x62 then
    { s with seq := { q with cfg := { q.cfg with stg := spSet 0 q.cfg.stg (0x10000 + q.sstsel) (v % 2 ^ 32), dirty := true }
                             sstsel := (q.sstsel + 1) % 512 } }
  else s

end Sys2Proof.Machine
end

