-- ==== Sys2Proof/Machine/Ksc.lean ====
section
/-! DEFINITION. The graticule key scanner and encoders: registers, agreement checks, the sample pipeline, sounding
runs and the scan (02 R51 to R99). -/

namespace Sys2Proof.Machine

/-! ### Agreement checks (R88) -/

/-- The code of the first failing KSC agreement check on a staged set, 0 when all pass (R88). -/
def kscCheck (g : Nat → Nat) : Nat :=
  let kden := g 0x09
  let ksen := g 0x0C
  let atl := upTo 480
  if kden = 0 then 0x01
  else if g 0x06 < 16 then 0x02
  else if ksen = 0 then 0x03
  else if atl.any (fun p => (g (0x10000 + p)).testBit 0 && !(kden.testBit (p / 20) && ksen.testBit (p % 20))) then 0x04
  else if atl.any (fun p => g (0x10000 + p) / 2 ≠ 0 && !(g (0x10000 + p)).testBit 0) then 0x05
  else if (bitsOf 24 (g 0x0F)).any (fun k => !kden.testBit k) || (bitsOf 20 (g 0x12)).any (fun c => !ksen.testBit c) then 0x06
  else 0

/-! ### Interrupt and hint bits -/

/-- Sets bits of KIS (R98). -/
def kisSet (m : Nat) (s : State) : State := { s with ksc := { s.ksc with kis := s.ksc.kis ||| m } }

/-- KEYSEQ of the live views (R74). -/
def keyseq (s : State) : BitVec 16 := s.ksc.image.seq

/-- A wake request that KSC raises: to DCT, and on the SEQ-DCT link to SEQ (R220, R439), where newer says that a newer platform
request is registered on the same edge (R215). -/
def kbWake (code : Nat) (newer : Bool) (s : State) : State := seqKbWake newer (raiseWake code s)

/-! ### Key records (R67, R128) -/

/-- KEYSEQ at the P3 of a record made now: the records of a COMMIT or of a scan stop fall on E + 3, before the P5 of the
sample that resolves at boundary E (R55, R89, R90, R98). -/
def recSeq (s : State) : BitVec 16 := if s.ksc.resolving then s.ksc.image.seq - 1 else s.ksc.image.seq

/-- A key record goes to LGT and to the event FIFO; a full FIFO discards it, sets OVF and KIS.EVOVF, and the first
discard logs EVOVF (R67). The spec gives KIS.EVOVF no event of its own: it sets at every discard (DESIGN CHOICE, log
entry 47). `press` says whether a CANCEL cancels a provisional press. -/
def keyRecord (typ pos : Nat) (press : Bool) (s : State) : State :=
  let s := lgtKeyRecord typ pos press s
  let k := s.ksc
  if k.fifo.length < 16 then
    { s with ksc := { k with fifo := k.fifo ++ [{ seq := (recSeq s).toNat % 16, typ := typ, pos := pos }] } }
  else
    let s1 := { s with ksc := { k with ovf := true, kis := k.kis ||| 0x20 } }
    if k.ovf then s1 else logRec 0x04 0x02 [] s1

/-! ### The ghost rule (R68 to R71) -/

/-- The present positions of the scanned set that read pressed in the seen image, ascending. -/
def pressedList (s : State) (seen : BitVec 480) : List Nat :=
  (upTo 480).filter (fun p => seen.getLsbD p && kscPresent s p)

/-- Whether a position is isolated: its drive line is in ISOKD or its sense line in ISOKS. -/
def isolated (s : State) (p : Nat) : Bool :=
  (kscLive s 0x0F).testBit (p / 20) || (kscLive s 0x12).testBit (p % 20)

/-- The new-corner test for a press at p (R68): some other pressed position q on p's sense line and some other
pressed position r on p's drive line, whose fourth corner is pressed, not all four isolated. -/
def newCorner (s : State) (pressed : List Nat) (p : Nat) : Bool :=
  pressed.any (fun q => q % 20 = p % 20 && q ≠ p &&
    pressed.any (fun r => r / 20 = p / 20 && r ≠ p &&
      pressed.contains (20 * (q / 20) + r % 20) &&
      !(isolated s p && isolated s q && isolated s r && isolated s (20 * (q / 20) + r % 20))))

/-- The reported rectangles of a plane in the order of R71: four pressed corners, not exempt, one WITHHELD (R70). -/
def rectList (s : State) (pl : KeyPlane) : List Rect :=
  if pl.withheld = 0 then [] else
  let pr := pressedList s pl.seen
  let wh (p : Nat) : Bool := pl.withheld.getLsbD p
  let cand := pr.flatMap (fun p => pr.filterMap (fun q =>
    if p / 20 < q / 20 && p % 20 < q % 20 then
      let a := 20 * (p / 20) + q % 20
      let b := 20 * (q / 20) + p % 20
      if pr.contains a && pr.contains b && !(isolated s p && isolated s q && isolated s a && isolated s b)
          && (wh p || wh q || wh a || wh b)
      then some (Rect.mk (p / 20) (q / 20) (p % 20) (q % 20)) else none
    else none))
  -- ordered by ROWA, ROWB, COLA, COLB
  let key (r : Rect) : Nat := ((r.ra * 32 + r.rb) * 32 + r.ca) * 32 + r.cb
  cand.foldl (fun acc r => (acc.filter (fun x => decide (key x ≤ key r))) ++ [r] ++ (acc.filter (fun x => decide (key r < key x)))) []

/-- P5 of a sample (R71), and of a COMMIT_APPLY that removes withheld positions: reported rectangles by age, GTAG, WHCNT, and the GHOST hint and KIS bit on a change.
The numbers that change are those of the rectangles and positions, also where GHCNT or WHCNT shows its highest value (DESIGN CHOICE,
log entry 47). -/
def ghostUpdate (s : State) : State :=
  let k := s.ksc
  let now := rectList s k.plane
  let rects := k.rects.filter (fun r => now.contains r) ++ now.filter (fun r => !k.rects.contains r)
  let wh := popcount 480 k.plane.withheld.toNat
  let chgTag := k.rects.head? ≠ rects.head?
  let chg := k.rects.length ≠ rects.length || k.whcnt ≠ wh
  let s1 := { s with ksc := { k with
    rects := rects, whcnt := wh, gtag := if chgTag then k.gtag + 1 else k.gtag,
    kis := if chg then k.kis ||| 0x04 else k.kis } }
  if chg then setHint 2 s1 else s1

/-! ### Debounce (R63) -/

/-- The bit of position p. -/
def pBit (p : Nat) : BitVec 480 := 1#480 <<< p

/-- Sets or clears position p of a bitmap. -/
def putBit (m : BitVec 480) (p : Nat) (b : Bool) : BitVec 480 := if b then m ||| pBit p else m &&& ~~~pBit p

/-- What a sample does at one position (R63): the new plane and the records, in order (type, cancels a press). -/
def debounce (deb : Nat) (prov : Bool) (test : Bool) (p : Nat) (x : Bool) (pl : KeyPlane) :
    KeyPlane × List (Nat × Bool) :=
  let c := pl.conf.getLsbD p
  let confirm (q : KeyPlane) : KeyPlane × List (Nat × Bool) :=
    ({ q with conf := putBit q.conf p x, pending := putBit q.pending p false, out := putBit q.out p false,
              cnt := spSet 0 q.cnt p 0 }, [(if x then 4 else 5, x)])
  let startPend (q : KeyPlane) : KeyPlane × List (Nat × Bool) :=
    if deb ≤ 1 then confirm q
    else ({ q with pending := putBit q.pending p true, out := putBit q.out p prov, cnt := spSet 0 q.cnt p 1 },
          if prov then [(if x then 1 else 2, x)] else [])
  if pl.withheld.getLsbD p then
    if !x then ({ pl with withheld := putBit pl.withheld p false }, [(7, false)])
    else if test then (pl, [])
    else
      let (q, r) := startPend { pl with withheld := putBit pl.withheld p false }
      (q, (7, false) :: r)
  else if pl.pending.getLsbD p then
    if x = c then
      ({ pl with pending := putBit pl.pending p false, out := putBit pl.out p false, cnt := spSet 0 pl.cnt p 0 },
       if pl.out.getLsbD p then [(3, !c)] else [])
    else if test then
      ({ pl with pending := putBit pl.pending p false, out := putBit pl.out p false, cnt := spSet 0 pl.cnt p 0,
                 withheld := putBit pl.withheld p true },
       (if pl.out.getLsbD p then [(3, !c)] else []) ++ [(6, false)])
    else if deb ≤ spGet 0 pl.cnt p + 1 then confirm pl
    else ({ pl with cnt := spSet 0 pl.cnt p (spGet 0 pl.cnt p + 1) }, [])
  else
    if x = c then (pl, [])
    else if test then ({ pl with withheld := putBit pl.withheld p true }, [(6, false)])
    else startPend pl

/-- Makes the records (type, position, cancels a press) in order and sets the KEY and PROV bits of R79. -/
def emitKeyRecs (rs : List (Nat × Nat × Bool)) (s : State) : State :=
  let s := rs.foldl (fun s r => keyRecord r.1 r.2.1 r.2.2 s) s
  let conf := rs.any (fun r => r.1 = 4 || r.1 = 5)
  let prov := rs.any (fun r => r.1 = 1 || r.1 = 2 || r.1 = 3)
  let s := if conf then setHint 0 (kisSet 0x01 s) else s
  if prov then setHint 1 (kisSet 0x02 s) else s

/-! ### Settle measurement (R57, R61) -/

/-- m_k and the unsettled flag of a sample: `sense` the latched levels (1 high), `rise` the CK of the last
low-to-high of each sounding output (0 when it never went low), `low` the outputs still low at the sample. -/
def settle (ksen dwell : Nat) (sense : Nat) (rise : List Nat) (low : Nat) : Option Nat × Bool :=
  let rel := (bitsOf 20 ksen).filter (fun c => sense.testBit c)
  if rel = [] then (none, false)
  else
    let t (c : Nat) : Nat := if low.testBit c then dwell else min dwell (rise.getD c 0)
    (some (rel.foldl (fun a c => max a (t c)) 0), rel.any (fun c => low.testBit c))

/-- Records a measurement of line k: the run's m_k and unsettled flags, UNSET and a new run (R58, R59, R61). A slow frame
notes an unsettled line too; its run waits for RUN. Its dwell, in WATCH CK, is held to DWELL as a number, so that a line which
dwells the scaled DWELL and is unsettled there becomes UNSET: the spec does not say (DESIGN CHOICE, log entry 47). -/
def settleNote (k : Nat) (m : Option Nat) (uns : Bool) (s : State) : State :=
  let q := s.ksc
  let l := spGet {} q.snd k
  let atFull := decide (kscDwell s k = kscLive s 0x06)
  let l1 := match q.run, m with
    | some _, some x => { l with m := some (max x (l.m.getD 0)), overRun := l.overRun || (uns && atFull) }
    | _, _ => l
  { s with ksc := { q with
      snd := spSet {} q.snd k l1
      unsetNext := if uns && !atFull then q.unsetNext ||| (1#24 <<< k) else q.unsetNext
      sndReq := q.sndReq || (uns && q.run = none) } }

/-! ### The sample (R53 to R56) -/

/-- The line in its dwell, which the next sample ends: the first line from the start of a frame on (R53, R56). A stop or a hold that
comes in that dwell lets the frame end (R83, R90). -/
def sampleLine (s : State) : Option Nat :=
  match s.ksc.fr with
  | .idle => none
  | .line k => some k
  | .start => (scanLines s).head?

/-- DCT holds KSC at the next frame boundary (R83): for a planned change of the CK source (R399), and in RUN for a gather that
waits for KSC to be frame-idle (R430, DEDUCED, log entry 31). -/
def kscHeld (s : State) : Bool :=
  s.clk.prep || (s.dct.phase = .gather && s.dct.mode = .run
    && (match s.dct.dom with | some d => d = 5 | none => (s.dct.cur.map DctReq.tgt) = some 2))

/-- KSC starts its next frame in RUN: at the release of a hold (R83), and with SCANEN = 1 (R90). -/
def kscResume (s : State) : State :=
  let q := s.ksc
  if q.scanning && q.scanen && q.fr = .idle && s.dct.mode = .run && !kscHeld s then
    { s with ksc := { q with fr := .start, slow := false, resolving := false } }
  else s

/-- The end of a frame (R53, R55 P5, R61, R83, R90): the frame image, KEYSEQ, UNSET flags, and the next frame, which starts on the
same edge unless a hold, a scan stop or WATCH ends the scan there. -/
def frameEnd (s : State) : State :=
  let q := s.ksc
  let img : KeyImage := { win := q.plane.conf, prov := provPlane q.plane, seq := q.image.seq + 1 }
  let uns := bitsOf 24 q.unsetNext.toNat
  { s with ksc := { q with
      image := img
      resolving := true
      slow := false
      snd := uns.foldl (fun m k => spSet {} m k { spGet {} m k with unset := true }) q.snd
      unsetNext := 0
      kis := if uns = [] then q.kis else q.kis ||| 0x40
      run := q.run.map (fun r => { r with left := r.left - 1 })
      fr := if s.dct.mode = .run && q.scanen && !kscHeld s then .start else .idle } }

/-- KEY_SAMPLE: the end of line k's dwell, the whole resolve P0 to P5 and the advance to the next line (R54, R55,
R57, R63, R71, R82). A frame ends, with its image and KEYSEQ, at the last line it scans: in a slow frame with SLOWALL = 0 R55's
last enabled line may not be among them (DESIGN CHOICE, log entry 47). -/
def kscSample (sense : Nat) (rise : List Nat) (low : Nat) (newer : Bool) (s : State) : State :=
  if !domOn s 5 then s else
  match sampleLine s with
  | none => s
  | some k =>
    let (m, uns) := settle (kscLive s 0x0C) (kscDwell s k) sense rise low
    let ps := ((bitsOf 20 (kscLive s 0x0C)).map (fun c => 20 * k + c)).filter (kscPresent s)
    let x (p : Nat) : Bool := !sense.testBit (p % 20)
    let q := s.ksc
    let seen := ps.foldl (fun b p => putBit b p (x p)) q.plane.seen
    let pressed := pressedList s seen
    let deb := kscLive s 0x08
    let (pl, recs) := ps.foldl (fun (acc : KeyPlane × List (Nat × Nat × Bool)) p =>
        let test := x p && !acc.1.conf.getLsbD p && newCorner s pressed p
        let (pl', rs) := debounce deb (kscProvEn s p) test p (x p) acc.1
        (pl', acc.2 ++ rs.map (fun r => (r.1, p, r.2)))) ({ q.plane with seen := seen }, [])
    let s1 := settleNote k m uns { s with ksc := { q with plane := pl, resolving := false } }
    let s2 := emitKeyRecs recs s1
    let wakes := recs.any (fun r => r.1 = 4 && kscWake s r.2.1)
    let s3 := if wakes && s.dct.mode = .watch then kbWake 2 newer s2 else s2
    let s4 := ghostUpdate s3
    match (scanLines s).find? (fun j => decide (k < j)) with
    | some j => { s4 with ksc := { s4.ksc with fr := .line j } }
    | none => frameEnd s4

/-- KEY_SAMPLE with the levels at the pins: without bank K every sense line reads released and settled (R483). -/
def keySampled (sense : Nat) (rise : List Nat) (low : Nat) (newer : Bool) (s : State) : State :=
  if s.gpio.viok then kscSample sense rise low newer s else kscSample 0xFFFFF [] 0 newer s

/-! ### Sounding runs (R58 to R62) -/

/-- Abandons a run in progress (R58, R83): no result changes; a new run is due while a line is UNSET, or becomes so at the end
of the frame in progress (R61). -/
def abandonRun (s : State) : State :=
  let q := s.ksc
  match q.run with
  | none => s
  | some _ =>
    let any := (upTo 24).any (fun k => (spGet {} q.snd k).unset) || q.unsetNext ≠ 0
    { s with ksc := { q with run := none, sndReq := q.sndReq || any
                             snd := q.snd.map (fun e => (e.1, { e.2 with m := none, overRun := false })) } }

/-- Starts a requested run at a frame boundary in RUN with SCANEN = 1 (R58); in fallback and in a frame hold none starts
(R83, R400). -/
def soundingStart (s : State) : State :=
  let q := s.ksc
  if domOn s 5 && q.fr = .start && !q.slow && q.scanen && s.dct.mode = .run && s.clk.ckPll && !s.clk.prep
      && q.run = none && (q.sndReq || q.sndFirst) then
    let z := (upTo 24).foldl (fun m k => spSet {} m k { spGet {} m k with m := none, overRun := false }) q.snd
    { s with ksc := { q with run := some { first := q.sndFirst, left := kscLive s 0x16 }, snd := z
                             sndReq := false, sndFirst := false } }
  else s

/-- The result of one enabled line at the end of a run (R59). -/
def lineResult (dwell guard : Nat) (l : LineSnd) : LineSnd :=
  let sk := match l.m with
    | some m => m + guard
    | none => if l.hasS then l.s else dwell
  { s := sk, hasS := true, valid := true, held := l.m = none
    isOver := decide (dwell < sk) || l.overRun, unset := false, m := none, overRun := false }

/-- The end of a run on the frame boundary of its last frame (R59, R61). -/
def soundingEnd (s : State) : State :=
  let q := s.ksc
  match q.run with
  | none => s
  | some r =>
    if domOn s 5 && (q.fr = .start || (q.fr = .idle && q.resolving)) && r.left = 0 && s.dct.mode = .run then
      let lines := bitsOf 24 (kscLive s 0x09)
      let snd := lines.foldl (fun m k => spSet {} m k (lineResult (kscLive s 0x06) (kscLive s 0x17) (spGet {} m k))) q.snd
      let snd := snd.map (fun e => (e.1, { e.2 with unset := false }))
      let s1 := { s with ksc := { q with run := none, snd := snd, ranSince := true, kis := q.kis ||| 0x10 } }
      let isOver := lines.foldl (fun a k => if (spGet {} snd k).isOver then a + 2 ^ k else a) 0
      if isOver = 0 then s1 else logRec 0x04 0x01 [isOver % 65536, isOver / 65536, kscSndMax s1] s1
    else s

/-! ### Applying a committed set and stopping the scan (R89, R90) -/

/-- The records of an applied set at boundary E (R89): positions that leave the scanned set or lose PRESENT, and
positions no longer provisional-enabled. -/
def kscApplyRecs (o n : State) (pl : KeyPlane) : KeyPlane × List (Nat × Nat × Bool) :=
  (upTo 480).foldl (fun (acc : KeyPlane × List (Nat × Nat × Bool)) p =>
    let pl := acc.1
    let c := pl.conf.getLsbD p
    if kscPresent o p && !kscPresent n p then
      let pl' := { pl with conf := putBit pl.conf p false, seen := putBit pl.seen p false
                           pending := putBit pl.pending p false, out := putBit pl.out p false
                           withheld := putBit pl.withheld p false, cnt := spSet 0 pl.cnt p 0 }
      if c then (pl', acc.2 ++ [(5, p, false)])
      else if pl.out.getLsbD p then (pl', acc.2 ++ [(3, p, true)])
      else (pl', acc.2)
    else if pl.out.getLsbD p && !kscProvEn n p then
      ({ pl with out := putBit pl.out p false }, acc.2 ++ [(3, p, !c)])
    else acc) (pl, [])

/-- P5 of the sample that resolves at a boundary copies the live views, so after the changes that a COMMIT or a scan stop makes
there on E + 3 (R55, R79, R89, R90). -/
def imageLate (s : State) : State :=
  if s.ksc.resolving then
    { s with ksc := { s.ksc with image := { s.ksc.image with win := s.ksc.plane.conf, prov := provPlane s.ksc.plane } } }
  else s

/-- COMMIT_APPLY of KSC at the start of a scan frame (R45, R58, R89): a run whose last frame ends there completes first.
GHOST, GTAG and HINTS.GHOST follow the positions that the set removes and the rectangles that it exempts by ISOKD or ISOKS: R71
speaks of samples only. A first run that an earlier COMMIT has asked for and that has not started is dropped by a set with ADAPT =
0: R58 does not say (DESIGN CHOICE for both, log entry 47). -/
def kscApply (s : State) : State :=
  match s.ksc.cfg.pnd with
  | none => s
  | some set =>
    if domOn s 5 && s.ksc.fr = .start then
      let s := soundingEnd s
      let q := s.ksc
      let s1 := { s with ksc := { q with cfg := { q.cfg with live := set, pnd := none } } }
      let (pl, recs) := kscApplyRecs s s1 q.plane
      let adapt := (kscLive s1 0x15).testBit 0
      let snd := s1.ksc.snd.map (fun e => (e.1, { e.2 with valid := false, m := none, overRun := false }))
      let any := q.snd.any (fun e => e.2.unset)
      let s2 := { s1 with ksc := { s1.ksc with plane := pl, snd := snd, ranSince := false, run := none
                                               sndReq := s1.ksc.sndReq || (q.run.isSome && any)
                                               sndFirst := adapt } }
      imageLate (ghostUpdate (emitKeyRecs recs s2))
    else s

/-- SCAN_STOP: at a frame boundary with SCANEN still 0 (R90), with no line enabled at once; in WATCH also between slow frames. A
sounding run in progress is abandoned: R58 does not name the stop (DESIGN CHOICE for all three, log entry 47). -/
def kscStop (s : State) : State :=
  let q := s.ksc
  if domOn s 5 && q.scanning && !q.scanen && (q.fr = .idle || (q.fr = .start && scanLines s = [])) then
    let recs := ((upTo 480).filter (fun p => q.plane.out.getLsbD p)).map
      (fun p => (3, p, !q.plane.conf.getLsbD p))
    let pl := { q.plane with pending := 0, out := 0, cnt := [] }
    let s1 := imageLate (emitKeyRecs recs (abandonRun { s with ksc := { q with plane := pl, scanning := false, fr := .idle } }))
    { s1 with ksc := { s1.ksc with slow := false, resolving := false } }
  else s

/-- SLOW_FRAME_START: in WATCH a slow frame starts (R81). With SLOWALL = 0 and no line with a WAKE position it has nothing to
scan: it stays at its start and counts no frame, until the scanned lines change or the device leaves WATCH, and later slow
frame starts have no effect meanwhile (DESIGN CHOICE, log entry 47). -/
def kscSlowFrame (s : State) : State :=
  let q := s.ksc
  if domOn s 5 && s.dct.mode = .watch && q.scanen && q.scanning && q.fr = .idle && !s.clk.prep then
    { s with ksc := { q with fr := .start, slow := true, resolving := false } }
  else s

/-! ### Encoders (R84 to R87) -/

/-- The signed distance of a count from a reference reaches THR. -/
def encFar (thr : Nat) (c r : BitVec 16) : Bool := thr ≠ 0 && decide ((thr : Int) ≤ |(c - r).toInt|)

/-- The count of an enabled encoder differs from a reader's reference by ENCTHR or more (R86). -/
def encAway (f : Encoder → BitVec 16) (s : State) : Bool :=
  (List.finRange 4).any (fun n => s.ksc.encctl.testBit n.val && encFar s.ksc.encthr s.ksc.enc[n].count (f s.ksc.enc[n]))

/-- HINTS.ENC of port p under R86. -/
def encHintP (p : Port) (s : State) : State := if encAway (fun e => e.refH[p]) s then setHintP p 3 s else s

/-- HINTS.ENC of both ports and KIS.ENC under R86, at an event that changes a count, a reference or ENCTHR: a bit that a W1C
has cleared sets again at the next such event only (DESIGN CHOICE, log entry 47). -/
def encHints (s : State) : State :=
  let s := if encAway (fun e => e.refE) s then kisSet 0x08 s else s
  encHintP 1 (encHintP 0 s)

/-- The step of a phase change (A, B): 00, 10, 11, 01, 00 is +1 (R84); none is an illegal change (R85). -/
def quadStep (a b a' b' : Bool) : Option Int :=
  match a, b, a', b' with
  | false, false, true, false | true, false, true, true | true, true, false, true | false, true, false, false => some 1
  | true, false, false, false | true, true, true, false | false, true, true, true | false, false, false, true => some (-1)
  | false, false, false, false | true, false, true, false | true, true, true, true | false, true, false, true => some 0
  | _, _, _, _ => none

/-- ENCODER_EDGE: new phases of encoder n (R84, R85, R87). Where nothing counts them (EN = 0, D5 off, bank K without its
supply, R483) they are the state that a later EN = 1 starts from. -/
def encEdge (n : Fin 4) (a b newer : Bool) (s : State) : State :=
  let q := s.ksc
  let e := q.enc[n]
  if !(domOn s 5 && s.gpio.viok && q.encctl.testBit n.val) then { s with ksc := { q with enc := q.enc.set n { e with a := a, b := b } } }
  else
    match quadStep e.a e.b a b with
    | none => { s with ksc := { q with enc := q.enc.set n { e with a := a, b := b }, encerr := satAdd 255 q.encerr 1 } }
    | some d =>
      let d := if q.encctl.testBit (4 + n.val) then -d else d
      let e' := { e with a := a, b := b, count := e.count + BitVec.ofInt 16 d }
      let s1 := encHints { s with ksc := { q with enc := q.enc.set n e' } }
      if d ≠ 0 && q.encwake.testBit n.val && s.dct.mode = .watch then kbWake 3 newer s1 else s1

/-- ENCZERO: zeroes the counts and references of the encoders in the mask (R86). -/
def encZero (mask : Nat) (s : State) : State :=
  let enc := (List.finRange 4).foldl (fun (v : Vector Encoder 4) (n : Fin 4) =>
    if mask.testBit n.val then v.set n { v[n] with count := 0, refH := #v[0, 0], refE := 0 } else v) s.ksc.enc
  { s with ksc := { s.ksc with enc := enc } }

/-- A port's reference is set by its ENCPOS read (R77, R86). -/
def encPosRead (p : Port) (n : Fin 4) (s : State) : State × Nat :=
  let e := s.ksc.enc[n]
  ({ s with ksc := { s.ksc with enc := s.ksc.enc.set n { e with refH := e.refH.set p e.count } } }, e.count.toNat)

/-! ### Register access (R92 to R99) -/

/-- The read of a KSC register at its lowest byte, with its side effects. -/
def kscRead (off : Nat) (s : State) : State × Nat :=
  let q := s.ksc
  if off = 0x1C then
    let i := q.katlsel
    let v := if i < 480 then spGet 0 (if q.viewlive then q.cfg.live else q.cfg.stg) (0x10000 + i) else 0
    ({ s with ksc := { q with katlsel := if 479 ≤ i then 0 else i + 1 } }, v)
  else if off = 0x2B then
    match q.fifo with
    | [] => (s, 0)
    | r :: t => ({ s with ksc := { q with fifo := t } }, r.seq * 4096 + r.typ * 512 + r.pos)
  else if off = 0x39 then
    ({ s with ksc := { q with encerr := 0 } }, q.encerr)
  else if 0x30 ≤ off && off < 0x38 then
    let n : Fin 4 := finOf 4 ((off - 0x30) / 2)
    let e := q.enc[n]
    ({ s with ksc := { q with enc := q.enc.set n { e with refE := e.count } } }, e.count.toNat)
  else (s, kscView off s)

/-- A write of KCTL (R90, R92): SCANEN starts frames on edge 2 when they are stopped, SNDGO requests a run. In WATCH the
first frame is the next slow frame; an SNDGO written while no run may start is kept, and starts one at the first boundary at which
one may (DESIGN CHOICE for both, log entry 47). -/
def kscKctl (v : Nat) (s : State) : State :=
  let q := s.ksc
  let en := v.testBit 0
  let t := { s with ksc := { q with
      viewlive := v.testBit 2, scanen := en
      resolving := q.resolving && (q.fr ≠ .idle || !q.scanen)
      scanning := q.scanning || en
      slow := q.slow && (q.scanning || !en)
      sndReq := q.sndReq || (v.testBit 1 && q.run = none) } }
  if q.scanning && q.scanen then t else kscResume t

/-- A write of ENCCTL: an encoder that becomes enabled takes the present input state as its start (R85); the phases
are followed while it is disabled, so the stored pair is the present state. -/
def kscWrite (off v : Nat) (s : State) : State :=
  let q := s.ksc
  let err : State := { s with ksc := { q with cfg := { q.cfg with err := true } } }
  if off = 0x04 then kscKctl v s
  else if off = 0x1A then { s with ksc := { q with katlsel := v % 512 } }
  else if off = 0x1C then
    let i := q.katlsel
    let nx := if 479 ≤ i then 0 else i + 1
    if i < 480 then
      { s with ksc := { q with katlsel := nx, cfg := { q.cfg with stg := spSet 0 q.cfg.stg (0x10000 + i) (v % 8), dirty := true } } }
    else { s with ksc := { q with katlsel := nx, cfg := { q.cfg with err := true } } }
  else if off = 0x1D then if 24 ≤ v % 32 then err else { s with ksc := { q with sndsel := v % 32 } }
  else if off = 0x2A then
    if v.testBit 5 then { s with ksc := { q with ovf := false } } else s
  else if off = 0x2D then { s with ksc := { q with kie := v % 128 } }
  else if off = 0x2E then { s with ksc := { q with kis := w1c 7 q.kis v } }
  else if off = 0x38 then encHints { s with ksc := { q with encctl := v % 256 } }
  else if off = 0x3A then encHints { s with ksc := { q with encthr := v % 256 } }
  else if off = 0x3B then { s with ksc := { q with encwake := v % 16 } }
  else if off = 0x3C then encZero v s
  else if off = 0x3D then if 30 ≤ v % 32 then err else { s with ksc := { q with kwsel := v % 32 } }
  else s

end Sys2Proof.Machine
end

