-- ==== Sys2Proof/Machine/Tha.lean ====
section
/-! DEFINITION. Temperature, fans and analog inputs: agreement checks, conversion rounds, readings, virtual sensors,
trip entries and fan loops (06 R228 to R253). -/

namespace Sys2Proof.Machine

/-! ### Agreement checks (R253) -/

/-- Source i is enabled in SENEN or ANEN of a set; virtual sensors are always available (R228). -/
def srcEnabled (g : Nat → Nat) (i : Nat) : Bool :=
  if i < 9 then (g 0x44).testBit i else if i < 25 then (g 0x42).testBit (i - 9) else decide (i < 29)

/-- The code of the first failing THA agreement check on a staged set, 0 when all pass (R253). -/
def thaCheck (g : Nat → Nat) : Nat :=
  let within (a b n : Nat) : Bool := (bitsOf n a).all (fun i => b.testBit i)
  let ntc (m : Nat) : Bool := anMode g m = 1 || anMode g m = 2
  let setBad (b : Nat) : Bool := g b = 0 || g (b + 2) = 0 || g (b + 4) = 0
  let trBad (n : Nat) : Bool :=
    let b := 0x80 + 6 * n
    let src := fld (g b) 4 0
    let ana := (g b).testBit 7
    (g (b + 5)).testBit 1 &&
    ((ana && decide (n < 4)) || (ana && (decide (src < 8) || decide (24 < src))) || (!ana && decide (28 < src))
     || fld (g (b + 1)) 7 2 = 0 || !srcEnabled g src || (!ana && decide (9 ≤ src) && decide (src < 25) && !ntc (src - 9)))
  let fen (n : Nat) : Bool := (g (0xB0 + 16 * n)).testBit 7
  let fsrc (n : Nat) : List Nat := (upTo 4).map (fun i => fld (g (0xB1 + 16 * n + i)) 4 0)
  let tp (n p : Nat) : Int := toSigned 8 (g (0x10000 + 8 * n + p))
  if g 0x40 < 32 || (fld (g 0x44) 8 0 ≠ 0 && decide (g 0x40 < popcount 16 (g 0x42) + 16)) then 0x01
  else if !within (g 0x46) (g 0x42) 16 || !within (g 0x48) (g 0x44) 9 then 0x02
  else if (upTo 16).any (fun m => (anMode g m = 1 && setBad 0x62) || (anMode g m = 2 && setBad 0x68)) then 0x03
  else if (upTo 8).any trBad then 0x04
  else if (upTo 4).any (fun n => fen n && ((fsrc n).all (· = 0x1F) || (fsrc n).any (fun i => i ≠ 0x1F && !srcEnabled g i))) then 0x05
  else if (upTo 4).any (fun n => fen n && ((upTo 7).any (fun p => decide (tp n (p + 1) ≤ tp n p))
      || (!(g (0xB0 + 16 * n)).testBit 6 && (upTo 8).any (fun p => decide (255 < g (0x20000 + 8 * n + p)))))) then 0x06
  else if (upTo 4).any (fun n => ((g (0xB0 + 16 * n)).testBit 5 && !fen n) || decide (g (0xB7 + 16 * n) < g (0xB6 + 16 * n))) then 0x07
  else if (g 0x4B).testBit 7 && (!(g 0x42).testBit (fld (g 0x4B) 3 0) || !ntc (fld (g 0x4B) 3 0)) then 0x08
  else 0

/-! ### Flags -/

/-- Sets bits of TIS (R251). -/
def tisSet (m : Nat) (s : State) : State := { s with tha := { s.tha with tis := s.tha.tis ||| m } }

/-- Sets bits of TFLT (R251). -/
def tfltSet (m : Nat) (s : State) : State := { s with tha := { s.tha with tflt := s.tha.tflt ||| m } }

/-- The trip lines follow TRACT (R241). -/
def tripLines (s : State) : State :=
  let any (b : Nat) : Bool := (upTo 8).any (fun n => s.tha.tract.testBit n && (thaLive s (0x81 + 6 * n)).testBit b)
  { s with tha := { s.tha with chgTrip := any 0, fanTrip := any 1 } }

/-! ### Digital trip entries (R238 to R240) -/

/-- One reading of source i acts on the counts of one entry: none is a reading that is invalid because of a fault,
staleness or range. -/
def tripCount (g : Nat → Nat) (n : Nat) (r : Option Int) (c : TripCnt) : TripCnt :=
  let b := 0x80 + 6 * n
  let th := toSigned 16 (g (b + 2))
  let hys : Int := 4 * (g (b + 4) : Int)
  let below := (g b).testBit 6
  match r with
  | none => if (g (b + 5)).testBit 0 then { c with acts := c.acts + 1, rels := 0, last := -32768 } else c
  | some t =>
    let meet := if below then decide (t ≤ th) else decide (th ≤ t)
    let rel := if below then decide (th + hys < t) else decide (t < th - hys)
    { acts := if meet then c.acts + 1 else 0, rels := if rel then c.rels + 1 else 0, last := t }

/-- In WATCH only the readings of the sources in SENWEN and ANWEN act; an entry of another source holds its state (R248). -/
def watchSet (g : Nat → Nat) (i : Nat) (s : State) : Bool :=
  s.dct.mode ≠ .watch || (if i < 9 then (g 0x48).testBit i else decide (i < 25) && (g 0x46).testBit (i - 9))

/-- A reading of source i acts on every enabled digital entry of that source, under the round's configuration. -/
def tripReading (g : Nat → Nat) (i : Nat) (r : Option Int) (s : State) : State :=
  if !watchSet g i s then s else
  { s with thd := { s.thd with trips := Vector.ofFn (fun n =>
    let b := 0x80 + 6 * n.val
    if (g (b + 5)).testBit 1 && !(g b).testBit 7 && fld (g b) 4 0 = i then tripCount g n.val r s.thd.trips[n]
    else s.thd.trips[n]) } }

/-- An enabled entry of the live set. -/
def tripEn (s : State) (n : Fin 8) : Bool := (thaLive s (0x85 + 6 * n.val)).testBit 1

/-- TRN of an entry. -/
def tripTrn (s : State) (n : Fin 8) : Nat := fld (thaLive s (0x81 + 6 * n.val)) 7 2

/-- An entry is of analog type. -/
def tripAna (s : State) (n : Fin 8) : Bool := (thaLive s (0x80 + 6 * n.val)).testBit 7

/-- The comparator of analog entry n with input x: the acting side of its threshold, moved by `hys` units away from the acting
side while the entry is active (R238, R240). DIE compares °C with x in 1/16 °C, a pin 1/1024 of ANREF with x in µV. -/
def anaActs (s : State) (n : Fin 8) (hys : Nat) (x : Int) : Bool :=
  let b := 0x80 + 6 * n.val
  let below := (thaLive s b).testBit 6
  let th : Int := fld (thaLive s (b + 2)) 9 0 + (if below then (hys : Int) else -hys)
  let d : Int := if fld (thaLive s b) 4 0 = 8 then x - 16 * th else 1024 * x - 1800000 * th
  if below then decide (d < 0) else decide (0 < d)

/-- The comparator of an analog entry: TR4 to TR7 own comparators 0 to 3 (R238). -/
def anaCmp (n : Fin 8) : Fin 4 := finOf 4 n.val

/-- The input of the comparator of entry n. -/
def anaPut (n : Fin 8) (x : Int) (s : State) : State :=
  if 4 ≤ n.val then { s with tha := { s.tha with anaIn := s.tha.anaIn.set (anaCmp n) x } } else s

/-- An active entry meets its release condition (R240): a digital one by its count, an analog one by its comparator, whose input
is held for TRN CK (log entry 36). -/
def tripReleased (s : State) (n : Fin 8) : Bool :=
  if tripAna s n then !anaActs s n (thaLive s (0x84 + 6 * n.val)) s.tha.anaIn[anaCmp n]
  else decide (tripTrn s n ≤ s.thd.trips[n].rels)

/-- An entry's decision condition holds (R239): a digital one by its count, an analog one by its comparator. -/
def tripMet (s : State) (n : Fin 8) : Bool :=
  if tripAna s n then anaActs s n 0 s.tha.anaIn[anaCmp n] else decide (tripTrn s n ≤ s.thd.trips[n].acts)

/-- The fans that a fan trip line drives go to 100% on edge 2 (R47, R242). -/
def fansTripped (s : State) : State :=
  { s with thd := { s.thd with fans := Vector.ofFn (fun n =>
    if s.tha.fanTrip && fanTripDrv s n.val && fanEn s n.val then { s.thd.fans[n] with pwm := 255 } else s.thd.fans[n]) } }

/-- CHG's edge 2 of a trip (R47, R169, R181): the gates go off and reverse boost stops. -/
def chgTripped (s : State) : State :=
  if s.tha.chgTrip && domOn s 1 then rbHalt 5 (chgGatesOff (raiseWake 0xA (setHint 9 (cisSet 0x02 s)))) else s

/-- TRIP: entry n decides (R239, R241, R47); x is the input that the comparator of an analog entry has seen on each of the last
TRN CK. The record enters, and a snapshot latches, before the gates and fans; CHG acts on the rise of its line alone (R271). -/
def thaTrip (n : Fin 8) (x : Int) (s0 : State) : State :=
  let s := anaPut n x s0
  if domOn s 2 && tripEn s n && !s.tha.tract.testBit n.val && tripMet s n then
    let act := fld (thaLive s (0x81 + 6 * n.val)) 1 0
    let s1 := tripLines (tisSet 0x02 (tfltSet 0x01 { s with
      tha := { s.tha with tract := s.tha.tract ||| 2 ^ n.val }
      thd := { s.thd with trips := modAt s.thd.trips n (fun c => { c with rels := 0 }) } }))
    let p1 := if tripAna s n then thaLive s (0x82 + 6 * n.val) else ofSigned 16 s.thd.trips[n].last
    let s2 := logRec 0x08 0x01 [n.val, p1, act] (raiseWake 0xB (setHint 10 s1))
    fansTripped (if s.tha.chgTrip then s2 else chgTripped s2)
  else s

/-- A TRACT bit clears: the lines follow and TRIP_CLEAR is logged (R240, R241). -/
def tripRelease (n : Fin 8) (s : State) : State :=
  setHint 10 <| logRec 0x08 0x02 [n.val] (tripLines (tisSet 0x04 { s with
    tha := { s.tha with tract := setBit s.tha.tract n.val false }
    thd := { s.thd with trips := modAt s.thd.trips n (fun c => { c with acts := 0, rels := 0 }) } }))

/-- TRIP_CLEAR: an active entry with LATCH = 0 meets its release condition (R240); x as for TRIP. -/
def thaTripClear (n : Fin 8) (x : Int) (s0 : State) : State :=
  let s := anaPut n x s0
  if domOn s 2 && s.tha.tract.testBit n.val && !(thaLive s (0x80 + 6 * n.val)).testBit 5 && tripReleased s n then tripRelease n s
  else s

/-- A W1C write of TRACT (R240): each bit clears only if its release condition holds; otherwise TIS.TRIP sets. -/
def tractWrite (v : Nat) (s : State) : State :=
  (List.finRange 8).foldl (fun s n =>
    if !v.testBit n.val || !s.tha.tract.testBit n.val then s
    else if tripReleased s n then tripRelease n s
    else tisSet 0x02 s) s

/-! ### Fan curves (R245, R246) -/

/-- The curve target at Teff in 1/16 °C (R245). -/
def curveTarget (s : State) (n : Nat) (teff : Int) : Int :=
  let tp (p : Nat) : Int := 16 * toSigned 8 (thaLive s (0x10000 + 8 * n + p))
  let gp (p : Nat) : Int := thaLive s (0x20000 + 8 * n + p)
  if teff < tp 0 then gp 0
  else if tp 7 < teff then gp 7
  else match (upTo 7).find? (fun p => decide (teff ≤ tp (p + 1))) with
    | some p => gp p + roundR (((gp (p + 1) - gp p : Int) : Rat) * ((teff - tp p : Int) : Rat) / ((tp (p + 1) - tp p : Int) : Rat))
    | none => gp 7

/-- FAN_CURVE_UPDATE of fan n (R245, R246). -/
def fanUpdate (n : Fin 4) (s : State) : State :=
  if !(domOn s 2 && fanEn s n.val) then s else
  let f := s.thd.fans[n]
  let b := 16 * n.val
  let put (f : Fan) : State := { s with thd := { s.thd with fans := s.thd.fans.set n f } }
  let temps := (upTo 4).filterMap (fun i => srcTemp s (fld (thaLive s (0xB1 + b + i)) 4 0))
  match temps with
  | [] => put { f with noSrc := true }
  | t :: ts =>
    let tin := ts.foldl max t
    let hys : Int := 4 * (thaLive s (0xB5 + b) : Int)
    let teff := match f.teff with
      | none => tin
      | some e => if e < tin then tin else if tin + hys < e then tin + hys else e
    let g := curveTarget s n.val teff
    let g' : Int := (g * (256 + toSigned 8 s.thd.fmptrim[n])) / 256
    let dmin : Int := thaLive s (0xB6 + b)
    let f1 := { f with teff := some teff, noSrc := false, target := (if fanClosed s n.val then g' else min 255 g').toNat }
    if fanClosed s n.val then
      let e := g' - f.speed
      let hold := s.thd.foven.testBit n.val
      if g' ≤ 0 then put { f1 with loop := 0, i := if hold then f.i else (256 * dmin).toNat }
      else
        let i := if hold then (f.i : Int) else clampI (256 * dmin) 65535 (f.i + (thaLive s (0xB9 + b) : Int) * e)
        put { f1 with i := i.toNat
                      loop := (clampI dmin 255 (i / 256 + ((thaLive s (0xB8 + b) : Int) * e) / 256)).toNat }
    else put { f1 with loop := if g' ≤ 0 then 0 else (max dmin (min 255 g')).toNat }

/-! ### Rounds and readings (R229 to R237) -/

/-- A committed set becomes live at a round start (R45): fans that it enables start afresh (R245, R246), a fan that
it disables stops, and the trip lines follow the new actions. The first evaluation of a fan's curve is the COMMIT
that enables it (DEDUCED, log entry 36). An entry whose source, type, threshold or enable changes counts afresh: its
earlier readings are none of its present source and threshold (DEDUCED, log entry 36). A trip line that the set
asserts, or TRIPDRV under an asserted one, acts as in R47 and R242. -/
def thaLoad (s : State) : State :=
  match s.tha.cfg.pnd with
  | none => s
  | some set =>
    if domOn s 2 then
      let s1 := { s with tha := { s.tha with cfg := { s.tha.cfg with live := set, pnd := none } } }
      let s2 := { s1 with thd := { s1.thd with fans := Vector.ofFn (fun n =>
        let f := s1.thd.fans[n]
        if fanEn s1 n.val && !fanEn s n.val then { f with teff := none, i := 256 * thaLive s1 (0xB6 + 16 * n.val) }
        else if !fanEn s1 n.val then { f with kick := false, pwm := 0 } else f) } }
      let s3 := { s2 with thd := { s2.thd with trips := Vector.ofFn (fun (n : Fin 8) =>
        let b := 0x80 + 6 * n.val
        let same (k : Nat) : Bool := thaLive s k = thaLive s1 k
        if same b && same (b + 2) && same (b + 5) then s2.thd.trips[n] else {}) } }
      let s4 := fansTripped (tripLines ((List.finRange 4).foldl (fun x n => if fanEn s n.val then x else fanUpdate n x) s3))
      if s4.tha.chgTrip && !s.tha.chgTrip then chgTripped s4 else s4
    else s

/-- COMMIT_APPLY of THA: at a round start, when no conversion of a round is left (R45, R232). -/
def thaApply (s : State) : State := if s.tha.en && s.tha.anOn = 0 && s.tha.sensor = none then thaLoad s else s

/-- The sources that take part in the sensor rotation (R232). -/
def rotation (s : State) : List Nat := bitsOf 9 (thaLive s (if s.dct.mode = .watch then 0x48 else 0x44))

/-- CONVERSION_ROUND: a round starts (R232, R236). -/
def thaRoundStart (s : State) : State :=
  if !(domOn s 2 && s.tha.en) then s else
  let s1 := thaLoad s
  let rot := rotation s1
  let next := match rot.find? (fun i => decide (s1.tha.rot < i)) with | some i => some i | none => rot.head?
  let chans := thaLive s1 (if s1.dct.mode = .watch then 0x46 else 0x42)
  tisSet 0x01 { s1 with tha := { s1.tha with
    rcfg := s1.tha.cfg.live, sensor := next, rot := next.getD s1.tha.rot, anOn := chans
    rcount := if chans = 0 then s1.tha.rcount + 1 else s1.tha.rcount } }

/-- The code of an input voltage in µV (R231). -/
def anCode (uv : Nat) : Nat := min 16383 (16384 * uv / 1800000)

/-- One conversion of AN channel m with code c (R231, R233). -/
def anConvert (g : Nat → Nat) (m : Nat) (c : Nat) (x : AnCh) : AnCh :=
  let f := fld (g (0x50 + m)) 5 3
  let y18 : Nat := if f = 0 then 16 * c else (openRound ((x.y18 : Rat) + ((16 * c : Nat) - (x.y18 : Rat)) / (2 ^ f : Nat))).toNat
  let y := (y18 + 8) / 16
  let b := if anMode g m = 2 then 0x68 else 0x62
  let t := ntcTemp (g b) (g (b + 2)) (g (b + 4)) y
  let ok := (anMode g m = 1 || anMode g m = 2) && decide (256 ≤ y) && decide (y ≤ 16128) && decide (-640 ≤ t) && decide (t ≤ 2400)
  { x with y18 := y18, t := t, valid := ok }

/-- AN_RESOLVE: every AN reading of the round resolves on one edge, from the voltages in µV at the pins of the channels with which
the round started (R231 to R233, R235 to R237, R239). -/
def thaAnResolve (uv : Vector Nat 16) (s : State) : State :=
  if !(domOn s 2 && s.tha.en) then s else
  let g := thaRound s
  let watch := s.dct.mode = .watch
  let chans := bitsOf 16 s.tha.anOn
  if chans = [] then s else
  let an : Vector AnCh 16 := Vector.ofFn (fun m =>
    if chans.contains m.val then anConvert g m.val (anCode uv[m]) s.thd.an[m] else s.thd.an[m])
  let s1 := { s with thd := { s.thd with an := an }, tha := { s.tha with rcount := s.tha.rcount + 1, anOn := 0 } }
  let s2 := chans.foldl (fun s m =>
    let x := an[(finOf 16 m)]
    let md := anMode g m
    if md = 1 || md = 2 then tripReading g (9 + m) (if x.valid then some x.t else none) s else s) s1
  let fwd := g 0x4B
  let ch := fld fwd 3 0
  let x := an[(finOf 16 ch)]
  let s3 := if fwd.testBit 7 && chans.contains ch && (anMode g ch = 1 || anMode g ch = 2) && x.valid
      && domOn s2 6 && fld (lgtLive s2 0x2B) 1 0 = 1 then ltinSet (ofSigned 16 x.t) s2 else s2
  let moved := chans.any (fun m =>
    let x := an[(finOf 16 m)]
    (g (0x50 + m)).testBit 2 && decide ((g 0x60 : Int) < |(anRaw x : Int) - x.wlat|))
  if watch && moved then raiseWake 4 s3 else s3

/-- The WATCH latch of the stick channels (R237). -/
def thaWatchLatch (s : State) : State :=
  { s with thd := { s.thd with an := Vector.ofFn (fun m =>
    if (thaLive s (0x50 + m.val)).testBit 2 then { s.thd.an[m] with wlat := anRaw s.thd.an[m] } else s.thd.an[m]) } }

/-- SENSOR_READING of the round's sensor (R229, R230): the diode voltages at 7.5, 30 and 120 µA in nV, or the
calibrated on-die temperature in 1/16 °C. -/
def thaSensor (src : Fin 9) (v1 v2 v3 : Nat) (die : Int) (s : State) : State :=
  if !(domOn s 2 && s.tha.en && s.tha.sensor = some src.val) then s else
  let g := thaRound s
  let x := s.thd.sens[src]
  let s0 := { s with tha := { s.tha with sensor := none } }
  let put (x : Sensor) : State := { s0 with thd := { s0.thd with sens := s0.thd.sens.set src x } }
  if src.val < 8 && (decide (1000000000 < v1) || decide (v1 < 150000000)) then
    let s1 := put { x with faults := x.faults + 1, verdict := if 1000000000 < v1 then 1 else 2 }
    -- the first faulted reading leaves the source as it was: no reading for the trip entries (R230, R239)
    if x.faults = 0 then s1 else tripReading g src.val none s1
  else
    let t := if src.val = 8 then die
      else diodeTemp v1 v2 v3 (toSigned 8 (g (0x70 + 2 * src.val))) (toSigned 8 (g (0x71 + 2 * src.val)))
    tripReading g src.val (some t) (put { t := t, valid := true, faults := 0, verdict := 0, fault := false })

/-- SENSOR_FAULT: the second consecutive faulted reading (R230). -/
def thaSensorFault (src : Fin 9) (s : State) : State :=
  let x := s.thd.sens[src]
  if domOn s 2 && decide (2 ≤ x.faults) && !x.fault then
    logRec 0x08 0x03 [src.val, x.verdict] (tisSet 0x08 (tfltSet 0x02 { s with
      thd := { s.thd with sens := s.thd.sens.set src { x with valid := false, fault := true } } }))
  else s

/-! ### Virtual sensors (R234) -/

/-- A write of VTn: 0x8000 makes it invalid, any other value is a reading. -/
def vtSet (n : Fin 4) (v : Nat) (s : State) : State :=
  if v % 65536 = 0x8000 then { s with thd := { s.thd with vt := s.thd.vt.set n { t := 0x8000, valid := false, stale := false } } }
  else tripReading (thaLive s) (25 + n.val) (some (toSigned 16 v))
    { s with thd := { s.thd with vt := s.thd.vt.set n { t := v % 65536, valid := true, stale := false } } }

/-- VT_STALE: a VT has not been written for VTSTALE × 100 ms (R234). -/
def vtStale (n : Fin 4) (s : State) : State :=
  if domOn s 2 && thaLive s 0x4C ≠ 0 && s.thd.vt[n].valid then
    logRec 0x08 0x05 [n.val] (tisSet 0x20 (tfltSet 0x08 (tripReading (thaLive s) (25 + n.val) none
      { s with thd := { s.thd with vt := s.thd.vt.set n { s.thd.vt[n] with valid := false, stale := true } } })))
  else s

/-! ### Fans (R242 to R244, R247) -/

/-- FAN_PWM_PERIOD: the selected duty takes effect at the period start (R241, R242, R247). -/
def fanPwm (n : Fin 4) (s : State) : State :=
  if domOn s 2 then { s with thd := { s.thd with fans := modAt s.thd.fans n (fun f => { f with pwm := fanDuty s n }) } } else s

/-- TACH_EDGE: an accepted falling edge ends an interval of ck CK; an interval that spans a CK source change, or the
first edge, gives none (R243, R244). -/
def fanTach (n : Fin 4) (ck : Nat) (spans : Bool) (s : State) : State :=
  if !domOn s 2 || spans || ck = 0 then s else
  let ppr := fld (thaLive s (0xB0 + 16 * n.val)) 3 2 + 1
  let v := reg16 (openRound ((60 * (if s.clk.ckPll then 240000000 else 24000000) : Rat) / ((ck * ppr : Nat) : Rat)))
  { s with thd := { s.thd with fans := modAt s.thd.fans n (fun f =>
    if v ≠ 0 then { f with speed := v, stall := false, kicks := 0 } else { f with speed := v }) } }

/-- FAN_SPEED_ZERO: no falling edge for 1 s (R243). -/
def fanZero (n : Fin 4) (s : State) : State :=
  if domOn s 2 then { s with thd := { s.thd with fans := modAt s.thd.fans n (fun f => { f with speed := 0 }) } } else s

/-- FAN_STALL: speed 0 for STALLT × 100 ms at a duty of at least STALLD (R244). -/
def fanStall (n : Fin 4) (s : State) : State :=
  let f := s.thd.fans[n]
  if domOn s 2 && fanEn s n.val && f.speed = 0 && !f.kick && decide (thaLive s (0xBC + 16 * n.val) ≤ f.pwm) then
    let f1 := { f with stall := true, kick := decide (f.kicks < 3), kicks := if f.kicks < 3 then f.kicks + 1 else f.kicks }
    setHint 10 <| logRec 0x08 0x04 [n.val, f.kicks] (tisSet 0x10 (tfltSet 0x04 { s with thd := { s.thd with fans := s.thd.fans.set n f1 } }))
  else s

/-- FAN_KICK_END: a 2-s kick ends (R244). -/
def fanKickEnd (n : Fin 4) (s : State) : State :=
  if domOn s 2 then { s with thd := { s.thd with fans := modAt s.thd.fans n (fun f => { f with kick := false }) } } else s

/-! ### Register access (R251, R252) -/

/-- A write of a THA register that is not staged by offset. -/
def thaWrite (off v : Nat) (s : State) : State :=
  let q := s.tha
  let err : State := { s with tha := { q with cfg := { q.cfg with err := true } } }
  let stage (k x : Nat) (q : Tha) : Tha := { q with cfg := { q.cfg with stg := spSet 0 q.cfg.stg k x, dirty := true } }
  if off = 0x04 then { s with tha := { q with viewlive := v.testBit 1, en := v.testBit 0 } }
  else if off = 0x06 then { s with tha := { q with tflt := w1c 4 q.tflt v } }
  else if off = 0x07 then { s with tha := { q with tie := v % 64 } }
  else if off = 0x08 then { s with tha := { q with tis := w1c 6 q.tis v } }
  else if off = 0x09 then tractWrite v s
  else if off = 0x0E then if 29 ≤ v % 32 then err else { s with tha := { q with tsel := v % 32 } }
  else if 0x14 ≤ off ∧ off < 0x1C then vtSet (finOf 4 ((off - 0x14) / 2)) v s
  else if 0x1C ≤ off ∧ off < 0x20 then { s with thd := { s.thd with fovr := s.thd.fovr.set (finOf 4 (off - 0x1C)) (v % 256) } }
  else if off = 0x20 then { s with thd := { s.thd with foven := v % 16 } }
  else if 0x21 ≤ off ∧ off < 0x25 then { s with thd := { s.thd with fmptrim := s.thd.fmptrim.set (finOf 4 (off - 0x21)) (v % 256) } }
  else if off = 0xF0 then { s with tha := { q with fcsel := v % 32 } }
  else if off = 0xF1 then { s with tha := stage (0x10000 + q.fcsel) (v % 256) q }
  else if off = 0xF2 then { s with tha := { stage (0x20000 + q.fcsel) (v % 65536) q with fcsel := (q.fcsel + 1) % 32 } }
  else s

end Sys2Proof.Machine
end

