-- ==== Sys2Proof/Machine/Pins.lean ====
section
/-! DEFINITION. The outputs at their pins, as the state gives them: what a reset, SHIP, an off domain and a missing bank supply
make of each (00 R21; 12 R402, R404; 13 R425; 16 R483), and the levels of the scanner, the lighting matrix, LSYNC and the chain,
the charger, the sequencer, the fans, the SMBus controllers, GPIO, the test port and the host ports. -/

namespace Sys2Proof.Machine

/-- The pads are driven at all: no reset source holds the device, D0 is up, and it is not in SHIP (R21, R402, R435, R500). -/
def padsOn (s : State) : Bool := s.rst.active = 0 && decide (2 ≤ s.rst.step) && s.dct.mode ≠ .ship

/-- An output of domain d at a bank whose supply is up: high impedance wherever one of them is missing (R21, R425, R483). -/
def padOf (s : State) (d : Nat) (bank : Bool) (lvl : Pin) : Pin := if padsOn s && domOn s d && bank then lvl else .hiZ

/-- A push-pull output's level. -/
def pushPull (high : Bool) : Pin := if high then .high else .low

/-- An open-drain output drives only its low level. -/
def openDrain (high : Bool) : Pin := if high then .hiZ else .low

/-! ### KSC (R51, R90) -/

/-- Drive line KDk: low only in its own dwell (R51). -/
def kdPin (s : State) (k : Nat) : Pin := padOf s 5 s.gpio.viok (openDrain (sampleLine s ≠ some k))

/-- The internal pull-ups of the sense lines are connected: from the start of the scan until its stop takes effect, where PULLEN
asks for them (R51, R90). -/
def ksPull (s : State) : Bool :=
  padsOn s && domOn s 5 && s.gpio.viok && s.ksc.scanning && (kscLive s 0x15).testBit 3

/-! ### LGT (R100 to R106, R114, R115) -/

/-- The CK of the slot in progress up to the end of its guard: a follower makes the guard of its last slot g CK longer, or shorter,
by at most GUARD − 16 (R127). How far is the distance of an edge that is yet to come, so it is an argument. R127 states the bound
for a follower out of synchronisation; one in synchronisation whose edge is later takes it too, and shows its line off after the guard
(DESIGN CHOICE, log entry 48). -/
def slotLen (s : State) (g : Int) : Nat :=
  if lgtRole s = 2 && s.lgt.line + 1 = lgtLive s 0x10 then
    (lgtSlot s + clampI (16 - (lgtLive s 0x14 : Int)) ((lgtLive s 0x14 : Int) - 16) g).toNat
  else lgtSlot s

/-- The phase of line j's slot, t CK from its first edge (R103); the probe interval follows the guard of the probed line's
slot (R114); g as in slotLen. -/
def slotPhase (s : State) (t : Nat) (g : Int := 0) : SlotPhase :=
  if t < lgtLive s 0x13 then .release
  else if t < lgtLive s 0x11 then .charge
  else if t < lgtLive s 0x11 + 4096 * lgtStep s then .pulse
  else if t < slotLen s g || !probesLine s s.lgt.line then .guard
  else .probe

/-- A slot is in progress whose line's LSG may be on: frames run, a slot has started since the boundary, no rail fault holds
the matrix and no power-down is prepared (R103, R113, R136). A rail fault keeps the pre-charge switches off too, where R113 names
the sinks and the LSGs (DESIGN CHOICE, log entry 48). -/
def slotRuns (s : State) : Bool :=
  s.lgt.running && s.lgt.next ≠ 0 && !s.lgt.flt.testBit 4 && !(s.dct.lgtPrep && s.lgt.blanked)

/-- The slot's line is switched on in a phase (R103). -/
def phaseOn : SlotPhase → Bool
  | .release => false
  | .charge => false
  | .pulse => true
  | .guard => true
  | .probe => true

/-- LSGj, t CK into the slot: GND turns the line on, LSGV off (R100, R102, R103). In a frame that probes no line the probe interval
follows the last slot with every line off (R114); g as in slotLen. -/
def lsgPin (s : State) (j t : Nat) (g : Int := 0) : Pin :=
  let past := decide (slotLen s g ≤ t) && !probesLine s s.lgt.line
  padOf s 6 s.gpio.lsgv (pushPull !(slotRuns s && j = s.lgt.line && phaseOn (slotPhase s t g) && !past))

/-- The pre-charge switch of sink k is on: in the charge phase, where LSINKEN enables the sink (R102, R103, R106). -/
def preSwitch (s : State) (k t : Nat) : Bool :=
  padsOn s && domOn s 6 && slotRuns s && (lgtLive s 0x17).testBit k && slotPhase s t = .charge

/-- The voltage to which the pre-charge switch of sink k drives its pin, in mV: V(RSET_c) − 1.20 V, not below 0 (R106, R111). -/
def preMv (s : State) (k : Nat) : Nat := 1600 + 15 * s.lgt.rails[(finOf 3 (k / 24))].rset - 1200

/-- The current code of sink k, t CK into the slot (R103, R115); 0 is off; g as in slotLen. -/
def sinkCode (s : State) (k t : Nat) (g : Int := 0) : Nat :=
  let p := spGet (0, 0) s.lgt.pulses k
  if !(padsOn s && domOn s 6 && slotRuns s) then 0
  else match slotPhase s t g with
    | .release => 0
    | .charge => 0
    | .pulse => if t < lgtLive s 0x11 + p.2 * lgtStep s then p.1 else 0
    | .guard => 0
    | .probe => if s.lgt.probe.getLsbD k then 4 else 0

/-- The controller of rail c drives its gates (R111, R483). -/
def railRuns (s : State) (c : Fin 3) : Bool := padsOn s && domOn s 6 && s.gpio.vdrvl && s.lgt.rails[c].st ≠ .off

/-- The on-time of string n in CK: round(W × F / 4096) from the frame boundary on (R118). -/
def stringOnCk (s : State) (n : Fin 8) : Nat := rdiv (s.lgt.esPulse[n].2 * lgtFper s) 4096

/-- Stage n switches and its dimming FET conducts, t CK after the frame boundary: in the on-time only (R117, R118, R483). -/
def stageRuns (s : State) (n : Fin 8) (t : Nat) : Bool :=
  padsOn s && domOn s 6 && s.gpio.vdrvl && s.lgt.esPulse[n] ≠ (0, 0) && decide (t < stringOnCk s n)

/-- A gate of rail c's controller, which high turns on: the loop turns it on at the instants that `on` names, as the place within a
switching period is not state (DESIGN CHOICE, log entry 2); high impedance with VDRVL missing (R111, R483). -/
def railGate (s : State) (c : Fin 3) (on : Bool) : Pin := padOf s 6 s.gpio.vdrvl (pushPull (on && railRuns s c))

/-- ESnGL and ESnGH, t CK after the frame boundary; on as in railGate (R117, R483). -/
def esGate (s : State) (n : Fin 8) (t : Nat) (on : Bool) : Pin := padOf s 6 s.gpio.vdrvl (pushPull (on && stageRuns s n t))

/-- ESnDIM, t CK after the frame boundary: high turns the dimming FET on (R117, R118, R483). -/
def esDimPin (s : State) (n : Fin 8) (t : Nat) : Pin := padOf s 6 s.gpio.vdrvl (pushPull (stageRuns s n t))

/-- LSYNC, t CK after the edge on which a master drives its pulse: open drain, driven low for the length of the pulse, and by a
master alone (R125, R126). -/
def lsyncPin (s : State) (t : Nat) : Pin :=
  padOf s 6 s.gpio.viom (openDrain !(lgtRole s = 1 && decide (t < s.lgb.lsync)))

/-- LTDO (R132). -/
def ltdoPin (s : State) : Pin := padOf s 6 s.gpio.viom (pushPull s.lgb.ltdo)

/-! ### CHG (R145, R146, R404) -/

/-- CGH1, CGL1, CGL2, CGH2 for i from 0 to 3, t CK after the last change of the gates (see gatesAt); high turns the switch on. -/
def cgPin (s : State) (i t arrive : Nat) : Pin := padOf s 1 s.gpio.drvv (pushPull ((gatesAt s t arrive).testBit (3 - i)))

/-- ACG and BATG; high turns the input-blocking FETs, and the battery FET, on. -/
def acgPin (s : State) : Pin := padOf s 1 true (pushPull s.chp.acg)
def batgPin (s : State) : Pin := padOf s 1 true (pushPull s.chp.batg)

/-- What the board makes of a gate drive: an undriven switch or input-blocking FET is off, an undriven battery FET on (R145,
R425). -/
def fetOn (p : Pin) (undriven : Bool) : Bool :=
  match p with
  | .hiZ => undriven
  | .low => false
  | .high => true

/-! ### SEQ, THA and GPIO -/

/-- PSn: PSOUT with PSPOL, where PSOE enables it (R199). -/
def psPin (s : State) (n : Nat) : Pin :=
  padOf s 2 s.gpio.vios
    (if (seqLive s 0x20).testBit n then pushPull (s.seq.psout.testBit n != (seqLive s 0x24).testBit n) else .hiZ)

/-- The CK of a fan's PWM period, and those of them in which FPWMn is at its active level (R242); in WATCH and in fallback CK
runs from the crystal (R26, R400). -/
def fanPeriod (s : State) : Nat := if s.clk.ckPll then 9600 else 960
def fanOnCk (s : State) (n : Fin 4) : Nat := (2 * s.thd.fans[n].pwm * fanPeriod s + 255) / 510

/-- FPWMn, t CK into its period: the active level is released with INV = 0 and low with INV = 1 (R242). -/
def fanPin (s : State) (n : Fin 4) (t : Nat) : Pin :=
  let inv := (thaLive s (0xB0 + 16 * n.val)).testBit 4
  padOf s 2 s.gpio.viom (if fanEn s n.val then openDrain (decide (t < fanOnCk s n) != inv) else .hiZ)

/-- SCL and SDA of SMBus controller n, SMB0 in D1 and the others in D2: open drain, and released with EN = 0 and while the
controller neither runs a transaction nor answers Host Notify (R255, R258, R259, R260). pull says whether the bit that it is at
pulls the line low: the place within a transaction is not state (DESIGN CHOICE, log entry 2). -/
def smbPin (s : State) (n : Fin 4) (pull : Bool) : Pin :=
  let c := s.smb[n]
  padOf s (if n = 0 then 1 else 2) s.gpio.viom (openDrain !(pull && c.en && (c.busy || c.hnen)))

/-- GPIOn: OE drives it, OD only low (R500). -/
def gpioPin (s : State) (n : Fin 4) : Pin :=
  let high := s.gpio.out.testBit n.val
  padOf s 0 s.gpio.viom
    (if !s.gpio.oe.testBit n.val then .hiZ else if s.gpio.od.testBit n.val then openDrain high else pushPull high)

/-! ### The test port (R30, R483) -/

/-- TDO: driven with the bit that is shifted out in the two shift states, and high-impedance in the others (PRESUMED: the
standard's controller, log entry 41); the registers behind it are none of the spec's. -/
def tdoPin (s : State) (bit : Bool) : Pin :=
  padOf s 0 s.gpio.viom (if s.tap.st = .shDr ∨ s.tap.st = .shIr then pushPull bit else .hiZ)

/-! ### Host ports (R262, R263, R265, R269, R404) -/

/-- RDY, INT_N, ERR_N and Dn of a port: driven while the port is powered. Dn is driven from the data edge of a read and only
while the synchronised RD_N is low, which rd says (R265). -/
def rdyPin (s : State) (p : Port) : Pin :=
  let h := s.hp[p]
  padOf s 7 h.powered
    (if !h.cs then .hiZ else if h.hctl.testBit 1 then openDrain !h.rdyLow else pushPull !h.rdyLow)

def intPin (s : State) (p : Port) : Pin :=
  padOf s 7 s.hp[p].powered (if s.hp[p].hctl.testBit 2 then pushPull !intLow s p else openDrain !intLow s p)

def errPin (s : State) (p : Port) : Pin :=
  padOf s 7 s.hp[p].powered (if s.hp[p].hctl.testBit 0 then pushPull !errLow s p else .hiZ)

def dPin (s : State) (p : Port) (n : Nat) (rd : Bool) : Pin :=
  padOf s 7 s.hp[p].powered (if s.hp[p].driven && rd then pushPull (s.hp[p].dOut.getLsbD n) else .hiZ)

end Sys2Proof.Machine
end

