-- ==== Sys2Proof/Machine/Crypto.lean ====
section
/-! DEFINITION. The checks of a container and of the boot record: SHA-256, ECDSA over P-256 and CRC-32 (12 R410, R411,
R413). Every function is structural recursion over lists and fuel. -/

namespace Sys2Proof.Machine

/-- A big-endian number from bytes, highest first. -/
def beNat (l : List Nat) : Nat := l.foldl (fun a b => a * 256 + b % 256) 0

/-- The n bytes of v, highest first. -/
def beBytes (n v : Nat) : List Nat := (leBytes n v).reverse

/-! ### SHA-256 (R410; its constants are the first fraction bits of roots of the first primes) -/

/-- A word of the hash. -/
def shaMod (v : Nat) : Nat := v % 2 ^ 32

/-- The primes among 2 to 311, in order: 64 of them. -/
def shaPrimes : List Nat :=
  (upTo 312).filter (fun n => 2 ≤ n && (upTo 18).all (fun d => d < 2 || n ≤ d || n % d ≠ 0))

/-- The greatest x below 2^k with x^e ≤ v, bit by bit from the top. -/
def rootFloor (e v : Nat) : Nat → Nat → Nat
  | 0, x => x
  | k + 1, x => if (x + 2 ^ k) ^ e ≤ v then rootFloor e v k (x + 2 ^ k) else rootFloor e v k x

/-- The first 32 fraction bits of the e-th root of p. -/
def rootBits (e p : Nat) : Nat := shaMod (rootFloor e (p * 2 ^ (32 * e)) 38 0)

/-- x turned right by n places. -/
def turn (x n : Nat) : Nat := shaMod (x / 2 ^ n + x * 2 ^ (32 - n))

/-- The exclusive or of x turned by each of a list of places. -/
def turns (x : Nat) (l : List Nat) : Nat := (l.map (turn x)).foldl (· ^^^ ·) 0

/-- Where a block stands: the next 16 words of its schedule, and the last four values of each of its two chains, the
newest first. -/
abbrev ShaAt := List Nat × List Nat × List Nat

/-- One of the 64 steps, with its constant: each chain takes a value, and the schedule a word. -/
def shaStep (x : ShaAt) (k : Nat) : ShaAt :=
  let w (i : Nat) : Nat := x.1.getD i 0
  let a (i : Nat) : Nat := x.2.1.getD i 0
  let e (i : Nat) : Nat := x.2.2.getD i 0
  let choose := (e 0 &&& (e 1 ^^^ e 2)) ^^^ e 2
  let most := (a 0 &&& (a 1 ||| a 2)) ||| (a 1 &&& a 2)
  let mix := e 3 + turns (e 0) [6, 11, 25] + choose + k + w 0
  let word := w 0 + (turns (w 1) [7, 18] ^^^ w 1 / 8) + w 9 + (turns (w 14) [17, 19] ^^^ w 14 / 1024)
  (x.1.drop 1 ++ [shaMod word], shaMod (mix + turns (a 0) [2, 13, 22] + most) :: x.2.1.take 3, shaMod (a 3 + mix) :: x.2.2.take 3)

/-- One block of 64 bytes. -/
def shaBlock (h : List Nat) (blk : List Nat) : List Nat :=
  let w := (upTo 16).map (fun i => beNat ((blk.drop (4 * i)).take 4))
  let z := (shaPrimes.map (rootBits 3)).foldl shaStep (w, h.take 4, h.drop 4)
  List.zipWith (fun u v => shaMod (u + v)) h (z.2.1 ++ z.2.2)

/-- n blocks of a padded message. -/
def shaBlocks (n : Nat) (m : List Nat) : List Nat :=
  (upTo n).foldl (fun h i => shaBlock h ((m.drop (64 * i)).take 64)) ((shaPrimes.take 8).map (rootBits 2))

/-- SHA-256 of a byte string, as a number (first digest byte highest). -/
def sha256 (m : List Nat) : Nat :=
  let n := m.length
  let full := m ++ [0x80] ++ List.replicate ((119 - n % 64) % 64) 0 ++ beBytes 8 (8 * n)
  (shaBlocks (full.length / 64) full).foldl (fun a w => a * 2 ^ 32 + w) 0

/-! ### ECDSA over P-256 (FIPS 186-4) -/

/-- The field prime, the coefficient b, the base point and its order. -/
def p256P : Nat := 0xffffffff00000001000000000000000000000000ffffffffffffffffffffffff
def p256B : Nat := 0x5ac635d8aa3a93e7b3ebbd55769886bc651d06b0cc53b0f63bce3c3e27d2604b
def p256N : Nat := 0xffffffff00000000ffffffffffffffffbce6faada7179e84f3b9cac2fc632551
def p256G : Nat × Nat :=
  (0x6b17d1f2e12c4247f8bce6e563a440f277037d812deb33a0f4a13945d898c296,
   0x4fe342e2fe1a7f9b8ee7eb4a7c0f9e162bce33576b315ececbb6406837bf51f5)

/-- b ^ e modulo m over the low `fuel` bits of e. -/
def powMod : Nat → Nat → Nat → Nat → Nat
  | 0, _, _, m => 1 % m
  | k + 1, b, e, m =>
    let r := powMod k (b * b % m) (e / 2) m
    if e % 2 = 1 then r * b % m else r

/-- The inverse modulo a prime m. -/
def invMod (a m : Nat) : Nat := powMod 256 (a % m) (m - 2) m

/-- The sum of two points; none is the point at infinity. -/
def ecAdd (u v : Option (Nat × Nat)) : Option (Nat × Nat) :=
  match u, v with
  | none, v => v
  | u, none => u
  | some (x1, y1), some (x2, y2) =>
    let p := p256P
    if x1 = x2 && (y1 + y2) % p = 0 then none
    else
      let l := if x1 = x2 then (3 * x1 * x1 + (p - 3)) * invMod (2 * y1) p % p
               else (y2 + p - y1) * invMod (x2 + p - x1) p % p
      let x3 := (l * l + 2 * p - x1 - x2) % p
      some (x3, (l * (x1 + p - x3) + p - y1) % p)

/-- k times a point, over the low `fuel` bits of k. -/
def ecMul : Nat → Nat → Option (Nat × Nat) → Option (Nat × Nat)
  | 0, _, _ => none
  | n + 1, k, q =>
    let r := ecMul n (k / 2) (ecAdd q q)
    if k % 2 = 1 then ecAdd r q else r

/-- The pair is a point of the curve. -/
def onCurve (x y : Nat) : Bool :=
  decide (x < p256P) && decide (y < p256P) && (y * y) % p256P = (x * x * x + (p256P - 3) * x + p256B) % p256P

/-- The signature (r, s) of a digest verifies under the public key (x, y). -/
def ecdsaOk (x y r s digest : Nat) : Bool :=
  let n := p256N
  onCurve x y && 0 < r && r < n && 0 < s && s < n &&
  (let w := invMod s n
   match ecAdd (ecMul 256 (digest * w % n) (some p256G)) (ecMul 256 (r * w % n) (some (x, y))) with
   | none => false
   | some q => q.1 % n = r)

/-! ### CRC-32 (R413) -/

/-- One byte into the reflected CRC-32. -/
def crc32Byte (c b : Nat) : Nat :=
  (upTo 8).foldl (fun c _ => if c.testBit 0 then (c / 2) ^^^ 0xEDB88320 else c / 2) (c ^^^ b % 256)

/-- The CRC-32 of a byte string. -/
def crc32 (m : List Nat) : Nat := m.foldl crc32Byte 0xFFFFFFFF ^^^ 0xFFFFFFFF

end Sys2Proof.Machine
end

