-- ==== Sys2Proof/Machine/Bmk.lean ====
section
/-! DEFINITION. The benchmark block: monitors, the margin plan, the restore window and the bounds (15 R467 to R479). -/

namespace Sys2Proof.Machine

/-- The code of the first failing BMK agreement check, 0 when all pass (R479). -/
def bmkCheck (g : Nat → Nat) (step : Nat → Int) : Nat :=
  let items := upTo 11
  let outside (n : Nat) (x : Int) : Bool := decide (x < (itemRange n).1) || decide ((itemRange n).2 < x)
  if items.any (fun n => decide (itemMax g n < itemMin g n) || outside n (itemMin g n) || outside n (itemMax g n)) then 1
  else if items.any (fun n => (g 0x80).testBit n && (decide (step n < itemMin g n) || decide (itemMax g n < step n))) then 2
  else 0

/-- COMMIT_APPLY of BMK (R45). -/
def bmkApply (s : State) : State :=
  match s.bmk.cfg.pnd with
  | none => s
  | some set => if domOn s 2 then { s with bmk := { s.bmk with cfg := { s.bmk.cfg with live := set, pnd := none } } } else s

/-- The refusal code of a step of item n to x (R471); 0 when it is accepted. -/
def planCode (s : State) (n : Fin 11) (x : Int) : Nat :=
  if s.bmk.restore then 1
  else if !(bmkLive s 0x80).testBit n.val then 2
  else if s.bmk.age[n] < 1440 then 3
  else if x < itemMin (bmkLive s) n.val ∨ itemMax (bmkLive s) n.val < x then 4
  else 0

/-- A PLREQ of item n by one step (R471). It is evaluated after every write of its edge, so its command stands behind theirs (log
entry 2). -/
def planStep (n : Fin 11) (up : Bool) (s : State) : State :=
  if !domOn s 2 then s else
  let old := itemStep s n
  let x := if up then old + 1 else old - 1
  let q := s.bmk
  let code := planCode s n x
  if code ≠ 0 then { s with bmk := { q with resItem := n.val, resCode := code, bis := q.bis ||| 2 } }
  else logRec 9 1 [n.val, ofSigned 16 old, ofSigned 16 x] { s with bmk := { q with
    resItem := n.val, resCode := 0, bis := q.bis ||| 1, step := q.step.set n (ofSigned 8 x), age := q.age.set n 0 } }

/-- A write of BBOUND (R474). -/
def bboundWrite (v : Nat) (s : State) : State :=
  let new := (bitsOf 3 v).filter (fun i => !s.bmk.bbound.testBit i)
  let s1 := { s with bmk := { s.bmk with bbound := v % 8, bis := if new = [] then s.bmk.bis else s.bmk.bis ||| 4 } }
  new.foldl (fun s i => logRec 9 2 [i] s) s1

/-- BCTL.CLOSE (R472). -/
def restoreClose (s : State) : State := if domOn s 2 then { s with bmk := { s.bmk with restore := false } } else s

/-- A write of a BMK register that is not staged (R472, R477). -/
def bmkWrite (off v : Nat) (s : State) : State :=
  let q := s.bmk
  let err : State := { s with bmk := { q with cfg := { q.cfg with err := true } } }
  if off = 0x04 then
    let s1 := { s with bmk := { q with monen := v.testBit 0 } }
    if v.testBit 1 then restoreClose s1 else s1
  else if off = 0x06 then { s with bmk := { q with bie := v % 8 } }
  else if off = 0x07 then { s with bmk := { q with bis := w1c 3 q.bis v } }
  else if off = 0x08 then
    let i := v / 16 % 16
    if 11 ≤ i || v % 4 = 0 || v % 4 = 3 then err else planStep (finOf 11 i) (v % 4 = 1) s
  else if off = 0x0C then bboundWrite v s
  else if 0x10 ≤ off ∧ off < 0x1B then
    let n := off - 0x10
    let x := toSigned 8 v
    (if !q.restore then s
     else if x < (itemRange n).1 ∨ (itemRange n).2 < x then err
     else { s with bmk := { q with step := q.step.set (finOf 11 n) (v % 256) } })
  else if 0x20 ≤ off ∧ off < 0x36 then
    if q.restore then { s with bmk := { q with age := q.age.set (finOf 11 ((off - 0x20) / 2)) (v % 65536) } } else s
  else if off = 0x6C then if q.restore then { s with bmk := { q with stress := v % 65536 } } else s
  else if off = 0x6E then if q.restore then { s with bmk := { q with runh := v % 65536 } } else s
  else s

/-! ### Monitors (R467) -/

/-- MONITOR_UPDATE: the slack of the replicas in ps, the core supply in mV and the junction temperature in 1/16 °C. A
replica of an off domain, and every replica in WATCH and in fallback, keeps its value. -/
def bmkMonitor (slack : Vector Half 4) (mv : Half) (t : Half) (s : State) : State :=
  if !(domOn s 2 && s.bmk.monen) then s else
  let q := s.bmk
  let live (k : Fin 4) : Bool := s.dct.mode = .run && s.clk.ckPll && domOn s (if k = 0 then 3 else if k = 1 then 4 else if k = 2 then 6 else 7)
  { s with bmk := { q with
    slack := Vector.ofFn (fun k => if live k then slack[k].toNat else q.slack[k]), vcorem := mv.toNat, tjb := t.toNat } }

/-- 2^(1/160) to 30 places, the ratio of 1/16 °C in the law of R467 (DESIGN CHOICE, log entry 15). -/
def twoRoot : Rat := 1004341567291924352934663999171 / 1000000000000000000000000000000

/-- The stress of one minute at TJB = t, in 2^-40 of 4 h: 2^((t - 1360) / 160) / 240 (R467, DESIGN CHOICE, log entry 15). -/
def stressMinute (t : Int) : Nat :=
  let n := t - 1360
  let r := (n % 160).toNat
  let q := n / 160
  let m : Rat := twoRoot ^ r
  let x : Rat := if 0 ≤ q then m * 2 ^ q.toNat else m / 2 ^ (-q).toNat
  (x * 1099511627776 / 240).floor.toNat

/-- run ms of RUN time pass for the PLAGE counts (R468): a count goes up with each whole minute of RUN time. The minutes of all
items run together (DESIGN CHOICE, log entry 2). -/
def ageRun (run : Nat) (q : Bmk) : Bmk :=
  if run = 0 then q
  else if q.runMs + run < 60000 then { q with runMs := q.runMs + run }
  else { q with runMs := q.runMs + run - 60000, age := q.age.map (fun a => min 65535 (a + 1)) }

/-- STRESS_UPDATE: one minute passes while D2 is on (R467, R468). run is how many ms of it the device was in RUN; none where the
mode has not changed in it. -/
def bmkMinute (run : Option Nat) (s : State) : State :=
  if !domOn s 2 then s else
  let q := ageRun (run.getD (if s.dct.mode = .run then 60000 else 0)) s.bmk
  let acc := q.frac + (if q.monen && q.tjb ≠ 0x8000 then stressMinute (toSigned 16 q.tjb) else 0)
  { s with bmk := { q with
    stress := min 65535 (q.stress + acc / 1099511627776), frac := acc % 1099511627776 } }

/-- RUNH_UPDATE: one hour of RUN time passes (R467). -/
def bmkHour (s : State) : State :=
  if domOn s 2 && s.dct.mode = .run && s.bmk.monen then { s with bmk := { s.bmk with runh := (s.bmk.runh + 1) % 65536 } } else s

end Sys2Proof.Machine
end

