-- ==== Sys2Proof/Machine/Dct.lean ====
section
/-! DEFINITION. The domain controller: domains going down and coming up, mode entries, wakes, requests on domains, the
CK source, engine resets and the DCT registers (13 R423 to R445, 12 R397 to R409, 11 R388, R389). -/

namespace Sys2Proof.Machine

/-- DIS bits (R442): NOTICE 0, DONE 1, REFUSED 2, ABANDON 3, PORT 4, DOMAIN 5. -/
def disSet (m : Nat) (s : State) : State := { s with dct := { s.dct with dis := s.dct.dis ||| m } }

/-- Replaces the controller. -/
def putDct (q : Dct) (s : State) : State := { s with dct := q }

/-- HINTS.PWR in both ports (R271). -/
def hintPwr (s : State) : State := setHint 8 s

/-! ### Blocks and domains (R22) -/

/-- The domain of the block behind an engine I/O address, for engine e (R22, R289, R415): of the SMBus controllers SMB0 is in D1
and SMB1 to SMB3 in D2 (R259, R260); none where no block is. -/
def blockDom (e : Nat) (a : Nat) : Option Nat :=
  if a < 0x100 then some (engDom e)
  else if a < 0x400 then some 7
  else if a < 0x800 then some 5
  else if a < 0xC00 then some 6
  else if a < 0x1000 then some 1
  else if a < 0x1800 then some 2
  else if a < 0x2000 then some 0
  else if a < 0x2400 then some 2
  else if a < 0x2440 then some 1
  else if a < 0x2800 then some 2
  else if a < 0x3000 then some 0
  else if a < 0x3800 then some 7
  else none

/-- The key of the latch and the held byte of a register byte: master, engine whose registers it names, address. -/
def ioKey (m : Mst) (e a : Nat) : Nat := ((match m with | .ce n => n.val | .hp p _ => 6 + p.val) * 8 + e) * 65536 + a

/-- Forgets the latches and held bytes of the registers that a test on engine and address picks (R13). -/
def ioForget (f : Nat → Nat → Bool) (s : State) : State :=
  let keep (k : Nat) : Bool := !f (k / 65536 % 8) (k % 65536)
  { s with io := { s.io with latch := alKeep s.io.latch keep, held := alKeep s.io.held keep } }

/-- The snapshot block codes of a domain (R464). -/
def domSnaps (d : Nat) : List Nat :=
  if d = 1 then [0x06] else if d = 2 then [0x07, 0x08, 0x09] else if d = 3 then [0x10, 0x11, 0x12]
  else if d = 4 then [0x13, 0x14, 0x15] else if d = 5 then [0x04] else if d = 6 then [0x05]
  else if d = 7 then [0x0A, 0x0B, 0x0C, 0x0D, 0x0E] else []

/-- An engine held in reset (R316, R437). -/
def engHeld : Ceng := {}

/-- The engines of a domain after the domain has come up: in reset, with empty send buffers (R298, R378, R437). -/
def engsReset (d : Nat) (s : State) : State :=
  { s with eng := Vector.ofFn (fun (n : Fin 6) => if engDom n.val = d then engHeld else s.eng[n])
           emem := Vector.ofFn (fun (n : Fin 6) => if engDom n.val = d then {} else s.emem[n])
           mbx := { s.mbx with eng := Vector.ofFn (fun (n : Fin 6) =>
             if engDom n.val = d then { s.mbx.eng[n] with buf := [] } else s.mbx.eng[n]) } }

/-- The per-port state after a reset of it: every cursor at the oldest record held (R279, R284). -/
def selFresh (s : State) : PortSel := { fbcur := { seq := fbOldest s } }

/-- A port after D7 has come up: its supply and CS_N are the board's (R262, R312). -/
def portFresh (s : State) (h : HPort) : HPort :=
  { powered := h.powered, vio18 := h.vio18, cs := h.cs, sel := selFresh s }

/-- The outputs of both ports are not driven (R21, R263). -/
def portsFloat (s : State) : State :=
  { s with hp := s.hp.map (fun (h : HPort) => { h with driven := false, rdyLow := false }) }

/-- KEYSEL of both ports, which KSC holds (R277). -/
def keyselReset (s : State) : State :=
  { s with hp := s.hp.map (fun (h : HPort) => { h with sel := { h.sel with keysel := 0x20 } }) }

/-- LOGRDY of domain d: every memory and register of it takes its reset value, and its snapshot words read 0 (R312, R378,
R379, R423, R463). -/
def domReset (d : Nat) (s : State) : State :=
  let s1 := ioForget (fun e a => blockDom e a = some d) s
  let s2 := { s1 with svy := { s1.svy with words := alKeep s1.svy.words (fun b => !(domSnaps d).contains b) } }
  if d = 3 ∨ d = 4 then engsReset d s2
  else if d = 5 then
    let enc := s2.ksc.enc.map (fun (x : Encoder) => ({ a := x.a, b := x.b } : Encoder))
    keyselReset { s2 with ksc := { enc := enc } }
  else if d = 6 then { s2 with lgt := {}, lgb := {} }
  else if d = 7 then { s2 with hp := s2.hp.map (portFresh s2), hsh := {}, mbx := {}, lck := {}, cpy := {}, shm := [] }
  else s2

/-- Domain d is on. -/
def domUp (d : Nat) (s : State) : State := { s with dct := { s.dct with on := s.dct.on ||| (1#8 <<< d) } }

/-- The clamp edge of an engine: its locks are free, its SVC bits clear, its failed flag clears (R310, R388, R426). -/
def engClamp (e : Fin 6) (s : State) : State :=
  let s1 := svcDrop e (locksRelease e.val s)
  putEng e { engHeld with role := 7 } s1

/-- The clamp edge of domain d (R424 to R426). -/
def powerDown (d : Nat) (s : State) : State :=
  let s1 := { s with dct := { s.dct with on := s.dct.on &&& ~~~(1#8 <<< d) } }
  if d = 3 then engClamp 2 (engClamp 1 (engClamp 0 s1))
  else if d = 4 then engClamp 5 (engClamp 4 (engClamp 3 s1))
  else if d = 5 then keyLightEnd s1
  else if d = 7 then portsFloat s1
  else s1

/-! ### The conditions of a gather (R429, R430) -/

/-- A port is powered. -/
def portUp (s : State) : Bool := s.hp[0].powered || s.hp[1].powered

/-- The power-down order of the entry in progress, without the domains that are off (R429, R437). -/
def entryList (s : State) : List Nat :=
  let q := s.dct
  let d7 : List Nat := if portUp s then [] else [7]
  let l : List Nat := match q.dom with
    | some d => [d]
    | none =>
      if (q.cur.map DctReq.tgt) = some 1 then [6, 4, 3] ++ d7
      else if q.mode = .run then [6, 5, 4, 3] ++ d7 ++ [2, 1, 0]
      else [5] ++ d7 ++ [2, 1, 0]
  l.filter (domOn s)

/-- No key frame is in progress (R83), or D5 is off (R426); a frame with no line to scan holds nothing up (R81). -/
def kscIdle (s : State) : Bool :=
  !domOn s 5 || s.ksc.fr = .idle || (s.ksc.fr = .start && scanLines s = [])

/-- LGT is ready to lose power: blanked (R136), or D6 is off (R426). -/
def lgtReady (s : State) : Bool := !domOn s 6 || s.lgt.blanked

/-- The block-ready condition of domain d (R430). -/
def domReady (s : State) (d : Nat) : Bool :=
  if d = 6 then lgtReady s
  else if d = 5 then kscIdle s
  else if d = 2 then s.seq.kind = .idle && s.seq.cur = 5 && s.seq.queue = none
  else if d = 1 then (s.chg.st = 0 || s.chg.st = 1) && s.chg.rb = 0
  else if d = 0 then fbPend s = 0
  else true

/-- The CPY jobs queued or running: mode, source address, destination address (R385). -/
def cpyJobs (s : State) : List (Nat × Nat × Nat) :=
  let g := cpyLive s
  (bitsOf 8 s.cpy.queued).map (fun j => (cjMode g j, g (0x21 + 8 * j), g (0x23 + 8 * j)))
  ++ (match s.cpy.run with | some r => [(r.mode, r.sadr, r.dadr)] | none => [])

/-- The mailbox channels of a list of jobs. -/
def cpyChans (l : List (Nat × Nat × Nat)) : List Nat :=
  l.flatMap (fun j =>
    (if cjSrc j.1 = 1 then [j.2.1 % 1024] else []) ++ (if cjDst j.1 = 1 then [j.2.2 % 1024] else []))

/-- The lowest of a list of channels; 0 of none. -/
def lowChan (l : List Nat) : Nat := l.foldl min (l.headD 0)

/-- Channel c belongs to an engine of domain d. -/
def chanIn (s : State) (d c : Nat) : Bool := match chanOwner s c with | some e => engDom e = d | none => false

/-- The channel that the CPY condition of domain d names; none when the condition holds (R311, R430, R431). -/
def cpyHolds (s : State) (d : Nat) : Option Nat :=
  if d = 3 ∨ d = 4 then
    let l := (cpyChans (cpyJobs s)).filter (chanIn s d)
    if l = [] then none else some (lowChan l)
  else if d = 6 then
    let l := (cpyJobs s).filter (fun j => cjDst j.1 = 2)
    if l = [] then none else some (lowChan (cpyChans l))
  else if d = 7 then (if cpyJobs s = [] then none else some (lowChan (cpyChans (cpyJobs s))))
  else none

/-- The channel that the MBX condition of domain d names; none when the condition holds (R311, R430). -/
def mbxHolds (s : State) (d : Nat) : Option Nat :=
  if d = 3 ∨ d = 4 then
    (s.mbx.chans.find? (fun x => x.2.epend && !chanDir s x.1 && chanIn s d x.1)).map Prod.fst
  else none

/-- The first condition of domain d that fails: class code and channel (R283, R430, R431). rdy and drain say that RDYLIM
and DRAIN_LIMIT have passed; before the gather only the veto counts. -/
def domFails (s : State) (rdy drain : Bool) (d : Nat) : Option (Nat × Nat) :=
  let g := s.dct.phase = .gather
  if s.dct.veto.testBit d then some (2, 0)
  else if g && rdy && !domReady s d then some (3, 0)
  else match (if g && drain then cpyHolds s d else none) with
    | some c => some (0, c)
    | none => (if g && drain then mbxHolds s d else none).map (fun c => (1, c))

/-- The domain, class and channel of the first failure in power-down order (R431). -/
def entryFails (s : State) (rdy drain : Bool) : Option (Nat × Nat × Nat) :=
  (entryList s).findSome? (fun d => (domFails s rdy drain d).map (fun x => (d, x.1, x.2)))

/-! ### Lighting around a gather (R123, R136, R431) -/

/-- The gather asks LGT to blank. -/
def lgtPrepare (s : State) : State :=
  if domOn s 6 && (entryList s).contains 6 then
    lgtDark (lgtBlank true (putDct { s.dct with lgtWas := s.lgt.blanked, lgtPrep := true } s))
  else s

/-- An entry that ends without its commit gives LGT its earlier BLANKED state back (R123, R431). A BLANK that waited at the
preparation, or that came during it, goes with it (DESIGN CHOICE, log entry 48). -/
def lgtResume (s : State) : State :=
  let s1 := putDct { s.dct with lgtPrep := false } s
  if domOn s 6 && s.dct.lgtPrep && !s.dct.lgtWas then lgtBlank false { s1 with lgt := { s1.lgt with blankReq := false } } else s1

/-! ### Requests (R427, R428, R437) -/

/-- An entry is accepted (R428). -/
def entryAccept (r : DctReq) (s : State) : State :=
  disSet 1 (putDct { s.dct with phase := .notice, cur := some r, dom := none, req := r.tgt, refused := false } s)

/-- The end of a change without its commit: LGT and KSC go on. -/
def entryDrop (s : State) : State := kscResume (putDct { s.dct with phase := .idle, cur := none, dom := none } (lgtResume s))

/-- The wake codes' bitmap (R439). -/
def wakeCode (bits : Nat) : Nat := (lowestBit 16 bits).getD 0

/-- A wake starts at its decision edge (R440), and REFUSED clears with the request that it is (R428). D7 goes on from the stage that
it has reached where a port has brought it up already (R438). -/
def wakeStart (bits : Nat) (s : State) : State :=
  let q := s.dct
  let up := [7, 3, 4, 6].filter (fun d => q.runset.testBit d && !domOn s d)
  { s with
    dct := { q with phase := .waking, cur := some { tgt := 0, by_ := 0x100 + wakeCode bits }, dom := none, req := 0, refused := false
                    up := up, stage := if up.contains 7 then q.d7.getD 0 else 0, wakes := 0, heldWakes := 0, wakeBits := bits, wakesrc := wakeCode bits }
    clk := { s.clk with pllOn := true, prep := up = [] && s.clk.lock && !s.clk.ckPll } }

/-- An entry is abandoned (R432): MODE_ABANDON names the cause. -/
def entryAbandon (cause : Nat) (s : State) : State := logRec 2 4 [cause] (disSet 8 (entryDrop s))

/-- The wake code of a PWRREQ for RUN by a master (R439). -/
def wakeOfMaster (by_ : Nat) : Nat := if by_ ≥ 0x100 then by_ - 0x100 else if by_ = 7 ∨ by_ = 9 then 1 else 0

/-- A DDOMREQ that no change holds up (R437). -/
def domStart (d : Nat) (on : Bool) (by_ : Nat) (s : State) : State :=
  if domOn s d = on then s
  else if on then
    putDct { s.dct with phase := .waking, cur := some { tgt := d, by_ := by_ }, dom := some d, up := [d], stage := 0 } s
  else
    disSet 1 (putDct { s.dct with phase := .notice, cur := some { tgt := d, by_ := by_ }, dom := some d } s)

/-- A DDOMREQ for D4, D5 or D6 (R437): held one deep while a change is in progress. -/
def domRequest (d : Nat) (on : Bool) (by_ : Nat) (s : State) : State :=
  if s.dct.phase ≠ .idle then putDct { s.dct with heldDom := some { tgt := d + (if on then 8 else 0), by_ := by_ } } s
  else if s.dct.mode = .run then domStart d on by_ s
  else s

/-- A held DDOMREQ is taken when the change is complete (R437). -/
def takeDom (s : State) : State :=
  match s.dct.phase, s.dct.heldDom with
  | .idle, some r => domRequest (r.tgt % 8) (r.tgt.testBit 3) r.by_ (putDct { s.dct with heldDom := none } s)
  | _, _ => s

/-- A request is held, the newest in place of an older one (R433); wakes are the codes of a held wake decision (R439). -/
def reqHold (r : DctReq) (wakes : Nat) (s : State) : State := putDct { s.dct with held := some r, heldWakes := wakes } s

/-- A mode request (R428, R433, R439). A held wake decision is taken with every source that decided it. -/
def modeRequest (r : DctReq) (s : State) : State :=
  let q := s.dct
  let wakeBit := if 0x100 ≤ r.by_ then 2 ^ wakeOfMaster r.by_ ||| q.heldWakes else 2 ^ wakeOfMaster r.by_
  if q.mode = .ship then s
  else if q.phase = .idle then
    if r.tgt = modeCode q.mode then s
    else if r.tgt = 0 then wakeStart (q.wakes ||| wakeBit) s
    else entryAccept r s
  else if q.phase = .committed ∨ q.phase = .waking then reqHold r 0 s
  else if r.tgt = 0 then
    let s1 := entryAbandon r.by_ s
    if q.mode = .watch then wakeStart (q.wakes ||| wakeBit) s1 else takeDom (putDct { s1.dct with held := none } s1)
  else if q.dom.isSome then reqHold r 0 s
  else if (q.cur.map DctReq.tgt) = some r.tgt then s
  else kscResume (entryAccept r (lgtResume s))

/-- A wake in progress powers D7 up. -/
def d7Wakes (s : State) : Bool := s.dct.phase = .waking && s.dct.up.contains 7

/-- DCT powers D7 up in WATCH because a port is powered, whatever entry is in progress (R438). -/
def d7Wanted (s : State) : State :=
  if s.dct.mode = .watch && !domOn s 7 && portUp s && s.dct.d7 = none && !d7Wakes s then putDct { s.dct with d7 := some 0 } s else s

/-- What is held is taken on the completion edge (R433, R437), then D7 follows the ports (R438). -/
def takeHeld (s : State) : State :=
  let s1 := match s.dct.held with
    | some r => modeRequest r (putDct { s.dct with held := none } s)
    | none => s
  d7Wanted (takeDom s1)

/-! ### The commands of an entry -/

/-- GATHER_START (R430, R435, R436): a SHIP entry writes its record. -/
def gatherStart (s : State) : State :=
  if s.dct.phase = .notice then
    let s1 := lgtPrepare (putDct { s.dct with phase := .gather } s)
    if s.dct.dom = none && (s.dct.cur.map DctReq.tgt) = some 2 then logRec 2 2 [dctLive s 0x1D] s1 else s1
  else s

/-- REFCNT after a refusal (R283, R431). -/
def refCount (d cls ch : Nat) (port : Bool) (v : Vector Nat 10) : Vector Nat 10 :=
  let v1 := modAt v (finOf 10 d) (fun x => satAdd 65535 x 1)
  let v2 := v1.set 8 (d * 8192 + cls * 1024 + ch)
  if port then modAt v2 9 (fun x => satAdd 65535 x 1) else v2

/-- MODE_REFUSED (R431): rdy and drain say which limits have passed. REFCNT entry 9 counts what a port asked for by PWRREQ (R283,
DEDUCED, log entry 30). A refused DDOMREQ names the present mode. -/
def entryRefuse (rdy drain : Bool) (s : State) : State :=
  match s.dct.cur, (if s.dct.phase = .notice ∨ s.dct.phase = .gather then entryFails s rdy drain else none) with
  | some r, some (d, cls, ch) =>
    let dom := s.dct.dom.isSome
    let port := r.pwr && !dom
    let s1 := entryDrop s
    let s2 := putDct { s1.dct with refused := true, refcnt := refCount d cls ch port s1.dct.refcnt } s1
    let s3 := disSet (if dom then 0x24 else 4) (if r.pwr && !dom then hintPwr s2 else s2)
    takeHeld (logRec 2 3 [if dom then modeCode s.dct.mode else r.tgt, d * 8192 + cls * 1024 + ch, r.by_] s3)
  | _, _ => s

/-- The whole list goes down, one domain per CK (R432). -/
def listDown (l : List Nat) (s : State) : State := l.foldl (fun s d => powerDown d s) s

/-- MODE_COMMIT (R432, R437): every condition of every listed domain holds. D0 goes down last, in SHIP_ENTER. -/
def entryCommit (s : State) : State :=
  match s.dct.cur with
  | some r =>
    if s.dct.phase = .gather && (entryFails s true true).isNone then
      let l := entryList s
      let s1 := putDct { s.dct with phase := .committed, lgtPrep := false, runset := if s.dct.dom.isSome then s.dct.runset else s.dct.on.toNat } s
      let s2 := listDown (l.filter (fun d => d ≠ 0)) s1
      match s.dct.dom with
      | some d => takeHeld (logRec 2 7 [d, r.by_] (disSet 0x20 (putDct { s2.dct with phase := .idle, cur := none, dom := none } s2)))
      | none => { s2 with clk := { s2.clk with prep := r.tgt = 1 && s2.clk.ckPll } }
    else s
  | none => s

/-- CK runs from the other source (R83, R399): KSC starts again on the edge after, unless a gather still holds it. -/
def ckSwitch (toPll : Bool) (s : State) : State :=
  let s1 := { s with clk := { s.clk with ckPll := toPll, prep := false, sub := 0 } }
  let go := toPll && s.ksc.scanen && !kscHeld s1
  { s1 with ksc := { s.ksc with fr := (if !s.ksc.scanning then s.ksc.fr else if go then .start else .idle), slow := false, resolving := false } }

/-- CHG keeps its gates off (R173, R399); an off D1 reads as off (R426). -/
def gatesOff (s : State) : Bool := !domOn s 1 || s.chg.gates = 0

/-- CK has gone back to the PLL out of fallback: FALLBACK clears (R400), and an entry to WATCH that is past its commit edge plans
its own change to the crystal (R434). -/
def fallbackEnd (s : State) : State :=
  { s with clk := { s.clk with fallback := false, prep := s.dct.phase = .committed && s.dct.dom = none && (s.dct.cur.map DctReq.tgt) = some 1 } }

/-- CK_SOURCE_CHANGE: a planned change at its point (R399); a change to the PLL needs its lock. -/
def ckChange (s : State) : State :=
  if s.clk.prep && kscIdle s && gatesOff s && (s.clk.ckPll || s.clk.lock) then
    let s1 := ckSwitch (!s.clk.ckPll) s
    if s.clk.fallback then fallbackEnd s1 else s1
  else s

/-- WATCH_ENTRY_COMPLETE (R400, R434): from fallback a RUN frame in progress is still completed, with its own lines (R83). -/
def watchEnter (s : State) : State :=
  if s.dct.phase = .committed && s.dct.dom = none && (s.dct.cur.map DctReq.tgt) = some 1 && !s.clk.ckPll then
    let s1 := thaWatchLatch (abandonRun s)
    let s2 := { s1 with
      clk := { s1.clk with pllOn := false, lock := false, fallback := false, prep := false }
      ksc := { s1.ksc with resolving := false } }
    let s3 := hintPwr (disSet 2 (putDct { s2.dct with mode := .watch, phase := .idle, cur := none, wakes := 0, heldWakes := 0 } s2))
    takeHeld (logRec 2 1 [1, s3.dct.runset] s3)
  else s

/-- SHIP_ENTER (R435), which waits until every record is written through (R455): D0 goes down except the wake comparator; CK
stops. D7 keeps its regulator while a port is powered (R32). -/
def shipEnter (s : State) : State :=
  if s.dct.phase = .committed && s.dct.dom = none && (s.dct.cur.map DctReq.tgt) = some 2 && fbPend s = 0 then
    portsFloat { s with
      dct := { s.dct with mode := .ship, phase := .idle, cur := none, held := none, heldDom := none, d7 := none, on := if portUp s then 0x80 else 0 }
      clk := { s.clk with pllOn := false, lock := false }
      rst := { s.rst with shipsrc := 0 } }
  else s

/-! ### Domains coming up and wakes (R423, R438 to R441) -/

/-- A domain request is complete (R437). -/
def domDone (d by_ : Nat) (s : State) : State :=
  let s1 := putDct { s.dct with phase := .idle, cur := none, dom := none } s
  takeHeld (logRec 2 6 [d, by_] (disSet 0x20 s1))

/-- D7 is on for a port (R438). -/
def d7Done (s : State) : State := logRec 2 6 [7, 0xFF] (disSet 0x10 (putDct { s.dct with d7 := none } s))

/-- A ready signal of D7 while it comes up for a port apart from the change in progress (R423, R438). -/
def d7Ready (k : Nat) (s : State) : State :=
  if k < 3 then putDct { s.dct with d7 := some (k + 1) } s else d7Done (domUp 7 (domReset 7 s))

/-- DOMAIN_STAGE_READY: the next stage's ready signal; LOGRDY turns the domain on (R423, R440). own says that it is D7's, which comes
up for a port, where a change brings up another domain at the same time. -/
def stageReady (own : Bool) (s : State) : State :=
  match (if d7Wakes s || (s.dct.phase = .waking && !own) then none else s.dct.d7) with
  | some k => d7Ready k s
  | none =>
  match s.dct.phase, s.dct.up with
  | .waking, d :: t =>
    if s.dct.stage < 3 then putDct { s.dct with stage := s.dct.stage + 1 } s
    else
      let s0 := domUp d (domReset d s)
      let s1 := if d = 7 && s0.dct.d7.isSome then d7Done s0 else s0
      let s2 := putDct { s1.dct with up := t, stage := 0 } s1
      match s.dct.dom with
      | some _ => domDone d ((s.dct.cur.map DctReq.by_).getD 0xFF) s2
      | none => { s2 with clk := { s2.clk with prep := t = [] && s2.clk.lock && !s2.clk.ckPll } }
  | _, _ => s

/-- WAKE_DECISION (R432, R433, R439): the events that wait decide. -/
def wakeDecide (s : State) : State :=
  let q := s.dct
  if q.mode = .watch && q.wakes ≠ 0 then
    let code := 0x100 + wakeCode q.wakes
    let both := q.wakes ||| q.heldWakes
    if q.phase = .idle then wakeStart q.wakes s
    else if q.phase = .notice ∨ q.phase = .gather then wakeStart q.wakes (entryAbandon code s)
    else reqHold { tgt := 0, by_ := 0x100 + wakeCode both } both (putDct { q with wakes := 0 } s)
  else s

/-- Engine e is released into its reset loader (R388, R407). -/
def engRelease2 (e : Fin 6) (role cause : Nat) (s : State) : State :=
  putEng e { engHeld with run := .loading, rom := true, role := role, cause := cause } s

/-- The WKROLE engines take their roles and their loaders start (R441). -/
def wakeRoles (s : State) : State :=
  let w := dctLive s 0x38
  let role (n : Fin 6) : Nat := fld w (3 * n.val + 2) (3 * n.val)
  let who := (List.finRange 6).filter (fun n => role n < 6 && domOn s (engDom n.val))
  let s1 := who.foldl (fun s (n : Fin 6) => roleMapSet (finOf 6 (role n)) n.val s) s
  who.foldl (fun s (n : Fin 6) => engRelease2 n (role n) 2 s) s1

/-- The device is in RUN (R440, R441). -/
def wakeDone (s : State) : State :=
  let s1 := hintPwr (disSet 2 (putDct { s.dct with mode := .run, phase := .idle, cur := none, wakes := 0, heldWakes := 0 } s))
  wakeRoles (logRec 2 5 [s1.dct.wakesrc, s1.dct.wakeBits] s1)

/-- The wake has every domain on. -/
def wakeReady (s : State) : Bool := s.dct.phase = .waking && s.dct.dom = none && s.dct.up = []

/-- WAKE_COMPLETE (R440). -/
def wakeComplete (s : State) : State :=
  if wakeReady s && s.clk.ckPll && !s.clk.prep then takeHeld (wakeDone s) else s

/-- A PLL_LOSS record (R400, R449). -/
def pllLossRec (s : State) : State := logRec 2 9 [s.clk.retry] s

/-- WAKE_FALLBACK: the wake completes on the crystal (R440). A slow frame in progress goes on to its end; one that has nothing to
scan is over, and RUN frames start (R83, R400). -/
def wakeFallback (s : State) : State :=
  if wakeReady s && !s.clk.lock then
    let s1 := { s with clk := { s.clk with fallback := true, prep := false }
                       ksc := { s.ksc with slow := s.ksc.slow && !(s.ksc.fr = .start && scanLines s = [])
                                           resolving := false } }
    takeHeld (pllLossRec (kscResume (wakeDone s1)))
  else s

/-- D7_FORCED: the last port has gone in WATCH and DRAIN_LIMIT has passed (R384, R438). A wake in progress, which needs the domains
of the run set, keeps D7 (DEDUCED, log entry 30). -/
def d7Forced (s : State) : State :=
  if s.dct.mode = .watch && s.dct.phase ≠ .waking && domOn s 7 && !portUp s then
    let m := cpyBusy s
    let s1 := (bitsOf 8 m).foldl (fun s j => cpyEnd j 3 s) s
    let s2 := powerDown 7 s1
    if m = 0 then logRec 2 7 [7, 0xFF] s2 else logRec 2 8 [m] s2
  else s

/-! ### PLL (R398, R400) -/

/-- PLL_LOCK. -/
def pllLock (s : State) : State :=
  if s.clk.pllOn && !s.clk.lock then
    { s with clk := { s.clk with lock := true, prep := s.clk.prep || (wakeReady s && !s.clk.ckPll) } }
  else s

/-- PLL_LOSS: while CK runs from the PLL the device falls back to the crystal at once (R83, R173, R400); on the crystal it ends a
planned change to the PLL, which needs its lock (R399); KSC, held for one in RUN, starts its frames again (R83). -/
def pllLoss (s : State) : State :=
  if s.clk.pllOn && s.clk.lock then
    if s.clk.ckPll then
      let s1 := abandonRun (chgGatesOff { s with clk := { s.clk with lock := false, ckPll := false, fallback := true, prep := false, sub := 0 } })
      pllLossRec s1
    else
      let t := { s with clk := { s.clk with lock := false, prep := false } }
      if s.clk.prep then kscResume t else t
  else s

/-- PLL_RESTART in fallback: a failed one counts, to three (R400). -/
def pllRestart (failed : Bool) (s : State) : State :=
  if s.clk.fallback && s.clk.retry < 3 && s.dct.mode = .run then
    { s with clk := { s.clk with pllOn := true, retry := if failed then s.clk.retry + 1 else s.clk.retry } }
  else s

/-- FALLBACK_RETURN: the PLL has held lock for 1 ms, and DCT plans the change back, which CK_SOURCE_CHANGE makes at a point that
R399 allows (R400, R173). -/
def fallbackReturn (s : State) : State :=
  if s.clk.fallback && s.clk.lock && s.dct.mode = .run && !s.clk.ckPll then { s with clk := { s.clk with prep := true } } else s

/-- RELOCK: the retry count restarts and so does the PLL (R400, R405). -/
def relock (s : State) : State :=
  if s.clk.fallback then { s with clk := { s.clk with retry := 0, pllOn := true } } else s

/-! ### Reset sources (R401, R402, R409) -/

/-- A reset source becomes active: every domain stops (R401, R402). In SHIP only POR, RESET_N and the wake comparator
can act, and the exit from it is a full start, as at power-on; once step 1 of that start has qualified the crystal, XFAIL makes it
start over (R403). An output of an off domain is high-impedance (R21, Machine/Pins.lean). -/
def resetAssert (cause : Nat) (s : State) : State :=
  let bit := 2 ^ (cause - 1)
  if s.dct.mode = .ship && 4 ≤ cause && !(cause = 5 && s.rst.step = 1) then s
  else
    let act := setBit s.rst.active (cause - 1) true
    let hist := if cause ≤ 2 || (s.dct.mode = .ship && decide (2 ≤ s.rst.step)) then (s.rst.active ||| bit) else s.rst.hist ||| bit
    portsFloat { s with rst := { s.rst with active := act, hist := hist, step := 0 }, dct := { s.dct with on := 0, phase := .idle, d7 := none } }

/-- SHIP_WAKE: an armed input of the wake comparator decides (R401, R436), until step 1 of the exit has qualified the crystal. Input 0
is PWRBTN_N, 1 VINS, 2 VIO. -/
def shipWake (i : Fin 3) (s : State) : State :=
  if s.dct.mode = .ship && s.rst.step ≠ 1 && (dctLive s 0x1D).testBit i.val then
    let s1 := resetAssert 2 s
    { s1 with rst := { s1.rst with shipsrc := setBit s1.rst.shipsrc i.val true } }
  else s

/-- A write of DRST by an engine (R409): 0xD5 then 0x5D by one engine that holds the remap right. -/
def drstWrite (e v : Nat) (remap : Bool) (s : State) : State :=
  if v = 0xD5 then { s with rst := { s.rst with drst := some e } }
  else if v = 0x5D && s.rst.drst = some e && remap then resetAssert 6 { s with rst := { s.rst with drst := none } }
  else { s with rst := { s.rst with drst := none } }

/-! ### Engine reset (R388, R389) -/

/-- Engine n holds the remap right (R295, R419). -/
def remapRight (s : State) (n : Nat) : Bool := n < 6 && s.prt.eflags[(finOf 6 n)].testBit 0

/-- Engine n enters reset (R298, R310, R316, R388). -/
def engReset (n : Fin 6) (s : State) : State :=
  let failed := s.eng[n].failed
  let s1 := ioForget (fun e a => e = n.val && decide (a < 0x100)) (svcDrop n (locksRelease n.val s))
  let s2 := putEngMb n { s1.mbx.eng[n] with buf := [] } s1
  putEng n { engHeld with failed := failed } s2

/-- A write of ERST by engine e (R388, R389). An engine of an off domain has nothing to reset. -/
def erstWrite (remap : Bool) (v : Nat) (s : State) : State :=
  let n := v / 32 % 8
  let role := v / 2 % 8
  if 6 ≤ n ∨ 6 ≤ role then putDct { s.dct with cfg := { s.dct.cfg with err := true } } s
  else if !v.testBit 0 then s
  else if !remap then putDct { s.dct with erflt := s.dct.erflt ||| 1 } s
  else if !domOn s (engDom n) then s
  else
    let e : Fin 6 := finOf 6 n
    let s1 := engReset e s
    if v.testBit 4 then s1 else engRelease2 e role 1 s1

/-! ### Registers (R404, R405, R442 to R444) -/

/-- The code of the first failing DCT agreement check, 0 when all pass (R444). -/
def dctCheck (g : Nat → Nat) : Nat :=
  let w := g 0x38
  let role (n : Nat) : Nat := fld w (3 * n + 2) (3 * n)
  let named := (upTo 6).filter (fun n => role n ≠ 7)
  if g 0x18 = 0 ∨ g 0x1A = 0 then 1
  else if g 0x1D % 8 = 0 then 2
  else if (g 0x34).testBit 10 && g 0x36 = 0 then 3
  else if named.any (fun n => named.any (fun m => n < m && role n = role m)) then 4
  else if named = [] then 5
  else 0

/-- COMMIT_APPLY of DCT (R45). -/
def dctApply (s : State) : State :=
  match s.dct.cfg.pnd with
  | some p => putDct { s.dct with cfg := { s.dct.cfg with live := p, pnd := none } } s
  | none => s

/-- A write of a mode to DMREQ, or (pwr) to PWRREQ; 0b11 is reserved (R15, R271, R428). -/
def dctMode (pwr : Bool) (by_ v : Nat) (s : State) : State :=
  if v = 3 then putDct { s.dct with cfg := { s.dct.cfg with err := true } } s else modeRequest { tgt := v, by_ := by_, pwr := pwr } s

/-- A write of a DCT register that is not staged, by a master with its code and remap right (R389, R405, R442). -/
def dctWrite (by_ : Nat) (remap : Bool) (off v : Nat) (s : State) : State :=
  let q := s.dct
  let err : State := putDct { q with cfg := { q.cfg with err := true } } s
  if off = 0x04 then dctMode false by_ (v % 4) s
  else if off = 0x07 then
    let d := v % 8
    if d = 4 ∨ d = 5 ∨ d = 6 then domRequest d (v.testBit 7) by_ s else err
  else if off = 0x08 then putDct { q with veto := v % 256 } s
  else if off = 0x09 then putDct { q with die := v % 64 } s
  else if off = 0x0A then putDct { q with dis := w1c 6 q.dis v } s
  else if off = 0x10 then putDct { q with rfsel := v % 16 } s
  else if off = 0x13 then if v = 0xC1 then putDct { q with refcnt := #v[0, 0, 0, 0, 0, 0, 0, 0, 0, 0] } s else err
  else if off = 0x20 then erstWrite remap v s
  else if off = 0x23 then putDct { q with erflt := w1c 2 q.erflt v } s
  else if off = 0x29 then if v.testBit 0 then relock s else s
  else if off = 0x2B then { s with rst := { s.rst with hist := w1c 6 s.rst.hist v } }
  else if off = 0x2C then drstWrite by_ v remap s
  else s

end Sys2Proof.Machine
end

