-- ==== Sys2Proof/Machine/Gpio.lean ====
section
/-! DEFINITION. GPIO, bank supplies, the RTC, the flash controller and the test port (16 R483, R500, R501; 07 R292;
12 R415 to R417; 01 R30). -/

namespace Sys2Proof.Machine

/-! ### GPIO and banks -/

/-- GPIO_INPUT_CHANGE: the synchronised levels of GPIO3 to GPIO0 (R483, R500). -/
def gpioPins (v : BitVec 4) (s : State) : State :=
  let g := s.gpio
  let new := if g.viom then (v ^^^ BitVec.ofNat 4 g.pin).toNat else 0
  { s with gpio := { g with pin := v.toNat, is_ := g.is_ ||| new } }

/-- BANK_SUPPLY_CHANGE: bank 0 to 5 is VIOK, VIOS, VIOM, LSGV, DRVV, VDRVL (R483, R500). Bits of GPIN that change with
bank M set their GPIS bits; without bank S the wake inputs are not asserted, and when it returns each counts as not having shown
its wake level, whatever WAKEPOL has become meanwhile (R220); a transaction that loses bank M ends as a bus
fault (R257). -/
def bankSupply (b : Fin 6) (up : Bool) (s : State) : State :=
  let g := s.gpio
  let g1 : Gpio := match b with
    | 0 => { g with viok := up } | 1 => { g with vios := up } | 2 => { g with viom := up }
    | 3 => { g with lsgv := up } | 4 => { g with drvv := up } | 5 => { g with vdrvl := up }
  let s1 := { s with gpio := g1 }
  let s2 := { s1 with gpio := { g1 with is_ := g1.is_ ||| (BitVec.ofNat 4 (gpin s) ^^^ BitVec.ofNat 4 (gpin s1)).toNat } }
  if b = 1 && !(up && g.vios) then { s2 with seq := { s2.seq with wk := BitVec.ofNat 4 (seqLive s 0x33) } }
  else if up then (if b = 2 && s2.trst then { s2 with tap := {} } else s2)
  else if b = 2 then { s2 with smb := s2.smb.map (fun (q : Smb) => { q with lost := q.lost || q.busy, busbusy := false }) }
  else s2

/-! ### RTC (R288, R292, R501) -/

/-- A packed BCD byte as a number; both digits are below 10 for a valid one. -/
def bcd (v : Nat) : Nat := v / 16 % 16 * 10 + v % 16

/-- The packed BCD byte of a number below 100. -/
def toBcd (n : Nat) : Nat := n / 10 * 16 + n % 10

/-- A BCD value that field n of the RTC may hold (R288). -/
def rtcOk (n v : Nat) : Bool :=
  let x := bcd v
  decide (v / 16 % 16 < 10) && decide (v % 16 < 10) &&
  (if n = 0 ∨ n = 1 then decide (x ≤ 59) else if n = 2 then decide (x ≤ 23) else if n = 3 then decide (1 ≤ x) && decide (x ≤ 7)
   else if n = 4 then decide (1 ≤ x) && decide (x ≤ 31) else if n = 5 then decide (1 ≤ x) && decide (x ≤ 12)
   else decide (n = 6) && decide (x ≤ 99))

/-- The days of a month; every year divisible by 4 is a leap year (R292). -/
def monthDays (month year : Nat) : Nat :=
  if month = 2 then (if year % 4 = 0 then 29 else 28) else if month = 4 ∨ month = 6 ∨ month = 9 ∨ month = 11 then 30 else 31

/-- The day of month fits the month (R292). -/
def dateOk (f : Vector Nat 7) : Bool := decide (bcd f[4] ≤ monthDays (bcd f[5]) (bcd f[6]))

/-- A write of field n by a reader with held copy h: the copy, the RTC, and whether it was rejected (R292). -/
def rtcPut (n v : Nat) (h : RtcHold) (r : Rtc) : RtcHold × Rtc × Bool :=
  let v := v % 256
  if !rtcOk n v then (h, r, true)
  else if h.hold then ({ h with copy := h.copy.set (finOf 7 n) v, written := true }, r, false)
  else
    let f := r.f.set (finOf 7 n) v
    if dateOk f then (h, { r with f := f, lost := false }, false) else (h, r, true)

/-- A write of HOLD (R292): 1 copies the fields, 0 loads a written copy. -/
def rtcHoldSet (b : Bool) (h : RtcHold) (r : Rtc) : RtcHold × Rtc × Bool :=
  if b then ({ hold := true, copy := r.f, written := false }, r, false)
  else if h.hold && h.written then
    (if dateOk h.copy then ({ h with hold := false, written := false }, { r with f := h.copy, lost := false }, false)
     else (h, r, true))
  else ({ h with hold := false }, r, false)

/-- RTC_TICK: one second (R292). -/
def rtcTick (s : State) : State :=
  let f := s.rtc.f
  let v (n : Fin 7) : Nat := bcd f[n]
  let sec := v 0 + 1
  let min := v 1 + (if sec = 60 then 1 else 0)
  let hr := v 2 + (if min = 60 then 1 else 0)
  let day := hr = 24
  let dow := if day then v 3 % 7 + 1 else v 3
  let dom := v 4 + (if day then 1 else 0)
  let ovr := monthDays (v 5) (v 6) < dom
  let mon := v 5 + (if ovr then 1 else 0)
  let yr := v 6 + (if mon = 13 then 1 else 0)
  { s with rtc := { s.rtc with f := #v[toBcd (sec % 60), toBcd (min % 60), toBcd (hr % 24), toBcd dow,
      toBcd (if ovr then 1 else dom), toBcd (if mon = 13 then 1 else mon), toBcd (yr % 100)] } }

/-! ### Flash controller (R415 to R417) -/

/-- The slot or the boot record that holds a flash address (R410): 0 slot A, 1 slot B, 4 the boot record, which no code
of BOOTSTAT.SLOT names. -/
def flashSlot (a : Nat) : Nat := if a < 0xF8000 then 0 else if a < 0x1F0000 then 1 else 4

/-- R417 refuses the command: after the hand-ovr, in the slot that BOOTSTAT.SLOT names, or an SVN above the image's. -/
def flashRefused (s : State) (cmd : Nat) : Bool :=
  s.rst.handed && (if cmd = 3 then decide (s.rst.svn < s.fls.dat) else flashSlot s.fls.adr = s.rst.bootstat / 64)

/-- A write of FLCMD by an engine with the flash right (R415, R417). An SVN advance takes a value of 1 to 63, only
upward; a reserved code sets the region's ERR flag (R15, R501). -/
def flashCmd (cmd : Nat) (s : State) : State :=
  let q := s.fls
  let refuse : State := { s with fls := { q with prot := true } }
  if cmd = 0 ∨ 4 ≤ cmd then { s with rtc := { s.rtc with err := true } }
  else if q.cmd.isSome || flashRefused s cmd then refuse
  else if cmd ≠ 3 then { s with fls := { q with cmd := some (cmd, q.adr) } }
  else if q.otpSvn < q.dat ∧ q.dat ≤ 63 then { s with fls := { q with cmd := some (3, q.dat) } } else s

/-- Writes a byte of flash. -/
def flashPut (m : List Host.Cell) (a v : Nat) : List Host.Cell := spSet 0xFF m a (BitVec.ofNat 8 v)

/-- The flash after a sector erase or a page program (R416). -/
def flashErase (m : List Host.Cell) (a : Nat) : List Host.Cell := m.filter (fun c => c.1 / 4096 ≠ a / 4096)
def flashProgram (m : List Host.Cell) (page : Sparse Nat) (a : Nat) : List Host.Cell :=
  (upTo 64).foldl (fun m i =>
    let k := a / 64 * 64 + i
    flashPut m k ((spGet 0xFF m k) &&& BitVec.ofNat 8 (spGet 0xFF page i)).toNat) m

/-- The flash with free values, of number n, in the bytes from a: an erase or a program that did not verify or that a
reset cut (no rule states them, DESIGN CHOICE, log entry 28). -/
def flashTorn (n a len : Nat) (m : List Host.Cell) : List Host.Cell :=
  (upTo len).foldl (fun m i => flashPut m (a + i) (Config.tornByte n (a + i)).toNat) m

/-- FLASH_COMMAND_DONE: the running command completes; ok says whether it verified (R415). -/
def flashDone (ok : Bool) (s : State) : State :=
  let q := s.fls
  match q.cmd with
  | none => s
  | some (c, a) =>
    let q1 : Fls := { q with cmd := none, fail := q.fail || !ok }
    { s with
      free := s.free + 1
      fls := if c = 1 then { q1 with mem := if ok then flashErase q.mem a else flashTorn s.free (a / 4096 * 4096) 4096 q.mem }
             else if c = 2 then { q1 with mem := if ok then flashProgram q.mem q.page a else flashTorn s.free (a / 64 * 64) 64 q.mem }
             else if ok then { q1 with otpSvn := a } else q1 }

/-! ### Register access -/

/-- The read of a register of this region with its side effect: FLDAT advances ADDR (R415). -/
def gpioRead (off : Nat) (s : State) : State × Nat :=
  if off = 0x84 then
    ({ s with fls := { s.fls with adr := (s.fls.adr + 1) % 2097152 } }, if s.fls.cmd.isSome then 0xFF else flByte s s.fls.adr)
  else (s, gpioView off s)

/-- A write of a register of this region (R415, R500, R501); FLCMD without the flash right never comes here. -/
def gpioWrite (off v : Nat) (s : State) : State :=
  let g := s.gpio
  let rtc (r : RtcHold × Rtc × Bool) : State := { s with rtc := { r.2.1 with eng := r.1, err := r.2.1.err || r.2.2 } }
  if off = 0x00 then { s with gpio := { g with out := v % 16 } }
  else if off = 0x01 then { s with gpio := { g with oe := v % 16 } }
  else if off = 0x02 then { s with gpio := { g with od := v % 16 } }
  else if off = 0x04 then { s with gpio := { g with ie := v % 16 } }
  else if off = 0x05 then { s with gpio := { g with is_ := w1c 4 g.is_ v } }
  else if off = 0x08 then
    let r := rtcHoldSet (v.testBit 0) s.rtc.eng { s.rtc with err := s.rtc.err && !v.testBit 2 }
    rtc r
  else if 0x09 ≤ off ∧ off < 0x10 then rtc (rtcPut (off - 0x09) v s.rtc.eng s.rtc)
  else if off = 0x80 then { s with fls := { s.fls with prot := s.fls.prot && !v.testBit 2, fail := s.fls.fail && !v.testBit 1 } }
  else if off = 0x81 then { s with fls := { s.fls with adr := v % 2097152 } }
  else if off = 0x84 then
    { s with fls := { s.fls with dat := v % 256, page := spSet 0xFF s.fls.page (s.fls.adr % 64) (v % 256), adr := (s.fls.adr + 1) % 2097152 } }
  else if off = 0x85 then flashCmd (v % 16) s
  else s

/-! ### Test port (R30, R490) -/

/-- The next state of the test access port on a rising TCK edge (PRESUMED: the controller of IEEE 1149.1). -/
def tapNext (tms : Bool) : TapState → TapState
  | .reset => if tms then .reset else .idle
  | .idle => if tms then .selDr else .idle
  | .selDr => if tms then .selIr else .capDr
  | .capDr => if tms then .ex1Dr else .shDr
  | .shDr => if tms then .ex1Dr else .shDr
  | .ex1Dr => if tms then .updDr else .pauDr
  | .pauDr => if tms then .ex2Dr else .pauDr
  | .ex2Dr => if tms then .updDr else .shDr
  | .updDr => if tms then .selDr else .idle
  | .selIr => if tms then .reset else .capIr
  | .capIr => if tms then .ex1Ir else .shIr
  | .shIr => if tms then .ex1Ir else .shIr
  | .ex1Ir => if tms then .updIr else .pauIr
  | .pauIr => if tms then .ex2Ir else .pauIr
  | .ex2Ir => if tms then .updIr else .shIr
  | .updIr => if tms then .selDr else .idle

/-- The instruction that Update-IR selects, where the register has been given the code of ir: one other than BYPASS and IDCODE needs
TESTCTL.TAPEN, and after PRT_SEAL the test right (R290); without them BYPASS takes its place (PRESUMED: what IEEE 1149.1 makes of a
code that selects nothing, log entry 41). -/
def tapSelect (s : State) (ir : TapIr) : TapIr :=
  if ir = .other && !(s.hsh.testctl.testBit 1 && (!s.rst.sealed || s.prt.gflags.testBit 1)) then .bypass else ir

/-- A rising TCK edge (R30, R290): Test-Logic-Reset selects IDCODE, Update-IR what its code names (PRESUMED, log entry 41). -/
def tapStep (s : State) (tms : Bool) (ir : TapIr) : Tap :=
  let st := tapNext tms s.tap.st
  { st := st, ir := if st = .reset then .idcode else if st = .updIr then tapSelect s ir else s.tap.ir }

end Sys2Proof.Machine
end

