-- ==== Sys2Proof/Machine/Prt.lean ====
section
/-! DEFINITION. The protection unit: register writes by the ROM, the indirect table, and the window regions (12 R418 to
R422). -/

namespace Sys2Proof.Machine

/-- CE0 in its ROM while BOOT_PHASE = 1, the one writer of PRT (R419). -/
def prtWriter (s : State) (e : Fin 6) : Bool := e = 0 && s.eng[(0 : Fin 6)].rom && s.rst.bootPhase

/-- Replaces the protection unit. -/
def putPrt (p : Prt) (s : State) : State := { s with prt := p }

/-- No 2-bit code of an ERIGHT word is the reserved 0b11 (R418). -/
def erightOk (v : Nat) : Bool := (upTo 16).all (fun r => fld v (2 * r + 1) (2 * r) ≠ 3)

/-- Byte 0 of a window region holds no reserved encoding (R419): ENG counts only for an engine space. -/
def wregOk (v : Nat) : Bool :=
  let acc := fld v 6 5
  let space := fld v 4 3
  !(v.testBit 7 && (acc = 0 || acc = 3)) && space ≠ 3 && (space = 2 || fld v 2 0 < 6)

/-- A write of PRTIXDAT (R419). -/
def ixdatWrite (v : Nat) (s : State) : State :=
  let p := s.prt
  let err : State := putPrt { p with err := true } s
  let adv (p : Prt) : State := putPrt { p with ixidx := (p.ixidx + 1) % 1024 } s
  if v % 8 = 6 then err
  else if p.ixsel = 0 then adv { p with chan := spSet 7 p.chan p.ixidx (v % 256 - v / 8 % 2 * 8) }
  else if 64 ≤ p.ixidx then err
  else if p.ixsel = 1 then adv { p with routes := p.routes.set 0 (spSet 7 p.routes[0] p.ixidx (v % 8)) }
  else adv { p with routes := p.routes.set 1 (spSet 7 p.routes[1] p.ixidx (v % 8)) }

/-- A read of PRTIXDAT advances PRTIXIDX (R419). -/
def ixdatRead (s : State) : State × Nat :=
  (putPrt { s.prt with ixidx := (s.prt.ixidx + 1) % 1024 } s, prtEntry s)

/-- A whole write of a PRT register by CE0 in ROM (R419); a reserved value sets ERR and changes nothing else. -/
def prtWrite (off v : Nat) (s : State) : State :=
  let p := s.prt
  let err : State := putPrt { p with err := true } s
  let top (hi : Nat) (f : Nat → Prt) (x : Nat) : State := if hi < x then err else putPrt (f x) s
  if off = 0x00 then putPrt { p with err := p.err && !v.testBit 2 } s
  else if off = 0x01 then if v = 0x5E then prtSeal s else err
  else if 0x10 ≤ off ∧ off < 0x28 then
    if erightOk v then putPrt { p with eright := p.eright.set (finOf 6 ((off - 0x10) / 4)) (v % 2 ^ 32) } s else err
  else if 0x28 ≤ off ∧ off < 0x2E then putPrt { p with eflags := p.eflags.set (finOf 6 (off - 0x28)) (v % 8) } s
  else if off = 0x30 ∨ off = 0x34 then
    let x := (BitVec.ofNat 32 v &&& 0x3F3FFFFC#32).toNat
    putPrt { p with pright := p.pright.set (finOf 2 ((off - 0x30) / 4)) x } s
  else if off = 0x38 ∨ off = 0x39 then putPrt { p with pflags := p.pflags.set (finOf 2 (off - 0x38)) (v % 2) } s
  else if off = 0x3A then putPrt { p with gflags := v % 4 } s
  else if off = 0x40 then top 4600 (fun x => { p with ceilv := x }) (v % 8192)
  else if off = 0x42 then top 1500 (fun x => { p with ceili := x }) (v % 2048)
  else if off = 0x44 then top 1000 (fun x => { p with ceilrbv := x }) (v % 1024)
  else if off = 0x46 then top 65 (fun x => { p with ceilrbi := x }) (v % 128)
  else if 0x50 ≤ off ∧ off < 0x90 then
    let i : Fin 8 := finOf 8 ((off - 0x50) / 8)
    let w := p.wreg[i]
    if off % 8 = 0 then (if wregOk v then putPrt { p with wreg := p.wreg.set i { w with b0 := v % 256 } } s else err)
    else if off % 8 = 1 then putPrt { p with wreg := p.wreg.set i { w with start := v % 2 ^ 17 } } s
    else if off % 8 = 4 then putPrt { p with wreg := p.wreg.set i { w with stop := v % 2 ^ 17 } } s
    else s
  else if off = 0xA0 then if v % 4 = 3 then err else putPrt { p with ixsel := v % 4 } s
  else if off = 0xA1 then putPrt { p with ixidx := v % 1024 } s
  else if off = 0xA3 then ixdatWrite v s
  else s

/-- A window region grants an access (R422): space, engine, first and last byte address, write. -/
def wregGrants (w : WReg) (space eng lo hi : Nat) (wr : Bool) : Bool :=
  let b := w.b0
  b.testBit 7 && fld b 4 3 = space && (space = 2 || fld b 2 0 = eng) && decide (w.start ≤ lo) && decide (hi ≤ w.stop)
  && (space = 2 || (decide (w.start < 65536) && decide (w.stop < 65536))) && (!wr || fld b 6 5 = 2)

/-- Some region of port p grants the access (R289, R422). -/
def winGranted (s : State) (p : Port) (space eng lo hi : Nat) (wr : Bool) : Bool :=
  (upTo 4).any (fun k => wregGrants s.prt.wreg[(finOf 8 (4 * p.val + k))] space eng lo hi wr)

end Sys2Proof.Machine
end

