-- ==== Sys2Proof/Machine/Smb.lean ====
section
/-! DEFINITION. The SMBus controllers SMB0 to SMB3: the protocols, packet error checking, the end of a transaction,
Host Notify and the registers (06 R254 to R260). -/

namespace Sys2Proof.Machine

/-- One byte into the CRC-8 of R256, polynomial x^8 + x^2 + x + 1. -/
def crc8Byte (crc b : Nat) : Nat :=
  (upTo 8).foldl (fun c _ => if c.testBit 7 then ((c * 2) ^^^ 0x07) % 256 else (c * 2) % 256) ((crc ^^^ b) % 256)

/-- The PEC of a list of bytes (R256). -/
def smbPec (bs : List Nat) : Nat := bs.foldl crc8Byte 0

/-- The domain of a controller: SMB0 in D1, the others in D2 (R22). -/
def smbDom (c : Fin 4) : Nat := if c = 0 then 1 else 2

/-- Replaces the state of controller c. -/
def putSmb (c : Fin 4) (q : Smb) (s : State) : State := { s with smb := s.smb.set c q }

/-- The bytes a protocol writes after the address with W, without PEC (R256). -/
def smbTx (q : Smb) : List Nat :=
  let b (n : Nat) : List Nat := (upTo n).map (spGet 0 q.buf)
  match q.prot with
  | 0x2 => [q.code]
  | 0x4 => q.code :: b 1
  | 0x5 => q.code :: b 2
  | 0x6 => [q.code]
  | 0x7 => [q.code]
  | 0x8 => q.code :: b 2
  | 0x9 => q.code :: q.len :: b q.len
  | 0xA => [q.code]
  | 0xB => q.code :: q.len :: b q.len
  | 0xC => q.code :: b 4
  | 0xD => [q.code]
  | 0xE => q.code :: b 8
  | 0xF => [q.code]
  | _ => []

/-- How many of the written bytes come before the data bytes (command and count). -/
def smbHead (prot : Nat) : Nat := if prot = 0x2 then 0 else if prot = 0x9 || prot = 0xB then 2 else 1

/-- The protocols with a read phase, and how many data bytes it holds; none is a block count (R256). -/
def smbRx (prot : Nat) : Option (Option Nat) :=
  match prot with
  | 0x3 => some (some 1) | 0x6 => some (some 1) | 0x7 => some (some 2) | 0x8 => some (some 2)
  | 0xA => some none | 0xB => some none | 0xD => some (some 4) | 0xF => some (some 8)
  | _ => none

/-- The bytes that a transaction sends up to its STOP or repeated START (R256): the address with its R/W bit, which is QDIR for a
Quick Command, the written bytes, and with PEC = 1 the PEC of all of them after the last written byte. -/
def smbSent (q : Smb) : List Nat :=
  let aw := q.addr / 2 * 2
  if q.prot = 1 then [aw + q.addr % 2]
  else if q.prot = 3 then [aw + 1]
  else
    let w := aw :: smbTx q
    if q.pec && (smbRx q.prot).isNone then w ++ [smbPec w] else w

/-- A write of SMCMD with GO = 1 (R256): refused while BUSY, rejected for PROT 0 or an empty block. -/
def smbGo (c : Fin 4) (prot : Nat) (s : State) : State :=
  let q := s.smb[c]
  if q.busy || prot = 0 || ((prot = 0x9 || prot = 0xB) && q.len = 0) then putSmb c { q with err := true } s
  else putSmb c { q with busy := true, prot := prot, lost := !bankM s } s

/-- The end of a transaction with a result code and the count of data bytes; BUS_FAULT where bank M lost its supply before or
during it (R257, R483). -/
def smbEnd (c : Fin 4) (code bcnt : Nat) (s : State) : State :=
  let q := s.smb[c]
  let code := if q.lost || !bankM s then 7 else code
  putSmb c { q with busy := false, res := q.prot * 16 + code, smis := q.smis ||| 1, bcnt := min 255 bcnt, busflt := code = 7 } s

/-- Stores received bytes into the buffer from byte 0. -/
def smbFill (l : List Nat) (m : Sparse Nat) : Sparse Nat :=
  (l.zipIdx).foldl (fun m x => spSet 0 m x.2 (x.1 % 256)) m

/-- SMB_TRANSACTION_END: whether the target acknowledged its address (and again after a repeated START, which Receive Byte has none of), how many
written bytes it acknowledged, the bytes read, and whether the bus could not be recovered (R256, R257). A byte that
the target did not send reads 0xFF. -/
def smbFinish (c : Fin 4) (ackA ackB : Bool) (acked : Nat) (rx : List Byte) (stuck : Bool) (s : State) : State :=
  let q := s.smb[c]
  if !domOn s (smbDom c) || !q.busy then s else
  let tx := smbTx q
  let read := smbRx q.prot
  let n := (smbSent q).length - 1
  let sent := min acked tx.length - smbHead q.prot
  let rb (i : Nat) : Nat := match rx[i]? with | some b => b.toNat | none => 0xFF
  let aw := q.addr / 2 * 2
  if stuck || q.lost || !bankM s then smbEnd c 7 sent s
  else if !ackA then smbEnd c 1 0 s
  else if acked < n then smbEnd c 2 sent s
  else match read with
    | none => smbEnd c 0 (tx.length - smbHead q.prot) s
    | some fixed =>
      if q.prot ≠ 3 && !ackB then smbEnd c 1 sent s
      else
        let cnt := match fixed with | some k => k | none => rb 0
        let base := match fixed with | some _ => 0 | none => 1
        if fixed.isNone && cnt = 0 then smbEnd c 8 sent (putSmb c { q with len := 0 } s)
        else
          let dat := (upTo cnt).map (fun i => rb (base + i))
          let head := (if q.prot = 3 then [] else aw :: tx) ++ [aw + 1] ++ (if fixed.isNone then [cnt] else [])
          let ok := !q.pec || smbPec (head ++ dat) = rb (base + cnt)
          let s1 := putSmb c { q with buf := smbFill dat q.buf, len := if fixed.isNone then cnt else q.len } s
          smbEnd c (if ok then 0 else 4) ((if q.prot = 8 || q.prot = 0xB then tx.length - smbHead q.prot else 0) + cnt) s1

/-- An early end of the transaction in progress: ARB_LOST, TIMEOUT (R257). -/
def smbEarly (c : Fin 4) (code bcnt : Nat) (s : State) : State :=
  if domOn s (smbDom c) && s.smb[c].busy then smbEnd c code bcnt s else s

/-- The most data bytes, written and read, that the protocol in progress moves (R256). -/
def smbMost (q : Smb) : Nat :=
  (smbTx q).length - smbHead q.prot + (match smbRx q.prot with | none => 0 | some none => 255 | some (some n) => n)

/-- A write of 1 to SMABORT (R257). How many of the protocol's data bytes had passed is the bus's doing: a free value (DESIGN
CHOICE, log entry 13). -/
def smbAbort (c : Fin 4) (s : State) : State :=
  if s.smb[c].busy then
    smbEnd c 6 ((Config.freeValue s.free).toNat % (smbMost s.smb[c] + 1)) { s with free := s.free + 1 }
  else s

/-- HOST_NOTIFY: a complete notification with its STOP (R258). The controller answers while it does not hold the bus itself: it
has no transaction in progress, or another controller holds the bus before its START. -/
def smbNotify (c : Fin 4) (adr : Byte) (dat : Half) (s : State) : State :=
  let q := s.smb[c]
  if domOn s (smbDom c) && bankM s && q.en && q.hnen && (!q.busy || q.busbusy) && !q.smis.testBit 1 then
    putSmb c { q with hnadr := adr.toNat / 2 * 2, hndat := dat.toNat, smis := q.smis ||| 2 } s
  else s

/-- SMB_BUS_BUSY: a START or a STOP of another controller (R259); without bank M the bus reads inactive (R483). -/
def smbBus (c : Fin 4) (start : Bool) (s : State) : State :=
  if domOn s (smbDom c) && bankM s then putSmb c { s.smb[c] with busbusy := start } s else s

/-- The read of an SMBus register with its side effect: SMDAT advances SMPTR (R259). -/
def smbRead (c : Fin 4) (off : Nat) (s : State) : State × Nat :=
  let v := smbView c off s
  if off = 0x07 then (putSmb c { s.smb[c] with ptr := (s.smb[c].ptr + 1) % 256 } s, v) else (s, v)

/-- A write of an SMBus register (R259). -/
def smbWrite (c : Fin 4) (off v : Nat) (s : State) : State :=
  let q := s.smb[c]
  let v := v % 256
  let guarded := off = 0x00 || off = 0x03 || off = 0x04 || off = 0x05 || off = 0x06 || off = 0x07
  if guarded && q.busy then putSmb c { q with err := true } s
  else if off = 0x00 then
    if fld v 6 5 = 3 then putSmb c { q with err := true } s
    else putSmb c { q with en := v.testBit 7, speed := fld v 6 5, pec := v.testBit 4, hnen := v.testBit 3 } s
  else if off = 0x01 then putSmb c { q with err := q.err && !v.testBit 0 } s
  else if off = 0x02 then if v.testBit 0 then smbGo c (v / 16) s else s
  else if off = 0x03 then putSmb c { q with addr := v } s
  else if off = 0x04 then putSmb c { q with code := v } s
  else if off = 0x05 then putSmb c { q with len := v } s
  else if off = 0x06 then putSmb c { q with ptr := v } s
  else if off = 0x07 then putSmb c { q with buf := spSet 0 q.buf q.ptr v, ptr := (q.ptr + 1) % 256 } s
  else if off = 0x09 then putSmb c { q with smie := v % 4 } s
  else if off = 0x0A then putSmb c { q with smis := w1c 2 q.smis v } s
  else if off = 0x0E then if v.testBit 0 then smbAbort c s else s
  else s

end Sys2Proof.Machine
end

