-- ==== Sys2Proof/Machine/Operands.lean ====
section
/-! DEFINITION. The shapes of the registers in the engine I/O space: which bytes belong to one register, which registers
are read-only and latch, which fields are staged, and their reserved encodings (00 R13 to R16; the register tables). -/

namespace Sys2Proof.Machine

/-! ### Regions (R22, R418) -/

/-- The region of an I/O address: its base, and its number in ERIGHT; 16 is the engine's own block, 17 no region. -/
def ioRegion (a : Nat) : Nat × Nat :=
  if a < 0x100 then (0, 16) else if a < 0x300 then (0x100, 0) else if a < 0x400 then (0x300, 1)
  else if a < 0x800 then (0x400, 2) else if a < 0xC00 then (0x800, 3) else if a < 0x1000 then (0xC00, 4)
  else if a < 0x1400 then (0x1000, 5) else if a < 0x1800 then (0x1400, 6) else if a < 0x1C00 then (0x1800, 7)
  else if a < 0x1E00 then (0x1C00, 8) else if a < 0x2000 then (0x1E00, 9) else if a < 0x2400 then (0x2000, 10)
  else if a < 0x2800 then (0x2400, 11) else if a < 0x2C00 then (0x2800, 12) else if a < 0x3000 then (0x2C00, 13)
  else if a < 0x3400 then (0x3000, 14) else if a < 0x3800 then (0x3400, 15) else (a, 17)

/-- The block with staged fields of a region. -/
def regionBlk (r : Nat) : Option SBlk :=
  match r with
  | 2 => some .ksc | 3 => some .lgt | 4 => some .chg | 5 => some .seq | 6 => some .tha | 7 => some .dct
  | 10 => some .bmk | 14 => some .cpy | _ => none

/-! ### Registers of more than one byte (R13) -/

/-- How a register of several bytes is accessed: written and read by its value; read-only with a latch; or an indirect
data register whose reads latch and whose top byte advances an index. -/
inductive SpanKind where
  | rw
  | ro
  | pair
  deriving DecidableEq, Repr

/-- One register: offset of its lowest byte, bytes, kind, and the reset value that its latch starts from. -/
structure Span where
  lo : Nat
  len : Nat
  kind : SpanKind := .rw
  rst : Nat := 0
  deriving DecidableEq, Repr

/-- n registers of a shape, `step` bytes apart. -/
def spans (n step : Nat) (x : Span) : List Span := (upTo n).map (fun i => { x with lo := x.lo + step * i })

/-- The registers of several bytes of a region. -/
def regionSpans (r : Nat) (s : State) : List Span :=
  let w (lo len : Nat) : Span := { lo := lo, len := len }
  let l (lo len : Nat) : Span := { lo := lo, len := len, kind := .ro }
  match r with
  | 16 => [l 0x08 3, w 0x0C 3, w 0x21 3, w 0x29 3, l 0x24 3, l 0x2C 3, l 0x30 4, w 0x41 2, { lo := 0x45, len := 2, kind := .ro, rst := 0x64 },
           w 0x50 2, l 0x52 3, w 0x57 2, w 0x59 2, l 0x5B 2]
  | 0 => [w 0x04 2, w 0x06 2, l 0x10 2, l 0x12 2, l 0x20 8, l 0x28 8]
  | 1 => [l 0x08 4, l 0x0C 4]
  | 2 => [w 0x06 2, w 0x09 3, w 0x0C 3, w 0x0F 3, w 0x12 3, w 0x1A 2, l 0x1E 2, { lo := 0x20, len := 2, kind := .ro, rst := 0x0F0 },
          l 0x22 2, { lo := 0x25, len := 3, kind := .ro, rst := 0x1680 }, l 0x28 2, l 0x2B 2, l 0x3E 2] ++ spans 4 2 (l 0x30 2)
  | 3 => [w 0x11 2, w 0x17 9, w 0x3C 2, w 0x3E 2, w 0x40 2, w 0x92 2, w 0xA1 2, { lo := 0xA3, len := 2, kind := .pair }, l 0x0A 2,
          { lo := 0x0C, len := 3, kind := .ro, rst := 0x11300 }] ++ spans 8 8 (w 0x51 2) ++ spans 8 8 (w 0x53 2) ++ spans 8 8 (w 0x55 2)
  | 4 => [l 0x05 2, w 0x07 2, w 0x1D 2, w 0x1F 2, w 0x21 2, w 0x23 2, w 0x25 2, w 0x28 2, w 0x2A 2, w 0x2C 2, w 0x2E 2, w 0x30 2,
          w 0x32 2, w 0x37 2, w 0x3B 2, w 0x41 2, w 0x43 2, w 0x45 2, { lo := 0x49, len := 2, kind := .pair }, l 0x60 2, l 0x62 2,
          l 0x64 2, l 0x68 2, l 0x6B 2, l 0x6D 2] ++ spans 6 2 (w 0x50 2)
  | 5 => [l 0x0B 2, w 0x10 4, l 0x14 4, l 0x18 4, w 0x20 4, w 0x24 4, w 0x28 4, w 0x60 2, { lo := 0x62, len := 4, kind := .pair }]
  | 6 => [l 0x0A 2, { lo := 0x0F, len := 2, kind := .ro, rst := 0x8000 }, l 0x11 2, w 0x60 2, w 0xF2 2] ++ spans 4 2 (w 0x14 2)
          ++ spans 4 2 (l 0x28 2) ++ spans 5 2 (w 0x40 2) ++ spans 6 2 (w 0x62 2) ++ spans 8 6 (w 0x82 2)
  | 7 => [l 0x11 2, w 0x18 2, w 0x1A 2, l 0x30 4, w 0x34 2, w 0x36 2, w 0x38 3]
  | 8 => [{ lo := 0x04, len := 2, kind := .ro, rst := s.fbk.atBoot.1 }, { lo := 0x06, len := 2, kind := .ro, rst := s.fbk.atBoot.2 },
          l 0x08 2, l 0x0A 2, { lo := 0x0C, len := 2, kind := .ro, rst := s.fbk.bootno % 65536 }, w 0x0E 2, w 0x28 2]
  | 9 => [l 0x0C 2]
  | 10 =>
    let o (lo : Nat) : Span := { lo := lo, len := 2, kind := if s.bmk.restore then .rw else .ro }
    [o 0x6C, o 0x6E, l 0x68 2, { lo := 0x6A, len := 2, kind := .ro, rst := 0x8000 }, w 0x80 2] ++ spans 11 2 (o 0x20)
    ++ spans 11 2 (l 0x40 2) ++ spans 4 2 (l 0x60 2)
  | 11 => spans 4 0x40 (l 0x0C 2)
  | 12 =>
    let o (lo len rst : Nat) : Span := { lo := lo, len := len, kind := if s.rst.bootPhase then .rw else .ro, rst := rst }
    [o 0x10 4 0xAAAAAAAA, o 0x30 4 0, o 0x34 4 0, o 0x40 2 0, o 0x42 2 0, o 0x44 2 0, o 0xA1 2 0] ++ spans 5 4 (o 0x14 4 0)
    ++ spans 8 8 (o 0x51 3 0) ++ spans 8 8 (o 0x54 3 0)
  | 13 => [w 0x81 3]
  | 14 => spans 8 8 (w 0x21 2) ++ spans 8 8 (w 0x23 2) ++ spans 8 8 (w 0x25 2) ++ spans 8 2 (l 0x60 2)
  | 15 => [w 0x02 2, l 0x04 2, l 0x06 2]
  | _ => []

/-- The register that a byte offset belongs to. -/
def spanAt (r off : Nat) (s : State) : Span :=
  ((regionSpans r s).find? (fun x => decide (x.lo ≤ off) && decide (off < x.lo + x.len))).getD { lo := off, len := 1 }

/-! ### Staged registers: their defined bits (R94, R140, R194, R225, R252, R443, R478, R386) -/

/-- The first entry of a list whose range holds k. -/
def maskIn (l : List (Nat × Nat × Nat)) (k : Nat) : Nat :=
  match l.find? (fun x => decide (x.1 ≤ k) && decide (k < x.1 + x.2.1)) with | some x => x.2.2 | none => 0

/-- The defined bits of a staged register by the offset of its lowest byte; 0 where none starts there. -/
def stgMask (b : SBlk) (k : Nat) : Nat :=
  match b with
  | .ksc => maskIn [(0x06, 1, 0xFFF), (0x08, 1, 0xF), (0x09, 1, 0xFFFFFF), (0x0C, 1, 0xFFFFF), (0x0F, 1, 0xFFFFFF), (0x12, 1, 0xFFFFF),
      (0x15, 1, 0xF), (0x16, 1, 0xFF), (0x17, 1, 0x3F), (0x18, 2, 0xFF)] k
  | .lgt =>
    if 0x50 ≤ k ∧ k < 0x90 then maskIn [(0, 1, 1), (1, 1, 0x3FF), (3, 1, 0x3FF), (5, 1, 0x3FF), (7, 1, 0xFF)] (k % 8)
    else maskIn [(0x10, 1, 0x1F), (0x11, 1, 0x3FF), (0x13, 1, 0x3F), (0x14, 1, 0xFF), (0x15, 1, 0xF7), (0x16, 1, 0xF),
      (0x17, 1, 0xFFFFFFFFFFFFFFFFFF), (0x20, 6, 0xFF), (0x26, 1, 0x3F), (0x27, 5, 0xFF), (0x2C, 1, 0x7F), (0x2D, 10, 0xFF),
      (0x3A, 1, 0x3), (0x3B, 1, 0xFF), (0x3C, 1, 0xFFFF), (0x3E, 1, 0xFFFF), (0x40, 1, 0xFFFF), (0x42, 1, 0x3F)] k
  | .chg => maskIn [(0x10, 1, 0x7), (0x11, 6, 0xF), (0x17, 5, 0xFF), (0x1C, 1, 0xF), (0x1D, 1, 0x7FF), (0x1F, 1, 0x7FF),
      (0x21, 1, 0x1FFF), (0x23, 1, 0x1FF), (0x25, 1, 0x1FFF), (0x27, 1, 0xFF), (0x28, 1, 0x1FFF), (0x2A, 1, 0x3FF), (0x2C, 1, 0xFFF),
      (0x2E, 1, 0xFFF), (0x30, 1, 0xFFF), (0x32, 1, 0x3FF), (0x34, 2, 0x1F), (0x36, 1, 0xFF), (0x37, 1, 0x3FF), (0x39, 1, 0xFF),
      (0x3A, 1, 0x1), (0x3B, 1, 0x3FF), (0x3D, 4, 0xFF), (0x41, 1, 0xFFFF), (0x43, 1, 0xFFFF), (0x45, 1, 0x3FF), (0x47, 1, 0x7F)] k
  | .seq =>
    if 0x40 ≤ k ∧ k < 0x60 then maskIn [(0, 1, 0xFF), (1, 1, 0xBF), (2, 1, 0xF)] (k % 4)
    else maskIn [(0x20, 1, 0xFFFFFFFF), (0x24, 1, 0xFFFFFFFF), (0x28, 1, 0xFFFFFFFF), (0x2C, 1, 0xFF), (0x2D, 1, 0x3F), (0x2E, 1, 0xF),
      (0x2F, 2, 0x1F), (0x31, 2, 0xFF), (0x33, 1, 0x1F)] k
  | .tha =>
    if 0x80 ≤ k ∧ k < 0xB0 then maskIn [(0, 2, 0xFF), (2, 1, 0xFFFF), (4, 1, 0xFF), (5, 1, 0x3)] ((k - 0x80) % 6)
    else if 0xB0 ≤ k ∧ k < 0xF0 then maskIn [(0, 1, 0xFC), (1, 4, 0x1F), (5, 6, 0xFF), (11, 1, 0xF), (12, 1, 0xFF)] (k % 16)
    else maskIn [(0x40, 1, 0xFFFF), (0x42, 1, 0xFFFF), (0x44, 1, 0x1FF), (0x46, 1, 0xFFFF), (0x48, 1, 0x1FF), (0x4A, 1, 0xFF),
      (0x4B, 1, 0x8F), (0x4C, 1, 0xFF), (0x50, 16, 0xFC), (0x60, 1, 0x3FFF), (0x62, 1, 0xFFFF), (0x64, 1, 0xFFFF), (0x66, 1, 0xFFFF),
      (0x68, 1, 0xFFFF), (0x6A, 1, 0xFFFF), (0x6C, 1, 0xFFFF), (0x70, 16, 0xFF)] k
  | .dct => maskIn [(0x18, 1, 0xFFFF), (0x1A, 1, 0xFFFF), (0x1C, 1, 0xFF), (0x1D, 1, 0x7), (0x34, 1, 0x7FF), (0x36, 1, 0xFFFF),
      (0x38, 1, 0x3FFFF)] k
  | .bmk => maskIn [(0x80, 1, 0x7FF), (0x90, 11, 0xFF), (0xA0, 11, 0xFF)] k
  | .cpy => if 0x20 ≤ k ∧ k < 0x60 then maskIn [(0, 1, 0xFE), (1, 1, 0xFFFF), (3, 1, 0xFFFF), (5, 1, 0x1FFF), (7, 1, 0xBF)] (k % 8) else 0

/-- A platform state code, or none, in a header field (R201). -/
def headCode (c : Nat) : Bool := seqCode c || c = 0xF

/-- A reserved temperature source (R228). -/
def srcRsvd (i : Nat) : Bool := i = 29 || i = 30

/-- The value v of a staged register holds a reserved encoding (R15). Of a CPY descriptor it is SSP or DSP 0b11 (R381); the
COMMIT check that R387 has for it stays in `cpyCheck` (DEDUCED, log entry 50). -/
def stgRsvd (b : SBlk) (k v : Nat) : Bool :=
  match b with
  | .ksc => (k = 0x08 || k = 0x16 || k = 0x19) && v = 0
  | .lgt => ((k = 0x16 || k = 0x26 || k = 0x2D) && v = 0) || (k = 0x2B && v % 4 = 3) || (k = 0x2C && fld v 6 4 = 0)
      || ((k = 0x3A || k = 0x42) && v % 4 = 3)
  | .chg => (k = 0x10 && (v = 0 || 6 ≤ v)) || (0x11 ≤ k && k < 0x17 && 5 ≤ v % 8) || ((k = 0x37 || k = 0x39) && v = 0)
  | .seq => ((k = 0x2C || k = 0x2D || k = 0x2E) && v = 0) || (k = 0x31 && v / 4 = 0)
      || (0x40 ≤ k && k < 0x60 && k % 4 = 0 && !(headCode (v % 16) && headCode (v / 16)))
  | .tha => (0x80 ≤ k && k < 0xB0 && (k - 0x80) % 6 = 0 && srcRsvd (v % 32))
      || (0xB1 ≤ k && k < 0xF0 && 1 ≤ k % 16 && k % 16 ≤ 4 && srcRsvd (v % 32)) || (k = 0x4A && v = 0)
      || (0x50 ≤ k && k < 0x60 && fld v 7 6 = 3) || (0xB0 ≤ k && k < 0xF0 && (k % 16 = 10 || k % 16 = 11) && v = 0)
  | .dct => k = 0x38 && (upTo 6).any (fun n => fld v (3 * n + 2) (3 * n) = 6)
  | .bmk => false
  | .cpy => 0x20 ≤ k && k < 0x60 && k % 8 = 0 && (cjSrc v = 3 || cjDst v = 3)

/-- The reset value of a staged register. -/
def stgRst (b : SBlk) (k : Nat) : Nat :=
  match b with
  | .ksc => kscRst k | .lgt => lgtRst k | .chg => chgRst k | .seq => seqRst k | .tha => thaRst k | .dct => dctRst k
  | .bmk => 0 | .cpy => cpyRst k

/-- The staged fields of a block. -/
def stgOf (b : SBlk) (s : State) : Stg :=
  match b with
  | .ksc => s.ksc.cfg | .lgt => s.lgt.cfg | .chg => s.chg.cfg | .seq => s.seq.cfg | .tha => s.tha.cfg | .dct => s.dct.cfg
  | .bmk => s.bmk.cfg | .cpy => s.cpy.cfg

/-- Replaces the staged fields of a block. -/
def putStg (b : SBlk) (c : Stg) (s : State) : State :=
  match b with
  | .ksc => { s with ksc := { s.ksc with cfg := c } } | .lgt => { s with lgt := { s.lgt with cfg := c } }
  | .chg => { s with chg := { s.chg with cfg := c } } | .seq => { s with seq := { s.seq with cfg := c } }
  | .tha => { s with tha := { s.tha with cfg := c } } | .dct => { s with dct := { s.dct with cfg := c } }
  | .bmk => { s with bmk := { s.bmk with cfg := c } } | .cpy => { s with cpy := { s.cpy with cfg := c } }

/-- The tag of a block in a record (R446). -/
def blkCode (b : SBlk) : Nat :=
  match b with
  | .dct => 2 | .ksc => 4 | .lgt => 5 | .chg => 6 | .seq => 7 | .tha => 8 | .bmk => 9 | .cpy => 0xC

/-- The domain of a block (R22). -/
def blkDom (b : SBlk) : Nat :=
  match b with
  | .dct => 0 | .ksc => 5 | .lgt => 6 | .chg => 1 | .seq => 2 | .tha => 2 | .bmk => 2 | .cpy => 7

/-- A staging read of a block: VIEWLIVE shows the live set (R92, R224, R251). -/
def stgView (b : SBlk) (k : Nat) (s : State) : Nat :=
  let live := match b with | .ksc => s.ksc.viewlive | .seq => s.seq.viewlive | .tha => s.tha.viewlive | _ => false
  spGet (stgRst b k) (if live then (stgOf b s).live else (stgOf b s).stg) k

/-- A whole write of a staged register (R13, R15, R40). -/
def stgWrite (b : SBlk) (k v : Nat) (s : State) : State :=
  let c := stgOf b s
  let x := (BitVec.ofNat 72 v &&& BitVec.ofNat 72 (stgMask b k)).toNat
  if stgRsvd b k x then putStg b { c with err := true } s
  else putStg b { c with stg := spSet (stgRst b k) c.stg k x, dirty := true } s

/-! ### COMMIT (R39 to R45) -/

/-- The code of the first agreement check that the staged set of a block fails; 0 when it agrees (R42). -/
def commitCheck (b : SBlk) (s : State) : Nat :=
  let g (k : Nat) : Nat := spGet (stgRst b k) (stgOf b s).stg k
  match b with
  | .ksc => kscCheck g
  | .lgt => lgtCheck g
  | .chg => chgCheck g s.prt.ceilv s.prt.ceili s.prt.ceilrbv s.prt.ceilrbi
  | .seq => seqCheck g
  | .tha => thaCheck g
  | .dct => dctCheck g
  | .bmk => bmkCheck g (fun n => itemStep s (finOf 11 n))
  | .cpy => cpyCheck g

/-- A COMMIT of a block (R44): the staged set becomes pending, or MISMATCH sets and is recorded. -/
def commit (b : SBlk) (s : State) : State :=
  let c := stgOf b s
  let code := commitCheck b s
  if code = 0 then
    let s1 := putStg b { c with pnd := some c.stg, dirty := false } s
    match b with | .ksc => { s1 with ksc := { s1.ksc with ranSince := false } } | _ => s1
  else logRec (blkCode b) 0x0F [code] (putStg b { c with mism := true, chk := code } s)

/-- A write of BCOMMIT (R41). -/
def bcommitWrite (b : SBlk) (v : Nat) (s : State) : State :=
  if v = 0xC3 then commit b s else putStg b { stgOf b s with err := true } s

/-- A W1C write of BSTAT (R40). -/
def bstatWrite (b : SBlk) (v : Nat) (s : State) : State :=
  let c := stgOf b s
  putStg b { c with mism := c.mism && !v.testBit 1, err := c.err && !v.testBit 0 } s

/-- COMMIT_APPLY at the application boundary of a block (R45). -/
def commitApply (b : SBlk) (s : State) : State :=
  match b with
  | .ksc => kscApply s | .lgt => lgtApply s | .chg => chgApply s | .seq => seqApply s | .tha => thaApply s | .dct => dctApply s
  | .bmk => bmkApply s | .cpy => cpyApply s

end Sys2Proof.Machine
end

