-- ==== Sys2Proof/Machine/Io.lean ====
section
/-! DEFINITION. The I/O fabric: reads and writes of whole registers by block, the byte accesses with their latches and
held bytes, and the checks of an engine's access (00 R13 to R15; 09 R320; 12 R418). -/

namespace Sys2Proof.Machine

/-- The master codes (R38, R216, R309): CE0 to CE5, then HP1 and HP2. -/
def mstCode : Mst → Nat
  | .ce e => e.val
  | .hp p _ => 6 + p.val

/-- The master code of a record: that of the STAMP, with 0x8 and 0x9 for HP1 and HP2 with PRIV (R280, R449). -/
def mstStamp : Mst → Nat
  | .ce e => e.val
  | .hp p priv => 6 + p.val + (if priv then 2 else 0)

/-- Engine e's PRT flag bit i for a master; a port holds none of them (R419). -/
def mstFlag (s : State) (m : Mst) (i : Nat) : Bool :=
  match m with
  | .ce e => s.prt.eflags[e].testBit i
  | .hp _ _ => false

/-! ### The host-port shadow (R291) -/

/-- A write of HPSVC by a master (R291): a change of a bit sets that port's HINTS.SVC. -/
def svcWrite (by_ v : Nat) (s : State) : State :=
  (List.finRange 2).foldl (fun s (p : Port) =>
    let was := s.hsh.svc.testBit p.val
    let now := v.testBit p.val
    let s1 := { s with hsh := { s.hsh with
      svc := setBit s.hsh.svc p.val now, svcBy := if now then s.hsh.svcBy.set p by_ else s.hsh.svcBy } }
    if was = now then s1 else setHintP p 14 s1) s

/-- A write of a shadow register (R291). -/
def hshWrite (by_ off v : Nat) (s : State) : State :=
  if off = 0x00 then svcWrite by_ v s
  else if off = 0x01 then { s with hsh := { s.hsh with scrsel := v % 8 } }
  else if off = 0x02 then { s with hsh := { s.hsh with scratch := s.hsh.scratch.set (finOf 8 s.hsh.scrsel) (v % 65536) } }
  else s

/-- A write of a register of engine e's own block: an OUT to ECTL or IRQEN leaves the next boundary to the old values (R335), a
write through the window is no instruction of the engine. -/
def locPut (m : Mst) (e : Fin 6) (off v : Nat) (s : State) : State :=
  match m with
  | .ce _ => locWrite e off v s
  | .hp _ _ => let s1 := locWrite e off v s; putEng e { s1.eng[e] with gov := s.eng[e].gov } s1

/-! ### Whole registers by block -/

/-- The read of a register by its region and the offset of its lowest byte, with the side effects of that byte, for
engine e. -/
def regRead (e : Fin 6) (r lo : Nat) (s : State) : State × Nat :=
  match regionBlk r with
  | some b =>
    if lo = 0 then (s, bstat (stgOf b s))
    else if lo = 2 then (s, (stgOf b s).chk)
    else if stgMask b lo ≠ 0 then (s, stgView b lo s)
    else match b with
      | .ksc => kscRead lo s
      | .lgt => (s, if lo = 0xA3 then lixEntry s else lgtView lo s)
      | .chg => (s, chgView lo s)
      | .seq => (s, seqView lo s)
      | .tha => (s, thaView lo s)
      | .dct => (s, dctView lo s)
      | .bmk => (s, bmkView lo s)
      | .cpy => (s, cpyView lo s)
  | none =>
    if r = 16 then (s, locView e lo s)
    else if r = 0 then (if lo = 0x0A then embRead e s else (s, mbxView e lo s))
    else if r = 1 then (if lo = 0x05 then lkAcq e s else (s, lckView e lo s))
    else if r = 8 then
      (if lo = 0x10 then
        let x := feWin s s.fbk.ecur[e]
        ({ s with fbk := { s.fbk with ecur := s.fbk.ecur.set e x.1 } }, x.2)
       else (s, fbkView e lo s))
    else if r = 9 then
      (if lo = 0x09 then missRead s else (s, svyView lo s))
    else if r = 11 then (if lo < 0x100 then smbRead (finOf 4 (lo / 64)) (lo % 64) s else (s, 0))
    else if r = 12 then (if lo = 0xA3 then ixdatRead s else (s, prtView lo s))
    else if r = 13 then gpioRead lo s
    else if r = 15 then (s, hshView lo s)
    else (s, 0)

/-- The write of a whole register by its region and the offset of its lowest byte, by master m through engine e's
address space. -/
def regWrite (m : Mst) (e : Fin 6) (r lo v : Nat) (s : State) (same : Bool := false) : State :=
  match regionBlk r with
  | some b =>
    if lo = 0 then bstatWrite b v s
    else if lo = 1 then bcommitWrite b v s
    else if stgMask b lo ≠ 0 then stgWrite b lo v s
    else match b with
      | .ksc => kscWrite lo v s
      | .lgt => if lo = 0xA3 then lixWrite v s else lgtWrite lo v s
      | .chg => chgWrite lo v s
      | .seq => seqWrite (mstCode m) lo v s
      | .tha => thaWrite lo v s
      | .dct => dctWrite (mstStamp m) (mstFlag s m 0) lo v s
      | .bmk => bmkWrite lo v s
      | .cpy => cpyWrite e lo v s
  | none =>
    if r = 16 then locPut m e lo v s
    else if r = 0 then mbxWrite e lo v s
    else if r = 1 then lckWrite e lo v s
    else if r = 8 then (if lo = 0x28 then fbEngClear e v s else fbkWrite e lo v s)
    else if r = 9 then svyWrite lo v s same
    else if r = 11 then (if lo < 0x100 then smbWrite (finOf 4 (lo / 64)) (lo % 64) v s else s)
    else if r = 12 then prtWrite lo v s
    else if r = 13 then gpioWrite lo v s
    else if r = 15 then hshWrite (mstCode m) lo v s
    else s

/-! ### Byte accesses (R13) -/

/-- The registers that each engine has its own copy of: its local block, its MBX registers, its view of the locks it holds,
FECUR and FEWIN (R313, R315, R465). -/
def perEng (r lo : Nat) : Bool := r = 16 || r = 0 || (r = 1 && lo = 0x0C) || (r = 8 && (lo = 0x0E || lo = 0x10))

/-- The state in which every staging read returns the staging value, whatever VIEWLIVE says. A write whose lower bytes are not
held fills them from it: R13 gives the value of the register that the write goes to, and writes go to staging (R92). -/
def viewStaged (s : State) : State :=
  { s with ksc := { s.ksc with viewlive := false }, seq := { s.seq with viewlive := false }, tha := { s.tha with viewlive := false } }

/-- The read of a top byte that advances an index (R142, R195, R225, R252, R466). The spec states no wrap for LIXIDX, CTSEL and
SVWORD; the highest value of each advances to 0 (DESIGN CHOICE, log entry 51). -/
def topRead (a : Nat) (s : State) : State :=
  if a = 0x08A4 then { s with lgb := { s.lgb with lixidx := (s.lgb.lixidx + 1) % 2048 } }
  else if a = 0x0C4A then { s with chs := { s.chs with ctsel := (s.chs.ctsel + 1) % 128 } }
  else if a = 0x1065 then { s with seq := { s.seq with sstsel := (s.seq.sstsel + 1) % 512 } }
  else if a = 0x14F3 then { s with tha := { s.tha with fcsel := (s.tha.fcsel + 1) % 32 } }
  else if a = 0x1E0D then { s with svy := { s.svy with svword := (s.svy.svword + 1) % 256 } }
  else s

/-- The top bytes whose read advances an index. -/
def topActs (a : Nat) : Bool := [0x08A4, 0x0C4A, 0x1065, 0x14F3, 0x1E0D].contains a

/-- The registers, by their lowest address, whose read takes an entry, advances an index or clears a count: EMBDAT, KATLDAT, KEVDAT,
ENCERR, LIXDAT, the contour, step and fan curve tables, FEWIN, SVMISS, SVDAT, SMDAT of the four controllers, PRTIXDAT and FLDAT. An
acquire by LKACQ has its own order (R309). -/
def readActs (a : Nat) : Bool :=
  [0x010A, 0x041C, 0x042B, 0x0439, 0x08A3, 0x0C49, 0x1062, 0x14F2, 0x1C10, 0x1E09, 0x1E0C, 0x2407, 0x2447, 0x2487, 0x24C7, 0x28A3, 0x2C84].contains a

/-- What the register of engine e, where each has its own, gave when its byte at address a was last read; none for a byte whose read
acts and which has not been read since its lowest one (R38). -/
def readWas (e a : Nat) (s : State) : Option Nat := spGet none s.io.was (e * 65536 + a)

/-- The read of byte i of a register of n bytes with lowest address a, which gives v, is noted where a read of it acts: at its lowest
byte, or at the top byte that advances its index (R38). -/
def readNote (e a n i v : Nat) (s : State) : State :=
  let k := e * 65536 + a
  let w := s.io.was
  let put (w : Sparse (Option Nat)) : State := { s with io := { s.io with was := w } }
  if !readActs a then s
  else if i = 0 then put (spSet none (if n = 1 then w else spErase w (k + n - 1)) k (some v))
  else if i + 1 = n && topActs (a + i) then put (spSet none (spSet none w k (some v)) (k + i) (some v))
  else s

/-- The read of one byte of engine e's I/O space by master m, with no check (R13). again says that another master has read the
register on the same edge before: this read then gives what that one gave, and takes no second effect (R38, DESIGN CHOICE, log entry
2). -/
def ioGet (m : Mst) (e : Fin 6) (a : Nat) (s : State) (again : Bool := false) : State × Nat :=
  let b := (ioRegion a).1
  let r := (ioRegion a).2
  let x := spanAt r (a - b) s
  let i := a - b - x.lo
  let ke := if perEng r x.lo then e.val else 0
  let key (j : Nat) : Nat := ioKey m ke (b + x.lo + j)
  let was := if again then readWas ke a s else none
  let y : State × Nat := match was with | some v => (s, v) | none => regRead e r x.lo s
  let note (t : State) : State := if was.isSome then t else readNote ke (b + x.lo) x.len i y.2 t
  let top (t : State) : State := if was.isSome then t else topRead a t
  if x.kind = .rw then
    if x.len = 1 then (note y.1, y.2) else (top (note s), byteOf y.2 i)
  else if i = 0 then
    let latch := (List.range (x.len - 1)).foldl (fun l j => spSet none l (key (j + 1)) (some (byteOf y.2 (j + 1)))) y.1.io.latch
    (note { y.1 with io := { y.1.io with latch := latch } }, y.2 % 256)
  else (top (note s), (spGet none s.io.latch (key i)).getD (byteOf x.rst i))

/-- The write of one byte of engine e's I/O space by master m, with no check (R13); same as in svyWrite. -/
def ioPut (m : Mst) (e : Fin 6) (a v : Nat) (s : State) (same : Bool := false) : State :=
  let b := (ioRegion a).1
  let r := (ioRegion a).2
  let x := spanAt r (a - b) s
  let i := a - b - x.lo
  let ke := if perEng r x.lo then e.val else 0
  let key (j : Nat) : Nat := ioKey m ke (b + x.lo + j)
  if x.kind = .ro then s
  else if i + 1 < x.len then { s with io := { s.io with held := spSet none s.io.held (key i) (some (v % 256)) } }
  else
    let now := (regRead e r x.lo (viewStaged s)).2
    let low := (List.range (x.len - 1)).map (fun j => (spGet none s.io.held (key j)).getD (byteOf now j))
    let held := (List.range (x.len - 1)).foldl (fun h j => spErase h (key j)) s.io.held
    regWrite m e r x.lo (leNat (low ++ [v])) { s with io := { s.io with held := held } } same

/-- The held bytes of the register at an address are discarded (R13: also where its whole write is refused). -/
def ioDrop (m : Mst) (e : Fin 6) (a : Nat) (s : State) : State :=
  let b := (ioRegion a).1
  let r := (ioRegion a).2
  let x := spanAt r (a - b) s
  let ke := if perEng r x.lo then e.val else 0
  { s with io := { s.io with held := (List.range (x.len - 1)).foldl (fun h j => spErase h (ioKey m ke (b + x.lo + j))) s.io.held } }

/-! ### The checks of an access (R320, R418) -/

/-- A byte whose access code is RCL or RTA: ENCERR, SVMISS, LKACQ (R418). -/
def readWrites (a : Nat) : Bool := a = 0x0439 || a = 0x1E09 || a = 0x0305

/-- PRT does not grant engine e the access (R418, R419). -/
def ioDenied (s : State) (e : Fin 6) (a : Nat) (wr : Bool) : Bool :=
  let r := (ioRegion a).2
  if r = 16 then false
  else if r = 17 then true
  else if wr && r = 12 then !prtWriter s e
  else if wr || readWrites a then engRight s e r ≠ 2
  else engRight s e r = 0

/-- The block behind the address is in an off domain (R34, R320). -/
def ioOff (s : State) (e : Fin 6) (a : Nat) : Bool := match blockDom e.val a with | some d => !domOn s d | none => false

/-- A read that its block refuses: EMBDAT of a channel that engine e does not own (R299). -/
def readRefused (s : State) (e : Fin 6) (a : Nat) : Bool := a = 0x010A && !mbMine s e.val s.mbx.eng[e].echsel

/-- A write that its block refuses (R295, R299, R307, R310, R415, R458). -/
def writeRefused (s : State) (m : Mst) (e : Fin 6) (a v : Nat) : Bool :=
  (a = 0x010B && embRefused e v s)
  || (a = 0x0131 && !dbMine s (if v.testBit 7 then 1 else 0) e.val (v % 64))
  || (((0x0140 ≤ a && a < 0x0146) || a = 0x0311) && !mstFlag s m 0)
  || (a = 0x1C29 && !mstFlag s m 1)
  || (a = 0x2C85 && !mstFlag s m 2)

/-- An IN of engine e at I/O address a: the state and the byte, or its TFINFO code (R320); again as in ioGet. -/
def engIn (e : Fin 6) (a : Nat) (s : State) (again : Bool := false) : Except Nat (State × Nat) :=
  if ioDenied s e a false then .error 2
  else if ioOff s e a then .error 3
  else if readRefused s e a then .error 4
  else .ok (ioGet (.ce e) e a s again)

/-- An access of engine e that is checked as an OUT of v at I/O address a and does f, or its TFINFO code (R320). -/
def engTry (e : Fin 6) (a v : Nat) (f : State → State) (s : State) : Except Nat State :=
  if ioDenied s e a true then .error 2
  else if ioOff s e a then .error 3
  else if writeRefused s (.ce e) e a v then .error 4
  else .ok (f s)

/-- An OUT of engine e at I/O address a, or its TFINFO code (R320); same as in svyWrite. -/
def engOut (e : Fin 6) (a v : Nat) (s : State) (same : Bool := false) : Except Nat State :=
  engTry e a v (fun s => ioPut (.ce e) e a v s same) s

/-! ### The I/O instructions (R345, R352) -/

/-- IN and INR: Gd takes the byte with d = 4, or the engine takes BUSERR; again as in ioGet. -/
def issueIn (e : Fin 6) (word : Nat) (d : Fin 16) (adr : Ceng → Nat) (s : State) (again : Bool := false) : State :=
  issue e (fun s =>
    let a := adr s.eng[e]
    match engIn e a s again with
    | .error i => engTrap e 1 word a i s
    | .ok x => putEng e (retire (gWrite d 4 x.2 { x.1.eng[e] with resume := none })) x.1) s

/-- OUT and OUTR: the engine takes BUSERR, or the instruction completes and its byte is written, so that a write that
stops or resets the engine finds it at the next instruction (R334, R342, R388); same as in svyWrite. -/
def issueOut (e : Fin 6) (word : Nat) (g : Fin 16) (adr : Ceng → Nat) (s : State) (same : Bool := false) : State :=
  issue e (fun s =>
    let a := adr s.eng[e]
    match engOut e a (gRead s.eng[e] g) (putEng e (retire { s.eng[e] with resume := none }) s) same with
    | .error i => engTrap e 1 word a i (if i = 4 then ioDrop (.ce e) e a s else s)
    | .ok s1 => s1) s

/-! ### Register accesses of an engine as commands of their own -/

/-- Engine e executes: its domain is on and it issues. -/
def engRuns (s : State) (e : Fin 6) : Bool := domOn s (engDom e.val) && s.eng[e].run = .running

/-- BUSERR of an engine access whose instruction word the command does not carry: TFWORD takes a free value. -/
def busTrap (e : Fin 6) (a i : Nat) (s : State) : State :=
  engTrap e 1 ((Config.freeValue s.free).toNat * 256 + (Config.freeValue (s.free + 1)).toNat % 256) a i
    { s with free := s.free + 2 }

/-- An access of engine e is an instruction: the boundary before it is past (R335). -/
def govPast (e : Fin 6) (s : State) : State := putEng e (pastGov s.eng[e]) s

/-- The OUTs of bytes at rising addresses, to the first that traps; same as in svyWrite. -/
def outBytes (e : Fin 6) (same : Bool) : Nat → List Nat → State → State
  | _, [], s => s
  | a, b :: t, s =>
    let s := govPast e s
    match engOut e a b s same with
    | .ok s1 => outBytes e same (a + 1) t s1
    | .error i => busTrap e a i (if i = 4 then ioDrop (.ce e) e a s else s)

/-- The accesses, one instruction each, that engine e makes of n: all, or one where the stop of a bad kick follows it (R343). -/
def engCount (e : Fin 6) (n : Nat) (s : State) : Nat := if s.eng[e].badKick then min n 1 else n

/-- Engine e writes the n bytes of v at address a, lowest first; same as in svyWrite. -/
def engWrite (e : Fin 6) (a n v : Nat) (s : State) (same : Bool := false) : State :=
  if engRuns s e then afterKick e s.eng[e] (outBytes e same a (leBytes (engCount e n s) v) s) else s

/-- An access of engine e that is checked as a write of v at address a and does f (R320). -/
def engAct (e : Fin 6) (a v : Nat) (f : State → State) (s : State) : State :=
  if !engRuns s e then s
  else
    let s0 := govPast e s
    afterKick e s.eng[e] (match engTry e a v f s0 with
      | .ok s1 => s1
      | .error i => busTrap e a i (if i = 4 then ioDrop (.ce e) e a s0 else s0))

/-- The INs of n bytes at rising addresses, to the first that traps; what was read goes to the engine's read result; again as in ioGet. -/
def inBytes (e : Fin 6) (again : Bool) : Nat → Nat → List Nat → State → State
  | _, 0, l, s => { s with io := { s.io with rd := s.io.rd.set e (leNat l) } }
  | a, n + 1, l, s =>
    let s := govPast e s
    match engIn e a s again with
    | .ok x => inBytes e again (a + 1) n (l ++ [x.2]) x.1
    | .error i => busTrap e a i s

/-- Engine e reads n bytes from address a; again as in ioGet. -/
def engRead (e : Fin 6) (a n : Nat) (s : State) (again : Bool := false) : State :=
  if engRuns s e then afterKick e s.eng[e] (inBytes e again a (engCount e n s) [] s) else s

/-! ### Rejections seen by a port (R15, R272) -/

/-- The ERR flag of the block of a region (R15). -/
def regErr (r : Nat) (e : Fin 6) (off : Nat) (s : State) : Bool :=
  match regionBlk r with
  | some b => (stgOf b s).err
  | none =>
    if r = 16 then s.eng[e].err else if r = 0 then s.mbx.err else if r = 8 then s.fbk.stErr
    else if r = 9 then s.svy.err else if r = 11 then s.smb[(finOf 4 (off / 64))].err else if r = 12 then s.prt.err
    else if r = 13 then s.rtc.err else false

/-- Sets or clears the ERR flag of the block of a region. -/
def setRegErr (r : Nat) (e : Fin 6) (off : Nat) (x : Bool) (s : State) : State :=
  match regionBlk r with
  | some b => putStg b { stgOf b s with err := x } s
  | none =>
    if r = 16 then putEng e { s.eng[e] with err := x } s
    else if r = 0 then { s with mbx := { s.mbx with err := x } }
    else if r = 8 then { s with fbk := { s.fbk with stErr := x } }
    else if r = 9 then { s with svy := { s.svy with err := x } }
    else if r = 11 then
      let c : Fin 4 := finOf 4 (off / 64)
      putSmb c { s.smb[c] with err := x } s
    else if r = 12 then putPrt { s.prt with err := x } s
    else if r = 13 then { s with rtc := { s.rtc with err := x } }
    else s

end Sys2Proof.Machine
end

