-- ==== Sys2Proof/Machine/Boot.lean ====
section
/-! DEFINITION. The reset sequence, the boot record, the images, the device boot, the recovery wait and the role loader
(12 R401 to R414, R420, R421; 11 R388; 14 R453, R454). -/

namespace Sys2Proof.Machine

/-! ### The reset sequence (R403) -/

/-- Every pending ring record is written through (R454). -/
def fbFlush (s : State) : State := s.fbk.ring.foldl (fun s _ => fbWriteThrough true true true s) s

/-- The newest SEQ of a list of records (R453, R454). -/
def newestSeq (l : List FbRec) : Option (BitVec 16) :=
  l.foldl (fun a r => match a with | some n => some (if seqNewer r.seq n then r.seq else n) | none => some r.seq) none

/-- The Field Book across a reset (R401, R453, R454, R460). With a supply loss the ring is lost, and records whose clear
floor was not raised are held again; without one the ring records that pass their CHECK are kept, and those that were pending
written through. ringBad names the ring records by SEQ, and nvmBad the NVM slots, whose CHECK fails. -/
def fbReboot (full : Bool) (ringBad nvmBad : List Nat) (s : State) : Fbk :=
  let good (x : Nat × FbRec) : Bool := !nvmBad.contains x.1
  let kept := { s.fbk with drops := 0, ring := s.fbk.ring.filter (fun x => !ringBad.contains x.r.seq.toNat) }
  let q0 := if full then { kept with ring := [], nvm := s.fbk.shadow ++ s.fbk.nvm, shadow := [], raise := none }
    else floorRaise (fbFlush { s with fbk := kept }).fbk
  let q := { q0 with nvm := q0.nvm.filter good, shadow := q0.shadow.filter good }
  let held := q.nvm.map Prod.snd ++ q.ring.map RingRec.r
  let newest : BitVec 16 := (newestSeq held).getD (if full then 0 else s.fbk.newest)
  let n := s.fbk.bootno + 1
  let q1 : Fbk := { ring := q.ring, nvm := q.nvm, shadow := q.shadow, nvmSlot := q.nvmSlot, bootno := n, newest := newest
                    nonce := BitVec.ofNat 16 (1 + (Config.nonceDraw n).val) }
  let old := fbOldest { s with fbk := q1 }
  { q1 with atBoot := (newest.toNat, old.toNat), ecur := Vector.replicate 6 { seq := old } }

/-- The flash and the OTP after a reset that may cut a command short: what it leaves is open (DESIGN CHOICE, log entry 28). -/
def flsReboot (s : State) : Fls :=
  let q := s.fls
  match q.cmd with
  | none => { mem := q.mem, otpSvn := q.otpSvn }
  | some (c, a) =>
    if c = 1 then { mem := flashTorn s.free (a / 4096 * 4096) 4096 q.mem, otpSvn := q.otpSvn }
    else if c = 2 then { mem := flashTorn s.free (a / 64 * 64) 64 q.mem, otpSvn := q.otpSvn }
    else { mem := q.mem, otpSvn := if (Config.tornByte s.free 0).getLsbD 0 then a else q.otpSvn }

/-- Step 1 of the reset sequence (R403): the last active source has released, and the crystal is qualified. RSTCAUSE takes the
lowest cause among those that were active (R402). What a POR, a SHIPWAKE or a SHIP exit takes is due until step 2 has run, whatever
starts the sequence over before it (R401). TIME counts from its end (R447). -/
def resetStep1 (s : State) : State :=
  let cause := (lowestBit 6 s.rst.active).getD 0 + 1
  { s with rst := { s.rst with active := 0, step := 1, cause := cause, por := s.rst.por || decide (cause ≤ 2) || s.dct.mode = .ship }
           clk := { s.clk with ckPll := false, pllOn := false, lock := false, sub := 0, time := 0 } }

/-- Step 2 (R403): D0 powers up, and everything but what outlasts the cause takes its reset value (R401). After POR and SHIPWAKE,
and after any SHIP exit, nothing of D0 outlasts it. -/
def resetStep2 (ringBad nvmBad : List Nat) (s : State) : State :=
  let full := s.rst.por || decide (s.rst.cause ≤ 2) || s.dct.mode = .ship
  let g := s.gpio
  let base : State := {
    pending := s.pending
    fbk := fbReboot full ringBad nvmBad s
    fls := flsReboot s
    free := s.free + 1
    rst := { step := 2, cause := s.rst.cause, hist := s.rst.hist, shipsrc := if s.rst.cause = 2 then s.rst.shipsrc else 0 }
    clk := { ckPll := false, pllOn := false, lock := false, sub := s.clk.sub, time := s.clk.time }
    dct := { on := 1 }
    eng := Vector.replicate 6 {}
    rtc := if full then {} else { s.rtc with eng := {}, err := false }
    ksc := { enc := s.ksc.enc.map (fun (x : Encoder) => ({ a := x.a, b := x.b } : Encoder)) }
    seq := { pg := s.seq.pg, wk := s.seq.wk }
    tha := { anaIn := s.tha.anaIn }
    gpio := { viok := g.viok, vios := g.vios, viom := g.viom, lsgv := g.lsgv, drvv := g.drvv, vdrvl := g.vdrvl }
    tap := if full then {} else s.tap
    trst := s.trst }
  portsFloat { base with hp := s.hp.map (portFresh base) }

/-- Domain d comes up in the reset sequence. -/
def resetUp (d : Nat) (s : State) : State := domUp d (domReset d s)

/-- Step k of the reset sequence (R403): 3 powers D7 and D3, with 4 the PLL is locked and CK runs from it, 5 takes CE0 out of
reset in ROM, and 6 powers D1, D2, D4, D5 and D6. -/
def resetStep (ringBad nvmBad : List Nat) (k : Nat) (s : State) : State :=
  let done (s : State) : State := { s with rst := { s.rst with step := k } }
  if k = 1 then resetStep1 s
  else if k = 2 then resetStep2 ringBad nvmBad s
  else if k = 3 then done (resetUp 3 (resetUp 7 s))
  else if k = 4 then done { s with clk := { s.clk with ckPll := true, pllOn := true, lock := true } }
  else if k = 5 then done (putEng 0 { run := .running, rom := true, role := 0 } s)
  else done (resetUp 6 (resetUp 5 (resetUp 4 (resetUp 2 (resetUp 1 s)))))

/-- RESET_SEQUENCE (R401 to R403): the sequence runs to the end of step `last`, from step 1 where a source has been active, else
from the step that it has reached. A source that becomes active before step 6 ends makes it start over. -/
def resetSequence (last : Nat) (ringBad nvmBad : List Nat) (s : State) : State :=
  let from_ := if s.rst.active ≠ 0 then 0 else s.rst.step
  ((upTo 6).filter (fun i => decide (from_ ≤ i) && decide (i < last))).foldl (fun s i => resetStep ringBad nvmBad (i + 1) s) s

/-! ### The boot record (R412, R413) -/

/-- The fields of a boot record. -/
structure BootRec where
  seq : Nat := 0
  active : Nat := 0
  st : Nat × Nat := (0xFF, 0xFF)
  tries : Nat × Nat := (0, 0)
  deriving DecidableEq, Repr

/-- STATE of a slot. -/
def brState (b : BootRec) (k : Nat) : Nat := if k = 0 then b.st.1 else b.st.2

/-- Trial count of a slot. -/
def brTries (b : BootRec) (k : Nat) : Nat := if k = 0 then b.tries.1 else b.tries.2

/-- A STATE byte as it is read: other values read as BAD (R413). -/
def stateByte (v : Nat) : Nat := if v = 0xFF ∨ v = 0x5A then v else 0

/-- Copy c of the boot record, none when it is not valid (R413). -/
def brRead (s : State) (c : Nat) : Option BootRec :=
  let b (i : Nat) : Nat := flByte s (0x1F0000 + 0x1000 * c + i)
  let body := (upTo 8).map b
  if crc32 body = leNat ((upTo 4).map (fun i => b (8 + i))) && decide (b 2 ≤ 1) && b 3 = 0xFF then
    some { seq := b 0 + 256 * b 1, active := b 2, st := (stateByte (b 4), stateByte (b 5)), tries := (b 6, b 7) }
  else none

/-- The record in use and the copy that the next write goes to (R412). -/
def brCurrent (s : State) : BootRec × Nat :=
  match brRead s 0, brRead s 1 with
  | some x, some y => if seqNewer (BitVec.ofNat 16 y.seq) (BitVec.ofNat 16 x.seq) then (y, 0) else (x, 1)
  | some x, none => (x, 1)
  | none, some y => (y, 0)
  | none, none => ({}, 0)

/-- Writes a record with SEQ + 1 into copy c: sector erase, then its first page (R413). -/
def brWrite (c : Nat) (b : BootRec) (s : State) : State :=
  let q := (b.seq + 1) % 65536
  let body := [q % 256, q / 256, b.active, 0xFF, b.st.1, b.st.2, b.tries.1, b.tries.2]
  let a := 0x1F0000 + 0x1000 * c
  let mem := (body ++ leBytes 4 (crc32 body)).zipIdx.foldl (fun m x => flashPut m (a + x.2) x.1) (flashErase s.fls.mem a)
  { s with fls := { s.fls with mem := mem } }

/-- The record is changed and written by the ROM. -/
def brUpdate (b : BootRec) (s : State) : State := brWrite (brCurrent s).2 b s

/-- The record with STATE of slot k BAD. -/
def brBad (k : Nat) (b : BootRec) : BootRec := { b with st := if k = 0 then (0, b.st.2) else (b.st.1, 0) }

/-- The record with one more trial of slot k. -/
def brTry (k : Nat) (b : BootRec) : BootRec :=
  { b with tries := if k = 0 then (b.tries.1 + 1, b.tries.2) else (b.tries.1, b.tries.2 + 1) }

/-! ### Images (R410, R411) -/

/-- The bytes of an image range: slot A 0, slot B 1, the recovery range 2. -/
def imgSize (slot : Nat) : Nat := if slot = 2 then 0x10000 else 0xF8000

/-- Byte i of the image in a slot. -/
def imgByte (s : State) (slot i : Nat) : Nat := if slot = 2 then shmByte s (0x10000 + i) else flByte s (0xF8000 * slot + i)

/-- n bytes of the image from offset i. -/
def imgBytes (s : State) (slot i n : Nat) : List Nat := (List.range n).map (fun j => imgByte s slot (i + j))

/-- A little-endian field of the image. -/
def imgNat (s : State) (slot i n : Nat) : Nat := leNat (imgBytes s slot i n)

/-- One section entry. -/
structure Sec where
  typ : Nat
  role : Nat
  target : Nat
  off : Nat
  len : Nat
  entry : Nat
  rsvd : Nat
  digest : Nat
  deriving DecidableEq, Repr

/-- Section entry k of the image. -/
def imgSec (s : State) (slot k : Nat) : Sec :=
  let a := 0x58 + 48 * k
  let f (i n : Nat) : Nat := imgNat s slot (a + i) n
  { typ := f 0 1, role := f 1 1, target := f 2 2, off := f 4 4, len := f 8 4, entry := f 12 2, rsvd := f 14 2
    digest := beNat (imgBytes s slot (a + 16) 32) }

/-- The section entries of the image. -/
def imgSecs (s : State) (slot : Nat) : List Sec := (List.range (imgNat s slot 0x14 2)).map (imgSec s slot)

/-- The digest of a section's body matches (R410). -/
def digestOk (s : State) (slot : Nat) (x : Sec) : Bool := sha256 (imgBytes s slot x.off x.len) = x.digest

/-- A section's target lies inside its memory, and its type is not reserved (R411). -/
def targetOk (x : Sec) : Bool :=
  if x.typ = 1 then decide (0x0800 ≤ x.target) && x.len % 3 = 0 && decide (x.target + x.len / 3 ≤ 0x4000)
  else if x.typ = 2 then decide (x.target + x.len ≤ 0x4000)
  else if x.typ = 3 then decide (2 * x.target + x.len ≤ 0x20000) && (x.len = 0 || decide (0x60 ≤ 2 * x.target))
  else x.typ = 4

/-- How many sections pass a test. -/
def secCount (l : List Sec) (f : Sec → Bool) : Nat := (l.filter f).length

/-- The public key's hash is a key slot that is not revoked (R411). -/
def keyOk (h : Nat) : Bool := h = (Config.otpKeyHash 1).toNat || (h = (Config.otpKeyHash 0).toNat && !Config.otpRevoked)

/-- The container of a slot is valid (R411). -/
def containerOk (s : State) (slot : Nat) : Bool :=
  let f (i n : Nat) : Nat := imgNat s slot i n
  let be (i : Nat) : Nat := beNat (imgBytes s slot i 32)
  let hdr := f 0x06 2
  f 0x00 4 = 0x4B5A5258 && f 0x04 2 = 1 && f 0x10 4 = 0x4806 && f 0x16 2 = 0 && hdr = 0x58 + 48 * f 0x14 2
  && decide (s.fls.otpSvn ≤ f 0x0C 4) && keyOk (sha256 (imgBytes s slot 0x18 64))
  && ecdsaOk (be 0x18) (be 0x38) (be hdr) (be (hdr + 32)) (sha256 (imgBytes s slot 0 hdr))
  && (let l := imgSecs s slot
      l.all (fun x => decide (x.off + x.len ≤ imgSize slot) && x.rsvd = 0 && targetOk x && digestOk s slot x)
      && secCount l (fun x => x.typ = 1 && x.role = 0) = 1 && decide (secCount l (fun x => x.typ = 4) ≤ 1)
      && (upTo 256).all (fun r => decide (secCount l (fun x => x.typ = 1 && x.role = r) ≤ 1)
          && decide (secCount l (fun x => x.typ = 2 && x.role = r) ≤ 1)))

/-! ### Loading sections -/

/-- Copies a section's body: instruction words and local data into engine e, SHM data into SHM. -/
def loadSec (slot : Nat) (e : Fin 6) (x : Sec) (s : State) : State :=
  if x.typ = 1 then
    let m := s.emem[e]
    let im := (List.range (x.len / 3)).foldl (fun im j =>
      spSet 0 im ((x.target + j) % 0x4000) (BitVec.ofNat 24 (imgNat s slot (x.off + 3 * j) 3))) m.imem
    { s with emem := s.emem.set e { m with imem := im } }
  else if x.typ = 2 then
    let m := s.emem[e]
    let dm := (List.range x.len).foldl (fun dm j =>
      spSet 0 dm ((x.target + j) % 0x4000) (BitVec.ofNat 8 (imgByte s slot (x.off + j)))) m.dmem
    { s with emem := s.emem.set e { m with dmem := dm } }
  else if x.typ = 3 then
    { s with shm := (List.range x.len).foldl (fun m j =>
        spSet 0 m ((2 * x.target + j) % 131072) (BitVec.ofNat 8 (imgByte s slot (x.off + j)))) s.shm }
  else s

/-- Loads the sections of a list. -/
def loadSecs (slot : Nat) (e : Fin 6) (l : List Sec) (s : State) : State := l.foldl (fun s x => loadSec slot e x s) s

/-- The sections of an engine role. -/
def roleSecs (s : State) (slot r : Nat) : List Sec := (imgSecs s slot).filter (fun x => (x.typ = 1 || x.typ = 2) && x.role = r)

/-- Engine e starts its role: the hand-over of R407. -/
def handOver (e : Fin 6) (entry g0 g1 g2 : Nat) (s : State) : State :=
  let g : Vector Cell 16 := (((Vector.replicate 16 {}).set 0 { base := g0 }).set 1 { base := g1 }).set 2 { base := g2 }
  putEng e { s.eng[e] with run := .running, rom := decide (entry < 0x0800), g := g, idx := 0, pc := entry, ds := none, rep := none } s

/-! ### Device boot (R407, R412, R420, R421) -/

/-- One record of a PRT table as an OUT of CE0 in ROM (R420). -/
def prtRecord (slot : Nat) (x : Sec) (i : Nat) (s : State) : State :=
  let off := imgNat s slot (x.off + 4 * i) 2
  let v := imgByte s slot (x.off + 4 * i + 2)
  if s.rst.bootPhase && decide (off < 0x400) then ioPut (.ce 0) 0 (0x2800 + off) v s else s

/-- The PRT table of an image. -/
def prtTable (slot : Nat) (s : State) : State :=
  match (imgSecs s slot).find? (fun x => x.typ = 4) with
  | some x => (List.range (x.len / 4)).foldl (fun s i => prtRecord slot x i s) s
  | none => s

/-- BOOTSTAT.TRIES of a trial count; above 15 the spec states no value (DESIGN CHOICE, log entry 29). -/
def triesField (n : Nat) : Nat := if n < 16 then n else (Config.wideTries n).toNat

/-- CE0 boots the image of a slot (R407, R420, R421): the role-0 and SHM sections, BOOTSTAT and BOOTVER, the PRT table, the seal
and the hand-over. A PRT table that sets ERR marks the slot BAD, and the device resets; one with a record to PRTSEAL seals
there. -/
def bootImage (slot : Nat) (fell noImage : Bool) (tries : Nat) (s : State) : State :=
  let all := imgSecs s slot
  let stat := slot * 64 + bAt fell 5 + bAt noImage 4 + triesField tries
  let s0 := loadSecs slot 0 (all.filter (fun x => ((x.typ = 1 || x.typ = 2) && x.role = 0) || x.typ = 3)) s
  let s1 := { s0 with rst := { s0.rst with bootstat := stat, bootver := imgNat s slot 0x08 4, svn := imgNat s slot 0x0C 4 } }
  let s2 := prtTable slot s1
  if s2.prt.err then
    let s3 : State := if slot = 2 then { s2 with hsh := { s2.hsh with scratch := s2.hsh.scratch.set 0 0xBAD0 } }
      else brUpdate (brBad slot (brCurrent s2).1) s2
    resetAssert 6 s3
  else
    let entry := ((all.find? (fun x => x.typ = 1 && x.role = 0)).map Sec.entry).getD 0
    let s4 := prtSeal s2
    handOver 0 entry 0 0 stat { s4 with rst := { s4.rst with handed := true, recovery := false } }

/-- The slot that R412 chooses, after the record writes that lead to it. -/
def bootPick : List Nat → State → State × Option Nat
  | [], s => (s, none)
  | k :: t, s =>
    let b := (brCurrent s).1
    if brState b k = 0 then bootPick t s
    else if brState b k = 0xFF && decide (3 ≤ brTries b k) then bootPick t (brUpdate (brBad k b) s)
    else
      let s1 := if brState b k = 0xFF then brUpdate (brTry k b) s else s
      if containerOk s1 k then (s1, some k)
      else bootPick t (brUpdate (brBad k (brCurrent s1).1) s1)

/-- The grants of the recovery wait to port p (R414): G14 and SHM bytes 0x10000 to 0x1FFFF. -/
def recoveryGrant (p : Port) (s : State) : State :=
  if s.hp[p].powered then
    { s with prt := { s.prt with
        pright := s.prt.pright.set p (setFld s.prt.pright[p] 29 28 2)
        wreg := s.prt.wreg.set (finOf 8 (4 * p.val)) { b0 := 0xD0, start := 0x10000, stop := 0x1FFFF } } }
  else s

/-- The grants of the recovery wait end with the loading of an image: PRT at its reset values (R414, R420). -/
def recoveryEnd (s : State) : State := { s with prt := { s.prt with pright := #v[0, 0], wreg := Vector.replicate 8 {} } }

/-- CE0 runs its ROM in the boot phase. -/
def romRuns (s : State) : Bool := engRuns s 0 && s.eng[(0 : Fin 6)].rom && s.rst.bootPhase && !s.rst.handed

/-- DEVICE_BOOT (R412). -/
def deviceBoot (s : State) : State :=
  if romRuns s && !s.rst.recovery then
    let b := (brCurrent s).1
    match bootPick [b.active, 1 - b.active] s with
    | (s1, some k) => bootImage k (k ≠ b.active) false (brTries (brCurrent s1).1 k) s1
    | (s1, none) => recoveryGrant 1 (recoveryGrant 0 { s1 with rst := { s1.rst with bootstat := 0xD0, recovery := true } })
  else s

/-- RECOVERY_CHECK: SCRATCH0 reads 0x4B5A in the recovery wait (R414). A valid image loads with PRT at its reset values, but for the
rights that the ROM grants CE0 (R420). -/
def recoveryCheck (s : State) : State :=
  if romRuns s && s.rst.recovery && s.hsh.scratch[(0 : Fin 8)] = 0x4B5A then
    if containerOk s 2 then bootImage 2 false true 0 (recoveryEnd s)
    else { s with hsh := { s.hsh with scratch := s.hsh.scratch.set 0 0xBAD0 } }
  else s

/-! ### The role loader (R388, R407) -/

/-- ROLE_LOAD_COMPLETE of engine e. -/
def roleLoad (e : Fin 6) (s : State) : State :=
  let q := s.eng[e]
  if domOn s (engDom e.val) && q.run = .loading then
    let slot := s.rst.bootstat / 64
    let l := roleSecs s slot q.role
    let s1 := loadSecs slot e l s
    match l.find? (fun x => x.typ = 1) with
    | some x =>
      if slot ≠ 3 && l.all (digestOk s slot) then handOver e x.entry q.role q.cause 0 s1 else roleFail e s1
    | none => roleFail e s1
  else s
where
  /-- A failed check: the engine returns to reset, with what that releases (R298, R310), and the failure is recorded. -/
  roleFail (e : Fin 6) (s : State) : State :=
    let s1 := engReset e s
    logRec 2 0xB [e.val, s.eng[e].role] (putDct { s1.dct with erflt := s1.dct.erflt ||| 2 } (putEng e { s1.eng[e] with failed := true } s1))

end Sys2Proof.Machine
end

