-- ==== Sys2Proof/Machine/Port.lean ====
section
/-! DEFINITION. The host ports: error responses, group rights, the reads and writes of the 64 window registers, the
indirect window, and the port's own pins (07 R261 to R293). -/

namespace Sys2Proof.Machine

/-! ### Error responses (R272 to R274) -/

/-- A port serves accesses: it is powered, its CS_N is low and D7 is on, with CK (R262, R264, R269). -/
def portServes (s : State) (p : Port) : Bool := s.hp[p].powered && s.hp[p].cs && domOn s 7 && s.dct.mode ≠ .ship

/-- Replaces the select registers of port p. -/
def putSel (p : Port) (q : PortSel) (s : State) : State := putPort p { s.hp[p] with sel := q } s

/-- An error response: ERRINFO and HINTS.ERR (R272, R274). -/
def portErr (p : Port) (code off : Nat) (wr : Bool) (s : State) : State :=
  let h := s.hp[p]
  setHintP p 15 (putPort p { h with err := {
    valid := true, multi := h.err.multi || h.err.valid, code := code, wr := wr, off := off } } s)

/-- The result of a read on the data output register, whose drivers are enabled; RDY is high on the data edge (R265), for which a
read waits until the write buffer is free (R267). -/
def portData (p : Port) (v : Nat) (s : State) : State :=
  putPort p { s.hp[p] with dOut := BitVec.ofNat 16 v, driven := true, rdyLow := false, wbuf := 0 } s

/-- The drivers of D are off (R264, R265, R269). -/
def dRelease (p : Port) (s : State) : State := putPort p { s.hp[p] with driven := false } s

/-! ### Rights (R276) -/

/-- The group of a window offset. -/
def portGroup (off : Nat) : Nat :=
  if off ≤ 0x05 ∨ off = 0x2F ∨ (0x30 ≤ off ∧ off ≤ 0x37) then 0
  else if off ≤ 0x0B then 1 else if off ≤ 0x0F then 2 else if off ≤ 0x12 then 3 else if off ≤ 0x15 then 4
  else if off ≤ 0x18 then 5 else if off ≤ 0x1A then 6 else if off ≤ 0x1D then 7 else if off ≤ 0x21 then 8
  else if off ≤ 0x23 then 9 else if off ≤ 0x27 then 10 else if off = 0x28 then 11 else if off ≤ 0x2B then 12
  else if off ≤ 0x2E then 13 else if off ≤ 0x3A then 14 else 15

/-- The right of port p to group g. -/
def portRight (s : State) (p : Port) (g : Nat) : Nat := fld s.prt.pright[p] (2 * g + 1) (2 * g)

/-- The rights check of an access: 0, DENIED 2 or NOPRIV 3 (R273, R276, R286). A read of LOCK counts as a write. -/
def portDenied (s : State) (p : Port) (priv : Bool) (off : Nat) (wr : Bool) : Nat :=
  let g := portGroup off
  if g = 0 then 0
  else if g = 11 then (if !wr then 0 else if !priv then 3 else if s.prt.pflags[p].testBit 0 then 0 else 2)
  else if g = 15 then (if priv then 0 else 3)
  else
    let r := portRight s p g
    if r = 0 then 2
    else if wr || off = 0x14 then (if r = 1 then 2 else if r = 3 && !priv then 3 else 0)
    else 0

/-- The domain that serves an offset (R277); WINDAT's target is checked apart. -/
def portDom (off : Nat) : Nat :=
  if 0x06 ≤ off ∧ off ≤ 0x0B then 5 else if 0x16 ≤ off ∧ off ≤ 0x18 then 0 else if off = 0x19 ∨ off = 0x1A then 2
  else if 0x1B ≤ off ∧ off ≤ 0x1D then 1 else if 0x1E ≤ off ∧ off ≤ 0x21 then 2 else if off = 0x22 ∨ off = 0x23 then 6
  else if 0x24 ≤ off ∧ off ≤ 0x2B then 0 else if off = 0x2C then 2 else if off = 0x2D ∨ off = 0x2E then 0 else 7

/-- The causes of R273 down to priority 5: the code, 0 when none applies. -/
def portCheck (s : State) (p : Port) (priv : Bool) (off : Nat) (wr : Bool) : Nat :=
  if 0x3C ≤ off then 1
  else
    let c := portDenied s p priv off wr
    if c ≠ 0 then c else if !domOn s (portDom off) then 4 else 0

/-! ### Key registers (R72 to R78) -/

/-- Word WORD of a plane by VIEW, and the next WORD (R72, R73, R75). -/
def keyRead (p : Port) (prov : Bool) (s : State) : State × Nat :=
  let k := s.hp[p].sel.keysel
  let w := k % 32
  let im := s.ksc.frozen[p]
  let m := if k.testBit 6 then (if prov then im.prov else im.win)
           else (if prov then provPlane s.ksc.plane else s.ksc.plane.conf)
  let k' := if k.testBit 5 then k - w + (w + 1) % 30 else k
  (putSel p { s.hp[p].sel with keysel := k' } s, keyWord m w)

/-- A write of KEYSEL (R72, R78): its error code. -/
def keyselWrite (p : Port) (v : Nat) (s : State) : State × Nat :=
  if 30 ≤ v % 32 || fld v 9 8 = 3 then ({ s with ksc := { s.ksc with cfg := { s.ksc.cfg with err := true } } }, 5)
  else
    let s1 := putSel p { s.hp[p].sel with keysel := setBit (v % 4096) 7 false } s
    (if v.testBit 7 then { s1 with ksc := { s1.ksc with frozen := s1.ksc.frozen.set p s1.ksc.image } } else s1, 0)

/-! ### Charger, thermal and fan registers (R191, R249, R250) -/

/-- A write of CHGSEL (R191). -/
def chgselWrite (p : Port) (v : Nat) (s : State) : State × Nat :=
  if 0x1B ≤ v % 64 then ({ s with chg := { s.chg with cfg := { s.chg.cfg with err := true } } }, 5)
  else
    let h := s.hp[p].sel.chgsel
    let s1 := putSel p { s.hp[p].sel with chgsel := v % 64 + bAt (v.testBit 7) 7 } s
    (if v.testBit 7 && !h.testBit 7 then { s1 with chs := { s1.chs with held := s1.chs.held.set p s1.cht.vals } } else s1, 0)

/-- CHGVAL of port p (R191, R192). -/
def chgvalRead (s : State) (p : Port) : Nat :=
  let h := s.hp[p].sel.chgsel
  chgVal (if h.testBit 7 then s.chs.held[p] else s.cht.vals) (h % 64)

/-- THA rejects a value (R15). -/
def thaErr (s : State) : State := { s with tha := { s.tha with cfg := { s.tha.cfg with err := true } } }

/-- A write of THERMSEL (R249). -/
def thermselWrite (p : Port) (v : Nat) (s : State) : State × Nat :=
  if 29 ≤ v % 32 || fld v 7 6 = 3 then (thaErr s, 5)
  else (putSel p { s.hp[p].sel with thermsel := v % 32 + fld v 7 6 * 64 } s, 0)

/-- THERMVAL of port p (R249). -/
def thermvalRead (s : State) (p : Port) : Nat :=
  let h := s.hp[p].sel.thermsel
  let i := h % 32
  if fld h 7 6 = 0 then srcWord s i else if fld h 7 6 = 1 then srcRaw s i else srcStatus s i * 4096

/-- A write of THERMVAL sets a virtual sensor, or is refused (R249). -/
def thermvalWrite (p : Port) (v : Nat) (s : State) : State × Nat :=
  let h := s.hp[p].sel.thermsel
  if 25 ≤ h % 32 && h % 32 < 29 && fld h 7 6 = 0 then (vtSet (finOf 4 (h % 32 - 25)) v s, 0) else (s, 6)

/-- A write of FANSEL (R250). -/
def fanselWrite (p : Port) (v : Nat) (s : State) : State × Nat :=
  if 5 ≤ fld v 5 3 then (thaErr s, 5) else (putSel p { s.hp[p].sel with fansel := v % 4 + fld v 5 3 * 8 } s, 0)

/-- FANVAL of port p (R250). -/
def fanvalRead (s : State) (p : Port) : Nat :=
  let h := s.hp[p].sel.fansel
  let n : Fin 4 := finOf 4 (h % 4)
  let f := s.thd.fans[n]
  let i := fld h 5 3
  if i = 0 then f.speed else if i = 1 then f.pwm else if i = 2 then f.target else if i = 3 then fstat s n
  else if s.thd.foven.testBit n.val then s.thd.fovr[n] else 0xFFFF

/-- A write of FANVAL sets or clears an override, or is refused (R250). -/
def fanvalWrite (p : Port) (v : Nat) (s : State) : State × Nat :=
  let h := s.hp[p].sel.fansel
  let n : Fin 4 := finOf 4 (h % 4)
  if fld h 5 3 = 4 && v < 0x100 then
    ({ s with thd := { s.thd with fovr := s.thd.fovr.set n v, foven := setBit s.thd.foven n.val true } }, 0)
  else if fld h 5 3 = 4 && v = 0xFFFF then ({ s with thd := { s.thd with foven := setBit s.thd.foven n.val false } }, 0)
  else (s, 6)

/-! ### RTC (R288, R292) -/

/-- RTCSEL as read; bits 7, 6 and 2 to 0 are stored. -/
def rtcselRead (s : State) (p : Port) : Nat :=
  bAt s.rtc.lost 15 + bAt s.hp[p].sel.rtc.hold 7 + s.hp[p].sel.rtcsel % 128

/-- The next FIELD after an RTCVAL access. -/
def rtcNext (k : Nat) : Nat := if k.testBit 6 then k - k % 8 + (if 6 ≤ k % 8 then 0 else k % 8 + 1) else k

/-- An RTC operation of port p: a rejected one is RSVD_VALUE. -/
def rtcPort (p : Port) (sel : Nat) (r : RtcHold × Rtc × Bool) (s : State) : State × Nat :=
  if r.2.2 then (s, 5) else (putSel p { s.hp[p].sel with rtc := r.1, rtcsel := sel } { s with rtc := r.2.1 }, 0)

/-- A write of RTCSEL (R288, R292): HOLD acts on its change, or on a repeated 1. -/
def rtcselWrite (p : Port) (v : Nat) (s : State) : State × Nat :=
  if v % 8 = 7 then (s, 5)
  else rtcPort p (v % 8 + bAt (v.testBit 6) 6) (rtcHoldSet (v.testBit 7) s.hp[p].sel.rtc s.rtc) s

/-- A write of RTCVAL (R292). -/
def rtcvalWrite (p : Port) (v : Nat) (s : State) : State × Nat :=
  let k := s.hp[p].sel.rtcsel
  rtcPort p (rtcNext k) (rtcPut (k % 8) v s.hp[p].sel.rtc s.rtc) s

/-! ### Port registers (R279, R290) -/

/-- The per-port state of port p is reset (R279): selects, cursors, held copies, encoder references and locks. -/
def portReset (p : Port) (s : State) : State :=
  let s1 := putSel p (selFresh s) (locksRelease (6 + p.val) s)
  let s2 := { s1 with
    ksc := { s1.ksc with frozen := s1.ksc.frozen.set p {}, enc := s1.ksc.enc.map (fun (x : Encoder) => { x with refH := x.refH.set p 0 }) }
    chs := { s1.chs with held := s1.chs.held.set p [] } }
  -- a count that now differs from the zeroed reference sets HINTS.ENC (R86)
  if domOn s2 5 && domOn s2 7 then encHintP p s2 else s2

/-- A write of HCTL (R279). -/
def hctlWrite (p : Port) (v : Nat) (s : State) : State :=
  let s1 := putPort p { s.hp[p] with hctl := v % 8 } s
  if v.testBit 3 then portReset p s1 else s1

/-! ### The indirect window (R289, R422) -/

/-- The byte addresses of a WINDAT access: 17 bits in SHM, 16 bits elsewhere. -/
def winBytes (q : PortSel) : List Nat :=
  let sp := fld q.winsel 11 10
  let a := if sp = 2 then fld q.winsel 8 8 * 65536 + q.winadr else q.winadr
  if q.winsel.testBit 9 then [a] else [a, (a + 1) % (if sp = 2 then 131072 else 65536)]

/-- The engine that WINSEL names. -/
def winEng (q : PortSel) : Fin 6 := finOf 6 (q.winsel % 8)

/-- The domain of one target byte is off (R289). -/
def winOff (s : State) (q : PortSel) (a : Nat) : Bool :=
  let sp := fld q.winsel 11 10
  let e := winEng q
  if sp = 2 then !domOn s 7
  else if sp = 0 then !domOn s (engDom e.val) || (decide (0x4000 ≤ a) && decide (a < 0x8000) && !domOn s 7)
  else ioOff s e a

/-- The byte lies in the recovery image's range, which no port reaches after the hand-over (R408). -/
def winBarred (s : State) (q : PortSel) (a : Nat) : Bool :=
  let sp := fld q.winsel 11 10
  let b := if sp = 2 then a else if sp = 0 ∧ 0x4000 ≤ a ∧ a < 0x8000 then s.eng[(winEng q)].dsb * 0x4000 + (a - 0x4000) else 0
  s.rst.handed && s.rst.bootstat / 64 = 2 && decide (0x10000 ≤ b)

/-- The checks of a WINDAT access: DOMAIN_OFF 4, WIN_DENIED 9, WIN_FAULT 0xA, 0 when it is performed. -/
def winCheck (s : State) (p : Port) (wr : Bool) : Nat :=
  let q := s.hp[p].sel
  let sp := fld q.winsel 11 10
  let l := winBytes q
  let a := l.headD 0
  if l.any (winOff s q) then 4
  else if !winGranted s p sp (winEng q).val a (a + l.length - 1) wr || l.any (winBarred s q) then 9
  else if (sp = 0 && l.any (fun a => decide (0x8000 ≤ a))) || (sp = 1 && l.any (fun a => decide (0x3800 ≤ a))) then 0x0A
  else 0

/-- One byte read through the window; none where the target's block refuses it; again as in ioGet. -/
def winGet (p : Port) (priv : Bool) (q : PortSel) (a : Nat) (s : State) (again : Bool := false) : Option (State × Nat) :=
  let sp := fld q.winsel 11 10
  let e := winEng q
  if sp = 2 then some (s, shmByte s a)
  else if sp = 0 then
    some (s, if a < 0x4000 then (spGet 0 s.emem[e].dmem a).toNat else shmByte s (s.eng[e].dsb * 0x4000 + (a - 0x4000)))
  else if readRefused s e a then none
  else some (ioGet (.hp p priv) e a s again)

/-- SEQ and SMBus registers refuse a write while they are busy, and set their ERR flag (R224, R259). -/
def winBusy (s : State) (a : Nat) : Bool :=
  ((a = 0x1006 || a = 0x1013) && seqRun s)
  || (0x2400 ≤ a && a < 0x2500 && s.smb[(finOf 4 ((a - 0x2400) / 64))].busy
      && (let o := a % 64; o = 0 || (3 ≤ o && o ≤ 7)))

/-- A write that needs a right only an engine can hold, or that the block refuses (R289, R419). -/
def winRefused (s : State) (p : Port) (priv : Bool) (e : Fin 6) (a v : Nat) : Bool :=
  writeRefused s (.hp p priv) e a v || (0x2800 ≤ a && a < 0x2C00)

/-- One byte written through the window: the new state and its error code; same as in svyWrite. -/
def winPut (p : Port) (priv : Bool) (q : PortSel) (a v : Nat) (s : State) (same : Bool := false) : State × Nat :=
  let sp := fld q.winsel 11 10
  let e := winEng q
  if sp = 2 then (shmPut a v s, 0)
  else if sp = 0 then
    (if a < 0x4000 then
      let m := s.emem[e]
      { s with emem := s.emem.set e { m with dmem := spSet 0 m.dmem a (BitVec.ofNat 8 v) } }
     else shmPut (s.eng[e].dsb * 0x4000 + (a - 0x4000)) v s, 0)
  else
    let b := (ioRegion a).1
    let r := (ioRegion a).2
    if winRefused s p priv e a v then (ioDrop (.hp p priv) e a s, 6)
    else if winBusy s a then (setRegErr r e (a - b) true (ioDrop (.hp p priv) e a s), 6)
    else if a = 0x1820 && v.testBit 0 && (v / 32 % 8 < 6) && (v / 2 % 8 < 6) then (erstWrite false v s, 6)
    else if (ioPut (.hp p priv) e a v (setRegErr r e (a - b) false s)) |> regErr r e (a - b) then
      (setRegErr r e (a - b) true (ioPut (.hp p priv) e a v s), 5)
    else (ioPut (.hp p priv) e a v s same, 0)

/-- WINADR after a performed access (R289). -/
def winNext (p : Port) (s : State) : State :=
  let q := s.hp[p].sel
  if q.winsel.testBit 15 then
    putSel p { q with winadr := (q.winadr + (if q.winsel.testBit 9 then 1 else 2)) % 65536 } s
  else s

/-- A WINDAT read: the value, or an error code; again as in ioGet. -/
def windatRead (p : Port) (priv : Bool) (s : State) (again : Bool := false) : State × Except Nat Nat :=
  let q := s.hp[p].sel
  let c := winCheck s p false
  if c ≠ 0 then (s, .error c)
  else match winBytes q with
    | [a] => match winGet p priv q a s again with
      | none => (s, .error 6)
      | some x => (winNext p x.1, .ok x.2)
    | [a, b] => match winGet p priv q a s again with
      | none => (s, .error 6)
      | some x => match winGet p priv q b x.1 again with
        | none => (s, .error 6)
        | some y => (winNext p y.1, .ok (x.2 + 256 * y.2))
    | _ => (s, .ok 0)

/-- A WINDAT write: its error code. A refused byte leaves nothing written but the block's ERR flag (R272); the bytes that the
port held for the register are gone (R13). same as in svyWrite. -/
def windatWrite (p : Port) (priv : Bool) (v : Nat) (s : State) (same : Bool := false) : State × Nat :=
  let q := s.hp[p].sel
  let c := winCheck s p true
  if c ≠ 0 then (s, c)
  else match winBytes q with
    | [a] =>
      let x := winPut p priv q a (v % 256) s same
      if x.2 = 0 then (winNext p x.1, 0) else x
    | [a, b] =>
      let x := winPut p priv q a (v % 256) s same
      if x.2 ≠ 0 then x
      else
        let y := winPut p priv q b (v / 256 % 256) x.1 same
        if y.2 = 0 then (winNext p y.1, 0)
        else
          let r := (ioRegion b).2
          (setRegErr r (winEng q) (b - (ioRegion b).1) (regErr r (winEng q) (b - (ioRegion b).1) y.1)
            { s with io := { s.io with held := y.1.io.held } }, y.2)
    | _ => (s, 0)

/-- A write of WINSEL (R289): the port's own rejection. -/
def winselWrite (p : Port) (v : Nat) (s : State) : State × Nat :=
  if fld v 11 10 = 3 || (6 ≤ v % 8 && fld v 11 10 ≠ 2) then (s, 5)
  else (putSel p { s.hp[p].sel with winsel := (BitVec.ofNat 16 v &&& 0x8F07#16).toNat } s, 0)

/-! ### The reads (R277) -/

/-- Updates the select registers of port p. -/
def selUpd (p : Port) (f : PortSel → PortSel) (s : State) : State := putSel p (f s.hp[p].sel) s

/-- The value of a register that a host read leaves unchanged. -/
def portView (p : Port) (off : Nat) (s : State) : Nat :=
  let h := s.hp[p]
  let q := h.sel
  if off = 0x00 then 0x4806
  else if off = 0x01 then Config.siliconRev.toNat
  else if off = 0x03 then q.hints.toNat
  else if off = 0x04 then q.hinte.toNat
  else if off = 0x05 then h.hctl
  else if off = 0x06 then q.keysel
  else if off = 0x08 then (if q.keysel.testBit 6 then s.ksc.frozen[p].seq else s.ksc.image.seq).toNat
  else if off = 0x0A then ghostWord s (fld q.keysel 9 8)
  else if off = 0x0C then q.mbsel
  else if off = 0x0D then mbstat s p
  else if off = 0x11 then dbstat s p
  else if off = 0x13 then q.locksel
  else if off = 0x17 then pwrstat s
  else if off = 0x1A then platstat s
  else if off = 0x1B then chgstat s
  else if off = 0x1C then q.chgsel
  else if off = 0x1D then chgvalRead s p
  else if off = 0x1E then q.thermsel
  else if off = 0x1F then thermvalRead s p
  else if off = 0x20 then q.fansel
  else if off = 0x21 then fanvalRead s p
  else if off = 0x23 then litestat s
  else if off = 0x24 then q.fbcur.seq.toNat
  else if off = 0x26 then s.fbk.newest.toNat
  else if off = 0x27 then s.fbk.nonce.toNat
  else if off = 0x29 then s.svy.src * 256 + s.svy.count.toNat
  else if off = 0x2A then q.snapsel
  else if off = 0x2C then agestat s
  else if off = 0x2D then rtcselRead s p
  else if off = 0x37 && s.hsh.testctl.testBit 0 then 65535 - s.hsh.scratch[(7 : Fin 8)]
  else if 0x30 ≤ off ∧ off ≤ 0x37 then s.hsh.scratch[(finOf 8 (off - 0x30))]
  else if off = 0x38 then q.winsel
  else if off = 0x39 then q.winadr
  else if off = 0x3B then s.hsh.testctl
  else 0

/-- A performed read with its side effects: the value, or an error code of priority 6; again as in ioGet. -/
def portGet (p : Port) (priv : Bool) (off : Nat) (s : State) (again : Bool := false) : State × Except Nat Nat :=
  let q := s.hp[p].sel
  let ok (x : State × Nat) : State × Except Nat Nat := (x.1, .ok x.2)
  if off = 0x02 then
    let s1 := putPort p { s.hp[p] with privSeen := priv } s
    (s1, .ok (hstat s1 p))
  else if off = 0x07 then ok (keyRead p false s)
  else if off = 0x09 then ok (keyRead p true s)
  else if off = 0x0B then ok (encPosRead p (finOf 4 (fld q.keysel 11 10)) s)
  else if off = 0x0E then (if mbAccess s p = 0 then ok (mbDataRead p s) else (s, .error (mbAccess s p)))
  else if off = 0x14 then
    let r := lockAcquire (6 + p.val) q.locksel s
    (r.1, .ok (bAt r.2.1 15 + bAt r.2.2.1 14 + r.2.2.2))
  else if off = 0x18 then (selUpd p (fun q => { q with refidx := (q.refidx + 1) % 16 }) s, .ok (refEntry s q.refidx))
  else if off = 0x25 then
    let x := fbWin s q.fbcur
    (selUpd p (fun q => { q with fbcur := x.1 }) s, .ok x.2)
  else if off = 0x2B then
    let w := q.snapsel
    (selUpd p (fun q => { q with snapsel := w - w % 256 + (w + 1) % 256 }) s, .ok (svWord s (w / 256) (w % 256)))
  else if off = 0x2E then
    (selUpd p (fun q => { q with rtcsel := rtcNext q.rtcsel }) s, .ok (rtcField s q.rtc (q.rtcsel % 8)))
  else if off = 0x2F then (putPort p { s.hp[p] with err := {} } s, .ok (errWord s.hp[p].err))
  else if off = 0x3A then windatRead p priv s again
  else (s, .ok (portView p off s))

/-- One host read (R264, R272): the data, or the error response with 0x0000. One that is not served leaves D undriven (R264).
again as in ioGet. -/
def hostRead (p : Port) (priv : Bool) (off : Nat) (s : State) (again : Bool := false) : State :=
  if !portServes s p then dRelease p s else
  let c := portCheck s p priv off false
  if c ≠ 0 then portData p 0 (portErr p c off false s)
  else
    let x := portGet p priv off s again
    match x.2 with
    | .ok v => portData p v x.1
    | .error c => portData p 0 (portErr p c off false x.1)

/-! ### The writes (R277) -/

/-- A write that a block answers with its ERR flag: 5 where the flag would set (R15, R272). -/
def blkPut (b : SBlk) (f : State → State) (s : State) : State × Nat :=
  let rej := (stgOf b (f (putStg b { stgOf b s with err := false } s))).err
  (f s, if rej then 5 else 0)

/-- The write of a register, all checks down to priority 5 done: its error code; same as in svyWrite. -/
def portPut (p : Port) (priv : Bool) (off v : Nat) (s : State) (same : Bool := false) : State × Nat :=
  let q := s.hp[p].sel
  let by_ := 6 + p.val
  let stamp := by_ + (if priv then 2 else 0)
  if off = 0x03 then (selUpd p (fun q => { q with hints := q.hints &&& ~~~(BitVec.ofNat 16 v) }) s, 0)
  else if off = 0x04 then (selUpd p (fun q => { q with hinte := BitVec.ofNat 16 v }) s, 0)
  else if off = 0x05 then (hctlWrite p v s, 0)
  else if off = 0x06 then keyselWrite p v s
  else if off = 0x0C then (mbselWrite p v s, 0)
  else if off = 0x0D then
    let c := q.mbsel % 1024
    (if v.testBit 14 then putChan c { chan s c with coll := false } s else s, 0)
  else if off = 0x0E then (if mbAccess s p = 0 then (mbDataWrite p v s, 0) else (s, mbAccess s p))
  else if off = 0x0F then
    let x := mbSend p priv v s
    (if x.2 = 5 then { x.1 with mbx := { x.1.mbx with err := true } } else x.1, x.2)
  else if off = 0x10 then (if dbRoute s p (v % 64) = 7 then (s, 2) else (ringEngine p (v % 64) s, 0))
  else if off = 0x12 then (dbClrHost p (v.testBit 15) (v % 64) s, 0)
  else if off = 0x13 then (selUpd p (fun q => { q with locksel := v % 32 }) s, 0)
  else if off = 0x15 then (if lockOwner s (v % 32) = some by_ then (lockFree (v % 32) s, 0) else (s, 0x0E))
  else if off = 0x16 then blkPut .dct (dctMode true stamp (v % 4)) s
  else if off = 0x18 then (selUpd p (fun q => { q with refidx := v % 16 }) s, 0)
  else if off = 0x19 then blkPut .seq (seqWrite by_ 0x07 (v % 16)) s
  else if off = 0x1C then chgselWrite p v s
  else if off = 0x1E then thermselWrite p v s
  else if off = 0x1F then thermvalWrite p v s
  else if off = 0x20 then fanselWrite p v s
  else if off = 0x21 then fanvalWrite p v s
  else if off = 0x22 then blkPut .lgt (lgtWrite 0x05 (v % 16)) s
  else if off = 0x24 then (selUpd p (fun q => { q with fbcur := fbMove v }) s, 0)
  else if off = 0x28 then (if v = s.fbk.nonce.toNat then (fbClear stamp s, 0) else (s, 0x0C))
  else if off = 0x29 then (if v.testBit 15 then trigSnap same (2 + p.val) s else s, 0)
  else if off = 0x2A then (selUpd p (fun q => { q with snapsel := v % 65536 }) s, 0)
  else if off = 0x2D then rtcselWrite p v s
  else if off = 0x2E then rtcvalWrite p v s
  else if 0x30 ≤ off ∧ off ≤ 0x37 then
    (recoveryCheck { s with hsh := { s.hsh with scratch := s.hsh.scratch.set (finOf 8 (off - 0x30)) (v % 65536) } }, 0)
  else if off = 0x38 then winselWrite p v s
  else if off = 0x39 then (selUpd p (fun q => { q with winadr := v % 65536 }) s, 0)
  else if off = 0x3A then windatWrite p priv v s same
  else if off = 0x3B then ({ s with hsh := { s.hsh with testctl := v % 4 } }, 0)
  else (s, 0)

/-- The write buffer of a port is free, and RDY is high (R267); a write follows the end of any read (R265). -/
def bufFree (p : Port) (s : State) : State := putPort p { s.hp[p] with rdyLow := false, wbuf := 0, driven := false } s

/-- An access of port p that is checked as a write at a window offset and does f, whose error code it answers (R272, R273). The
write has left the buffer: RDY is high again where it had been occupied (R267). -/
def hostTry (p : Port) (priv : Bool) (off : Nat) (f : State → State × Nat) (s : State) : State :=
  if !portServes s p then s else
  let c := portCheck s p priv off true
  let s0 := bufFree p s
  if c ≠ 0 then portErr p c off true s0
  else
    let x := f s0
    if x.2 = 0 then x.1 else portErr p x.2 off true x.1

/-- One host write (R266, R272); same as in svyWrite. -/
def hostWrite (p : Port) (priv : Bool) (off v : Nat) (s : State) (same : Bool := false) : State :=
  hostTry p priv off (fun s => portPut p priv off v s same) s

/-- The refusal of a release that finds a message stored on the same edge: MB_STATE, and the message stays (R305). -/
def mbReleaseSent (p : Port) (s : State) : State × Nat := (s, if mbAccess s p = 0 then 0x0D else mbAccess s p)

/-- WRITE_OVERRUN and STROBE_CONFLICT: an access that is answered before any other check, with the drivers off (R267, R269). -/
def hostTurned (p : Port) (code off : Nat) (wr : Bool) (s : State) : State :=
  if portServes s p then portErr p code off wr (dRelease p s) else s

/-! ### Port pins (R262, R263, R267) -/

/-- PORT_POWERED at 1.8 V or 3.3 V (R262); on a powered port its VIO crosses the level detection (R505); DCT powers D7 for it in WATCH (R438), and in SHIP D7 has its
regulator while a port is powered (R32, R435). -/
def portPower (p : Port) (v18 : Bool) (s : State) : State :=
  let h := s.hp[p]
  let s1 := putPort p { h with powered := true, vio18 := v18 } s
  if h.powered then s1
  else
    let s2 := if s1.rst.recovery then recoveryGrant p s1 else s1
    if s2.dct.mode = .ship && s2.rst.active = 0 then domUp 7 s2 else if s2.rst.active = 0 then d7Wanted s2 else s2

/-- PORT_UNPOWERED (R262): the per-port state is reset; in SHIP D7 goes off with the last powered port (R32). -/
def portUnpower (p : Port) (s : State) : State :=
  let h := s.hp[p]
  if !h.powered then s
  else
    let s1 := portReset p (putPort p { h with powered := false, vio18 := false, cs := false, driven := false, rdyLow := false, wbuf := 0 } s)
    if s1.dct.mode = .ship && !portUp s1 then putDct { s1.dct with on := 0 } s1 else s1

/-- CHIP_SELECT_CHANGE (R263): a powered port drives RDY while CS_N is low; the level of RDY and the drivers of D do not follow
CS_N (R265, R267). -/
def chipSelect (p : Port) (low : Bool) (s : State) : State :=
  let h := s.hp[p]
  if h.powered then putPort p { h with cs := low } s else s

/-- WRITE_STROBE_FALLING (R267): RDY goes low while the write buffer is occupied; it frees `left` CK later, or with the WINDAT
write that occupies it, whose command stands on the edge on which it completes (R266). -/
def writeStrobe (p : Port) (left : Nat) (s : State) : State :=
  let h := s.hp[p]
  if portServes s p then putPort p { h with rdyLow := left ≠ 0, wbuf := left } s else s

/-- One CK of the write buffers: RDY goes high on the edge on which a buffer frees (R267). -/
def bufTick (h : HPort) : HPort := { h with wbuf := h.wbuf - 1, rdyLow := h.rdyLow && h.wbuf ≠ 1 }

end Sys2Proof.Machine
end

