-- ==== Sys2Proof/Machine/Access.lean ====
section
/-! DEFINITION. What the commands share: whether CK runs, a command's access through its master, and the accesses that keep
the other bits of a control register (00 R13, R34; 12 R401, R402; 13 R435). -/

namespace Sys2Proof.Machine

/-- CK runs, no reset source holds the device and D0 is up (R401, R403, R435). -/
def ckRuns (s : State) : Bool := s.rst.active = 0 && decide (2 ≤ s.rst.step) && s.dct.mode ≠ .ship

/-- An event of D0, which nothing sees while CK is stopped. -/
def whenCk (f : State → State) (s : State) : State := if ckRuns s then f s else s

/-- A write by a master: an engine to n bytes at an I/O address, a port to a window offset; same as in svyWrite. -/
def mstWrite (m : Mst) (a n v off w : Nat) (s : State) (same : Bool := false) : State :=
  match m with
  | .ce e => engWrite e a n v s same
  | .hp p priv => hostWrite p priv off w s same

/-- A read by a master; again as in ioGet. -/
def mstRead (m : Mst) (a n off : Nat) (s : State) (again : Bool := false) : State :=
  match m with
  | .ce e => engRead e a n s again
  | .hp p priv => hostRead p priv off s again

/-- An access to an indirect data register: a write of a value, or a read; again as in ioGet. -/
def engAccess (e : Eng) (a n : Nat) (w : Option Nat) (s : State) (again : Bool := false) : State :=
  match w with
  | some v => engWrite e a n v s
  | none => engRead e a n s again

/-- An access of a port to a register: a write of a value, or a read. -/
def hostAccess (p : Port) (priv : Bool) (off : Nat) (w : Option Nat) (s : State) : State :=
  match w with
  | some v => hostWrite p priv off v s
  | none => hostRead p priv off s

/-- The I/O base of a block with staged fields (R22). -/
def blkBase (b : SBlk) : Nat :=
  match b with
  | .ksc => 0x400 | .lgt => 0x800 | .chg => 0xC00 | .seq => 0x1000 | .tha => 0x1400 | .dct => 0x1800 | .bmk => 0x2000
  | .cpy => 0x3000

/-- KCTL as it stands, without its action bit (R92). -/
def kctlNow (s : State) : Nat := bAt s.ksc.scanen 0 + bAt s.ksc.viewlive 2

/-- LCTL as it stands (R139). -/
def lctlNow (s : State) : Nat := bAt s.lgt.run 0 + bAt s.lgt.blanked 1 + bAt s.lgt.copyback 2

/-- SOUNDING_PERIOD_EXPIRY: the period of automatic runs has passed in RUN (R58). -/
def soundingDue (s : State) : State :=
  if domOn s 5 && s.dct.mode = .run && kscLive s 0x18 ≠ 0 && s.ksc.run = none then { s with ksc := { s.ksc with sndReq := true } }
  else s

/-- A lighting-chain pin event: the pins are inactive while bank M has no supply (R483). -/
def chainPin (f : State → State) (s : State) : State := if s.gpio.viom then f s else s

/-- The chain commands that have a code (R133). -/
def chainCodes : List Nat := [0x00, 0x10, 0x11, 0x20, 0x21, 0x22, 0x30, 0x40]

/-- CHAIN START: the start-up set is staged and committed, LCTL.RUN sets and the frames start unblanked (R133). -/
def chainStart (arg : Nat) (s : State) : State :=
  let s1 := commit .lgt { s with lgt := { s.lgt with cfg := { s.lgt.cfg with stg := chainStartSet arg, dirty := true } } }
  let q := s1.lgt
  let start := !q.running && lgtRole s1 ≠ 2
  { s1 with lgt := { q with run := true, running := q.running || start, atB := if start then true else q.atB, unblankReq := true } }

/-- The byte at an offset of LGT, without side effects (R133 READ). -/
def lgtByte (off : Nat) (s : State) : Nat :=
  let x := spanAt 3 off s
  let v := if x.lo = 0 then bstat (stgOf .lgt s) else if x.lo = 2 then (stgOf .lgt s).chk
    else if stgMask .lgt x.lo ≠ 0 then stgView .lgt x.lo s else if x.lo = 0xA3 then lixEntry s else lgtView x.lo s
  byteOf v (off - x.lo)

/-- An access of a master that is checked as a write and does f in its place, with the error code that a port answers: an engine
at I/O address a with value v, a port at a window offset. -/
def mstAct (m : Mst) (a v off : Nat) (f : State → State × Nat) (s : State) : State :=
  match m with
  | .ce e => engAct e a v (fun s => (f s).1) s
  | .hp p priv => hostTry p priv off f s

/-- A platform request of a source (R216 to R220). Of the requests that are registered on one edge only the newest takes effect:
one to which `newer` says that a newer one is registered there leaves the checks of its access and its own record (R215). -/
def platAsk (src : PlatSrc) (tgt : Nat) (newer : Bool) (s : State) : State :=
  let ask (c : Nat) (s : State) : State := seqAsk newer { tgt := tgt, src := c } s
  match src with
  | .mst m =>
    if newer && seqCode tgt then mstAct m 0x1007 tgt 0x19 (fun s => (ask (mstCode m) s, 0)) s else mstWrite m 0x1007 1 tgt 0x19 tgt s
  | .wake => ask 8 s
  | .lid => ask 9 s
  | .press => ask 0xA s
  | .long => ask 0xB s
  | .key => ask 0xD s

/-- A mode request by a register write; one to which a newer request is registered on the same edge has no effect and leaves no
record (R427). -/
def modeAsk (m : Mst) (tgt : Nat) (newer : Bool) (s : State) : State :=
  if newer then mstAct m 0x1804 tgt 0x16 (fun s => (s, 0)) s else mstWrite m 0x1804 1 tgt 0x16 tgt s

/-- SNAPSHOT_TRIGGER by a master, alone or (same) on the latch edge of the trigger before it (R461). -/
def snapAsk (m : Mst) (same : Bool) (s : State) : State := mstWrite m 0x1E04 1 1 0x29 0x8000 s same

/-- FIELD_BOOK_CLEAR by a master, alone or (same) as the later of two clears on one edge (R293, R459). -/
def bookClearAsk (m : Mst) (v : Nat) (same : Bool) (s : State) : State :=
  if !same then mstWrite m 0x1C28 2 v 0x28 v s
  else mstAct m 0x1C29 (v / 256 % 256) 0x28 (fun s =>
    if v = s.fbk.nonce.toNat then (clearBook true (mstStamp m) s, 0)
    else match m with
      | .ce _ => ({ s with fbk := { s.fbk with stNonce := true } }, 0)
      | .hp _ _ => (s, 0x0C)) s

/-- MAILBOX_RELEASE; sent says that a send has stored its message on the same edge (R305). -/
def hostRelease (p : Port) (priv sent : Bool) (s : State) : State :=
  if sent then hostTry p priv 0x0F (mbReleaseSent p) s else hostWrite p priv 0x0F 0x8000 s

/-- ENGINE_RELEASE; sent as for MAILBOX_RELEASE (R305). -/
def engReleaseAsk (e : Eng) (sent : Bool) (s : State) : State :=
  if sent then engAct e 0x10B 0x40 (engReleaseSent e) s else engWrite e 0x10B 1 0x40 s

/-- The lock that a master's acquire names (R309). -/
def lockNamed (s : State) (m : Mst) : Nat :=
  match m with
  | .ce e => s.lck.lksel[e]
  | .hp p _ => s.hp[p].sel.locksel

/-- The acquire of a master passes the checks that come before the lock (R273, R320). -/
def lockReaches (s : State) (m : Mst) : Bool :=
  match m with
  | .ce e => engRuns s e && !ioDenied s e 0x305 false && !ioOff s e 0x305
  | .hp p priv => portServes s p && portCheck s p priv 0x14 false = 0

/-- The contention for each lock among the masters that reach the lock unit on one edge (R309); a lock that has gone to its winner
is decided. -/
def lockArbitrate (who : List Mst) (s : State) : State :=
  who.foldl (fun t n =>
    let ms := who.filter (fun k => lockNamed s k = lockNamed s n)
    if 2 ≤ ms.length then lockContend (ms.map mstCode) (lockNamed s n) t else t) s

/-- A read of LOCK or LKACQ by masters that acquire on one edge (R309): those that reach the lock unit contend, each for the lock
that it names; then every read answers. -/
def lockRead (m : Mst) (others : List Mst) (s : State) : State :=
  let who := (m :: others).filter (lockReaches s)
  (m :: others).foldl (fun s n => mstRead n 0x305 1 0x14 s) (lockArbitrate who s)

/-- VT_WRITE: an engine writes TVTn; a port writes THERMVAL while THERMSEL names the value of VT n (R234, R249). -/
def vtPut (m : Mst) (n : Fin 4) (v : Nat) (s : State) : State :=
  match m with
  | .ce e => engWrite e (0x1414 + 2 * n.val) 2 v s
  | .hp p priv => if s.hp[p].sel.thermsel = 25 + n.val then hostWrite p priv 0x1F v s else s

/-- TRACT_CLEAR: ins are the inputs that the analog comparators have seen on each of the last TRN CK (R240). -/
def tractPut (e : Eng) (mask : Nat) (ins : Vector Int 4) (s : State) : State :=
  if engRuns s e then engWrite e 0x1409 1 mask { s with tha := { s.tha with anaIn := ins } } else s

/-- OVP_CLEAR: the cells are what they measure at the write (R167). -/
def ovpPut (e : Eng) (cells : Vector Int 5) (s : State) : State :=
  if engRuns s e then engWrite e 0xC07 2 0x1 (cellsNow cells s) else s

/-- RTC_HOLD and RTC_LOAD: a write of HOLD that keeps the other bits (R292). -/
def rtcHoldPut (m : Mst) (b : Bool) (s : State) : State :=
  match m with
  | .ce e => engWrite e 0x2C08 1 (bAt b 0) s
  | .hp p priv => hostWrite p priv 0x2D (s.hp[p].sel.rtcsel % 128 + bAt b 7) s

/-- RTC_WRITE: an engine writes a field; a port writes RTCVAL while RTCSEL names the field (R292, R501). -/
def rtcFieldPut (m : Mst) (n : Fin 7) (v : Nat) (s : State) : State :=
  match m with
  | .ce e => engWrite e (0x2C09 + n.val) 1 v s
  | .hp p priv => if s.hp[p].sel.rtcsel % 8 = n.val then hostWrite p priv 0x2E v s else s

/-- The RTC counts: not in SHIP and not while POR or SHIPWAKE holds it (R292, R401). -/
def rtcSecond (s : State) : State :=
  if s.dct.mode ≠ .ship && !s.rst.active.testBit 0 && !s.rst.active.testBit 1 then rtcTick s else s

/-- GPIO_INPUT_CHANGE: the pins' levels are the board's; GPIS follows only while CK runs (R500). -/
def gpioChange (v : BitVec 4) (s : State) : State :=
  if ckRuns s then gpioPins v s else { s with gpio := { s.gpio with pin := v.toNat } }

/-- BANK_SUPPLY_CHANGE: GPIS follows only while CK runs (R483). -/
def supplyChange (b : Fin 6) (up : Bool) (s : State) : State :=
  let s1 := bankSupply b up s
  if ckRuns s then s1 else { s1 with gpio := { s1.gpio with is_ := s.gpio.is_ } }

/-- TEST_PORT_CLOCK: the test access port advances while CK runs, bank M has its supply and TRST_N does not hold it in reset (R30,
R483, R490). -/
def tapClock (tms : Bool) (ir : TapIr) (s : State) : State :=
  if ckRuns s && s.gpio.viom && !s.trst then { s with tap := tapStep s tms ir } else s

/-- TEST_PORT_RESET: TRST_N takes a level; while it is low it holds the test port in reset (R490). Without its bank supply it reads
inactive (R483). -/
def tapReset (low : Bool) (s : State) : State :=
  { s with trst := low, tap := if low && s.gpio.viom then {} else s.tap }

end Sys2Proof.Machine
end

