-- ==== Sys2Proof/Machine/Clock.lean ====
section
/-! DEFINITION. One CK: what the block's own counters do while no command waits (12 R397, R405; 09 R343, R347; 14 R447). -/

namespace Sys2Proof.Machine

/-- A crystal period ends with this CK: every CK on the crystal, every tenth on the PLL (R396, R399). -/
def xtalEdge (c : Clk) : Bool := !c.ckPll || c.sub = 9

/-- The count of CK within a crystal period, and TIME (R447). -/
def clkTick (c : Clk) : Clk :=
  if xtalEdge c then { c with sub := 0, time := c.time + 1 } else { c with sub := c.sub + 1 }

/-- The engines of the domains that are on count one CK. -/
def engsTick (s : State) : Vector Ceng 6 :=
  Vector.ofFn (fun (n : Fin 6) => if domOn s (engDom n.val) then engTick (xtalEdge s.clk) s.eng[n] else s.eng[n])

/-- The stop of engine e that waits for an edge, with no instruction completing on it (R343). -/
def kickTick (s : State) (e : Fin 6) : State :=
  if domOn s (engDom e.val) && s.eng[e].badKick then stopOnEdge (kickStop e s.eng[e].pc) s else s

/-- The stops that wait for an edge; those of one edge make one snapshot, and no trigger before this CK is of their edge (R461). -/
def kicksTick (s : State) : State := (List.finRange 6).foldl kickTick { s with svy := { s.svy with fresh := false } }

/-- One CK (DESIGN CHOICE, log entry 1). Between steps 1 and 2 of the reset sequence the crystal alone counts (R403, R447). -/
def ckTick (s : State) : State :=
  if ckRuns s then kicksTick { s with clk := clkTick s.clk, eng := engsTick s, hp := s.hp.map bufTick }
  else if s.rst.active = 0 && s.rst.step = 1 then { s with clk := clkTick s.clk }
  else s

end Sys2Proof.Machine
end

