-- ==== Sys2Proof/Machine/CmdBmk.lean ====
section
/-! DEFINITION. The meanings of the commands of the benchmark block: one definition per command, over the shared operations. -/

namespace Sys2Proof.Machine

/-- PLAN_STEP_UP (R471). PLREQ with DIR up raises an item's step by one, or is refused with a code. -/
def execPlanStepUp (e : Eng) (n : BitVec 4) (s : State) : Host.Outcome State Fault Refusal :=
  .next (engWrite e 0x2008 1 (16 * n.toNat + 1) s)

/-- PLAN_STEP_DOWN (R471). PLREQ with DIR down lowers an item's step by one, or is refused with a code. -/
def execPlanStepDown (e : Eng) (n : BitVec 4) (s : State) : Host.Outcome State Fault Refusal :=
  .next (engWrite e 0x2008 1 (16 * n.toNat + 2) s)

/-- RESTORE_CLOSE (R472). A write of BCTL.CLOSE closes the restore window. -/
def execRestoreClose (e : Eng) (s : State) : Host.Outcome State Fault Refusal :=
  .next (engWrite e 0x2004 1 (b2n s.bmk.monen + 2) s)

/-- BBOUND_WRITE (R474). A write of BBOUND sets or clears bound bits, and a 0-to-1 change logs BOUND_LOST. -/
def execBboundWrite (e : Eng) (v : Byte) (s : State) : Host.Outcome State Fault Refusal :=
  .next (engWrite e 0x200C 1 v.toNat s)

/-- MONITOR_UPDATE (R467). Every 1 ms, BMK updates SLACK, VCOREM and TJB. -/
def execMonitorUpdate (slack : Vector Half 4) (mv : Half) (t : Half) (s : State) : Host.Outcome State Fault Refusal
    :=
  .next (bmkMonitor slack mv t s)

/-- STRESS_UPDATE (R467). Every minute while D2 is on, STRESS accrues and the PLAGE counts advance. Operand: how
many ms of the minute the device was in RUN, where its mode has changed in it (R468). -/
def execStressUpdate (s : State) (run : Option (Fin 60001) := none) : Host.Outcome State Fault Refusal :=
  .next (bmkMinute (run.map Fin.val) s)

/-- RUNH_UPDATE (R467). Every hour of RUN time, RUNH increments. -/
def execRunhUpdate (s : State) : Host.Outcome State Fault Refusal :=
  .next (bmkHour s)

end Sys2Proof.Machine
end

