-- ==== Sys2Proof/Machine/CmdBoard.lean ====
section
/-! DEFINITION. The meanings of the commands of the RTC, GPIO, bank supplies and the test port: one definition per command, over the shared operations. -/

namespace Sys2Proof.Machine

/-- RTC_HOLD (R292). A write of HOLD = 1 copies the seven RTC fields into the writer's held copy. -/
def execRtcHold (m : Mst) (s : State) : Host.Outcome State Fault Refusal :=
  .next (rtcHoldPut m true s)

/-- RTC_LOAD (R292). A write of HOLD = 0 loads a written held copy into the RTC and restarts the sub-second count. -/
def execRtcLoad (m : Mst) (s : State) : Host.Outcome State Fault Refusal :=
  .next (rtcHoldPut m false s)

/-- RTC_WRITE (R292). An RTCVAL or ERTC write sets a field of the held copy or of the running RTC. -/
def execRtcWrite (m : Mst) (n : Fin 7) (v : Byte) (s : State) : Host.Outcome State Fault Refusal :=
  .next (rtcFieldPut m n v.toNat s)

/-- RTC_TICK (R292). Each second counted from the 24 MHz crystal, the RTC advances its seconds and carries into
minutes, hours, day, month and year, with day of week wrapping at midnight. -/
def execRtcTick (s : State) : Host.Outcome State Fault Refusal :=
  .next (rtcSecond s)

/-- GPIO_INPUT_CHANGE (R500). A synchronised GPIO input changes, and its GPIS bit sets. -/
def execGpioInputChange (v : BitVec 4) (s : State) : Host.Outcome State Fault Refusal :=
  .next (gpioChange v s)

/-- BANK_SUPPLY_CHANGE (R483). A bank supply crosses its detection threshold; its outputs float and its inputs read
inactive, or recover. -/
def execBankSupplyChange (b : Fin 6) (up : Bool) (s : State) : Host.Outcome State Fault Refusal :=
  .next (supplyChange b up s)

/-- TEST_PORT_CLOCK (R30). The IEEE 1149.1 test access port advances on each CK edge on which a rising TCK edge is
detected. Operand: the instruction whose code the instruction register has been given, for an edge that enters Update-IR (R290). -/
def execTestPortClock (tms : Bool) (_tdi : Bool) (s : State) (ir : TapIr := .bypass) : Host.Outcome State Fault Refusal :=
  .next (tapClock tms ir s)

/-- TEST_PORT_RESET (R490). TRST_N held low holds the test port in reset. Operand: the pin is low. -/
def execTestPortReset (s : State) (low : Bool := true) : Host.Outcome State Fault Refusal :=
  .next (tapReset low s)

end Sys2Proof.Machine
end

