-- ==== Sys2Proof/Machine/CmdBook.lean ====
section
/-! DEFINITION. The meanings of the commands of the Field Book and the Survey: one definition per command, over the shared operations. -/

namespace Sys2Proof.Machine

/-- FBWIN_READ (R285). A host FBWIN read returns the next word of the record under the cursor, latching at word 0. -/
def execFbwinRead (p : Port) (priv : Bool) (s : State) : Host.Outcome State Fault Refusal :=
  .next (hostRead p priv 0x25 s)

/-- FEWIN_READ (R456). An engine FEWIN read returns the next byte of the record under FECUR, latching at byte 0.
Operand: whether another master has read it on the same edge before (R38). -/
def execFewinRead (e : Eng) (s : State) (again : Bool := false) : Host.Outcome State Fault Refusal :=
  .next (engRead e 0x1C10 1 s again)

/-- FIELD_BOOK_CLEAR (R458). A valid FBCLR or FECLR write clears every earlier record and enters a CLEARED record.
Operand: whether this is the later of two clears on one edge (R459). -/
def execFieldBookClear (m : Mst) (v : Half) (s : State) (same : Bool := false) : Host.Outcome State Fault Refusal :=
  .next (bookClearAsk m v.toNat same s)

/-- FIELD_BOOK_RECORD (R450). A record from a block's fault line enters the RAM ring with the next SEQ, or is
discarded if the ring is full. Operand: whether the selected record that it enters is registered on the edge of the
trigger before it (R461). -/
def execFieldBookRecord (src : Byte) (typ : Byte) (pay : List Half) (s : State) (same : Bool := false) : Host.Outcome
    State Fault Refusal :=
  .next (whenCk (onEdge same (bookRec src.toNat typ.toNat (pay.map BitVec.toNat))) s)

/-- WRITE_THROUGH (R451). A ring record is written to the NVM and verified in 16 CK, or retried, logging NVM_FAULT on
failure. Operands: whether each attempt verifies, and whether the clear floor is written. -/
def execWriteThrough (ok1 : Bool) (ok2 : Bool) (s : State) (floor : Bool := true) : Host.Outcome State Fault Refusal
    :=
  .next (whenCk (fbWriteThrough ok1 ok2 floor) s)

/-- OVERFLOW (R452). On the first edge with a ring slot free after discards, FBK enters an OVERFLOW record. -/
def execFbkOverflow (s : State) : Host.Outcome State Fault Refusal :=
  .next (whenCk fbOverflow s)

/-- FIRMWARE_RECORD (R457). A write of 0xA7 to FERGO makes a firmware record from FERTYPE and FERBUF. -/
def execFirmwareRecord (e : Eng) (s : State) : Host.Outcome State Fault Refusal :=
  .next (engWrite e 0x1C27 1 0xA7 s)

/-- SNAPSHOT_TRIGGER (R461). An internal trigger from SNAPCTL.TRIG, SVTRIG or a selected fault record latches a
snapshot 1 CK later. Operand: whether it latches on the edge of the trigger before it (R461). -/
def execSnapshotTrigger (m : Mst) (s : State) (same : Bool := false) : Host.Outcome State Fault Refusal :=
  .next (snapAsk m same s)

/-- SNAP_PIN (R461). A rising edge of SNAP latches a snapshot 3 CK after first-stage capture. Operand: whether it
latches on the edge of the trigger before it (R461). -/
def execSnapPin (s : State) (same : Bool := false) : Host.Outcome State Fault Refusal :=
  .next (whenCk (fun s => if s.gpio.viom then trigSnap same 1 s else s) s)

/-- SVREL (R463). A write of 1 to SVREL clears HELD. -/
def execSvrel (e : Eng) (s : State) : Host.Outcome State Fault Refusal :=
  .next (engWrite e 0x1E03 1 1 s)

/-- SNAPWIN_READ (R287). A host SNAPWIN read returns a snapshot word and advances WORD. -/
def execSnapwinRead (p : Port) (priv : Bool) (s : State) : Host.Outcome State Fault Refusal :=
  .next (hostRead p priv 0x2B s)

/-- SVDAT_READ (R466). An engine SVDAT read returns a snapshot word, latching on the low byte and advancing on the
high byte. Operand: whether another master has read it on the same edge before (R38). -/
def execSvdatRead (e : Eng) (s : State) (again : Bool := false) : Host.Outcome State Fault Refusal :=
  .next (engRead e 0x1E0C 2 s again)

/-- SVMISS_READ (R466). A read of SVMISS returns the count of ignored triggers and clears it. Operand: whether
another master has read it on the same edge before (R38). -/
def execSvmissRead (e : Eng) (s : State) (again : Bool := false) : Host.Outcome State Fault Refusal :=
  .next (engRead e 0x1E09 1 s again)

end Sys2Proof.Machine
end

