-- ==== Sys2Proof/Machine/CmdBoot.lean ====
section
/-! DEFINITION. The meanings of the commands of engine resets, the boot, PRT and the flash: one definition per command, over the shared operations. -/

namespace Sys2Proof.Machine

/-- ERST (R388). A write of ERST by an engine with the remap right resets an engine, holding it or starting its
loader. -/
def execErst (e : Eng) (v : Byte) (s : State) : Host.Outcome State Fault Refusal :=
  .next (engWrite e 0x1820 1 v.toNat s)

/-- ROLE_LOAD_COMPLETE (R388). The reset loader finishes copying and checking a role, and starts it or logs
ROLE_LOAD_FAIL. -/
def execRoleLoadComplete (e : Eng) (s : State) : Host.Outcome State Fault Refusal :=
  .next (roleLoad e s)

/-- DEVICE_BOOT (R412). CE0's ROM chooses and checks a slot, loads role 0, applies PRT and hands over. -/
def execDeviceBoot (s : State) : Host.Outcome State Fault Refusal :=
  .next (deviceBoot s)

/-- RECOVERY_CHECK (R414). A write of SCRATCH0 = 0x4B5A in the recovery wait makes the ROM check and boot the SHM
container. -/
def execRecoveryCheck (p : Port) (priv : Bool) (s : State) : Host.Outcome State Fault Refusal :=
  .next (hostWrite p priv 0x30 0x4B5A s)

/-- PRTSEAL (R421). A write of 0x5E to PRTSEAL by CE0 in ROM seals PRT, sets BOOTED and logs BOOT. -/
def execPrtseal (s : State) : Host.Outcome State Fault Refusal :=
  .next (engWrite 0 0x2801 1 0x5E s)

/-- PRTIXDAT_ACCESS (R419). A PRTIXDAT access reads or writes a channel-ownership or doorbell-route entry and
advances PRTIXIDX. Operand: whether another master has read it on the same edge before (R38). -/
def execPrtixdatAccess (e : Eng) (w : Option Byte) (s : State) (again : Bool := false) : Host.Outcome State Fault Refusal :=
  .next (engAccess e 0x28A3 1 (w.map BitVec.toNat) s again)

/-- FLASH_ERASE (R415). FLCMD 0x1 erases a 4 KiB sector, unless refused. -/
def execFlashErase (e : Eng) (s : State) : Host.Outcome State Fault Refusal :=
  .next (engWrite e 0x2C85 1 1 s)

/-- FLASH_PROGRAM (R415). FLCMD 0x2 programs the page buffer into a 64-byte page, unless refused. -/
def execFlashProgram (e : Eng) (s : State) : Host.Outcome State Fault Refusal :=
  .next (engWrite e 0x2C85 1 2 s)

/-- SVN_ADVANCE (R415). FLCMD 0x3 advances the OTP security version upward, unless refused. -/
def execSvnAdvance (e : Eng) (s : State) : Host.Outcome State Fault Refusal :=
  .next (engWrite e 0x2C85 1 3 s)

/-- FLASH_COMMAND_DONE (R415). A flash erase, program or SVN advance completes; BUSY clears and FAIL may set. -/
def execFlashCommandDone (ok : Bool) (s : State) : Host.Outcome State Fault Refusal :=
  .next (whenCk (flashDone ok) s)

/-- FLDAT_ACCESS (R415). An FLDAT access reads a flash byte or fills a page-buffer byte, and advances ADDR. Operand:
whether another master has read it on the same edge before (R38). -/
def execFldatAccess (e : Eng) (w : Option Byte) (s : State) (again : Bool := false) : Host.Outcome State Fault Refusal :=
  .next (engAccess e 0x2C84 1 (w.map BitVec.toNat) s again)

end Sys2Proof.Machine
end

