-- ==== Sys2Proof/Machine/CmdCerxa.lean ====
section
/-! DEFINITION. The meanings of the commands of the Cerxa instructions: one definition per command, over the shared operations. -/

namespace Sys2Proof.Machine

/-- CALL and CALLR write A + 2 to LNK (R359). -/
def setLnk (q : Ceng) : Ceng := { q with lnk := (q.pc + 2) % 65536 }

/-- NOP (R352). Instruction 0x00 does nothing. -/
def execCxNop (e : Eng) (s : State) : Host.Outcome State Fault Refusal :=
  .next (issueReg e id s)

/-- ADD (R353). Instruction 0x01 adds two registers. -/
def execCxAdd (e : Eng) (d : Fin 16) (a : Fin 16) (b : Fin 16) (s : State) : Host.Outcome State Fault Refusal :=
  .next (issueAlu e d (fun g => AluOp.add.eval (g a) (g b)) s)

/-- SUB (R353). Instruction 0x02 subtracts two registers. -/
def execCxSub (e : Eng) (d : Fin 16) (a : Fin 16) (b : Fin 16) (s : State) : Host.Outcome State Fault Refusal :=
  .next (issueAlu e d (fun g => AluOp.sub.eval (g a) (g b)) s)

/-- ADDC (R353). Instruction 0x03 adds two registers and a carry in. -/
def execCxAddc (e : Eng) (d : Fin 16) (a : Fin 16) (b : Fin 16) (x : Fin 16) (s : State) : Host.Outcome State Fault
    Refusal :=
  .next (issueAlu e d (fun g => CinOp.addc.eval (g a) (g b) (g x)) s)

/-- SUBC (R353). Instruction 0x04 subtracts with a borrow in. -/
def execCxSubc (e : Eng) (d : Fin 16) (a : Fin 16) (b : Fin 16) (x : Fin 16) (s : State) : Host.Outcome State Fault
    Refusal :=
  .next (issueAlu e d (fun g => CinOp.subc.eval (g a) (g b) (g x)) s)

/-- CARRY (R353). Instruction 0x05 gives the carry of an addition. -/
def execCxCarry (e : Eng) (d : Fin 16) (a : Fin 16) (b : Fin 16) (s : State) : Host.Outcome State Fault Refusal :=
  .next (issueAlu e d (fun g => AluOp.carry.eval (g a) (g b)) s)

/-- CARRYC (R353). Instruction 0x06 gives the carry of an addition with carry in. -/
def execCxCarryc (e : Eng) (d : Fin 16) (a : Fin 16) (b : Fin 16) (x : Fin 16) (s : State) : Host.Outcome State Fault
    Refusal :=
  .next (issueAlu e d (fun g => CinOp.carryc.eval (g a) (g b) (g x)) s)

/-- BORROW (R353). Instruction 0x07 gives the borrow of a subtraction. -/
def execCxBorrow (e : Eng) (d : Fin 16) (a : Fin 16) (b : Fin 16) (s : State) : Host.Outcome State Fault Refusal :=
  .next (issueAlu e d (fun g => AluOp.borrow.eval (g a) (g b)) s)

/-- BORROWC (R353). Instruction 0x08 gives the borrow of a subtraction with borrow in. -/
def execCxBorrowc (e : Eng) (d : Fin 16) (a : Fin 16) (b : Fin 16) (x : Fin 16) (s : State) : Host.Outcome State
    Fault Refusal :=
  .next (issueAlu e d (fun g => CinOp.borrowc.eval (g a) (g b) (g x)) s)

/-- AND (R352). Instruction 0x09 gives the bitwise AND. -/
def execCxAnd (e : Eng) (d : Fin 16) (a : Fin 16) (b : Fin 16) (s : State) : Host.Outcome State Fault Refusal :=
  .next (issueAlu e d (fun g => AluOp.and.eval (g a) (g b)) s)

/-- OR (R352). Instruction 0x0A gives the bitwise OR. -/
def execCxOr (e : Eng) (d : Fin 16) (a : Fin 16) (b : Fin 16) (s : State) : Host.Outcome State Fault Refusal :=
  .next (issueAlu e d (fun g => AluOp.or.eval (g a) (g b)) s)

/-- XOR (R352). Instruction 0x0B gives the bitwise XOR. -/
def execCxXor (e : Eng) (d : Fin 16) (a : Fin 16) (b : Fin 16) (s : State) : Host.Outcome State Fault Refusal :=
  .next (issueAlu e d (fun g => AluOp.xor.eval (g a) (g b)) s)

/-- SHL (R354). Instruction 0x0C shifts left by a register count. -/
def execCxShl (e : Eng) (d : Fin 16) (a : Fin 16) (b : Fin 16) (s : State) : Host.Outcome State Fault Refusal :=
  .next (issueAlu e d (fun g => AluOp.shl.eval (g a) (g b)) s)

/-- SHR (R354). Instruction 0x0D shifts right logically by a register count. -/
def execCxShr (e : Eng) (d : Fin 16) (a : Fin 16) (b : Fin 16) (s : State) : Host.Outcome State Fault Refusal :=
  .next (issueAlu e d (fun g => AluOp.shr.eval (g a) (g b)) s)

/-- SAR (R354). Instruction 0x0E shifts right arithmetically by a register count. -/
def execCxSar (e : Eng) (d : Fin 16) (a : Fin 16) (b : Fin 16) (s : State) : Host.Outcome State Fault Refusal :=
  .next (issueAlu e d (fun g => AluOp.sar.eval (g a) (g b)) s)

/-- MULL (R354). Instruction 0x0F gives the low byte of an unsigned product. -/
def execCxMull (e : Eng) (d : Fin 16) (a : Fin 16) (b : Fin 16) (s : State) : Host.Outcome State Fault Refusal :=
  .next (issueAlu e d (fun g => AluOp.mull.eval (g a) (g b)) s)

/-- MULH (R354). Instruction 0x10 gives the high byte of an unsigned product. -/
def execCxMulh (e : Eng) (d : Fin 16) (a : Fin 16) (b : Fin 16) (s : State) : Host.Outcome State Fault Refusal :=
  .next (issueAlu e d (fun g => AluOp.mulh.eval (g a) (g b)) s)

/-- SEQ (R352). Instruction 0x11 sets a register to 1 if two registers are equal. -/
def execCxSeq (e : Eng) (d : Fin 16) (a : Fin 16) (b : Fin 16) (s : State) : Host.Outcome State Fault Refusal :=
  .next (issueAlu e d (fun g => AluOp.seq.eval (g a) (g b)) s)

/-- SLTU (R352). Instruction 0x12 gives an unsigned less-than comparison. -/
def execCxSltu (e : Eng) (d : Fin 16) (a : Fin 16) (b : Fin 16) (s : State) : Host.Outcome State Fault Refusal :=
  .next (issueAlu e d (fun g => AluOp.sltu.eval (g a) (g b)) s)

/-- SLTS (R352). Instruction 0x13 gives a signed less-than comparison. -/
def execCxSlts (e : Eng) (d : Fin 16) (a : Fin 16) (b : Fin 16) (s : State) : Host.Outcome State Fault Refusal :=
  .next (issueAlu e d (fun g => AluOp.slts.eval (g a) (g b)) s)

/-- ADDD (R356). Instruction 0x14 gives a packed decimal sum. -/
def execCxAddd (e : Eng) (d : Fin 16) (a : Fin 16) (b : Fin 16) (s : State) : Host.Outcome State Fault Refusal :=
  .next (issueAlu e d (fun g => AluOp.addd.eval (g a) (g b)) s)

/-- SUBD (R356). Instruction 0x15 gives a packed decimal difference. -/
def execCxSubd (e : Eng) (d : Fin 16) (a : Fin 16) (b : Fin 16) (s : State) : Host.Outcome State Fault Refusal :=
  .next (issueAlu e d (fun g => AluOp.subd.eval (g a) (g b)) s)

/-- DCAR (R356). Instruction 0x16 gives a decimal carry. -/
def execCxDcar (e : Eng) (d : Fin 16) (a : Fin 16) (b : Fin 16) (s : State) : Host.Outcome State Fault Refusal :=
  .next (issueAlu e d (fun g => AluOp.dcar.eval (g a) (g b)) s)

/-- DAA (R356). Instruction 0x17 gives a decimal adjust. -/
def execCxDaa (e : Eng) (d : Fin 16) (a : Fin 16) (s : State) : Host.Outcome State Fault Refusal :=
  .next (issueAlu e d (fun g => bcdOf (decOf (g a) % 100)) s)

/-- ADDI (R352). Instruction 0x20 adds an immediate. -/
def execCxAddi (e : Eng) (d : Fin 16) (a : Fin 16) (k : Byte) (s : State) : Host.Outcome State Fault Refusal :=
  .next (issueAlu e d (fun g => (g a + k.toNat) % 256) s)

/-- ANDI (R352). Instruction 0x21 ANDs with an immediate. -/
def execCxAndi (e : Eng) (d : Fin 16) (a : Fin 16) (k : Byte) (s : State) : Host.Outcome State Fault Refusal :=
  .next (issueAlu e d (fun g => g a &&& k.toNat) s)

/-- ORI (R352). Instruction 0x22 ORs with an immediate. -/
def execCxOri (e : Eng) (d : Fin 16) (a : Fin 16) (k : Byte) (s : State) : Host.Outcome State Fault Refusal :=
  .next (issueAlu e d (fun g => g a ||| k.toNat) s)

/-- XORI (R352). Instruction 0x23 XORs with an immediate. -/
def execCxXori (e : Eng) (d : Fin 16) (a : Fin 16) (k : Byte) (s : State) : Host.Outcome State Fault Refusal :=
  .next (issueAlu e d (fun g => g a ^^^ k.toNat) s)

/-- SHLI (R352). Instruction 0x24 shifts left by an immediate count. -/
def execCxShli (e : Eng) (d : Fin 16) (a : Fin 16) (n : Fin 8) (s : State) : Host.Outcome State Fault Refusal :=
  .next (issueAlu e d (fun g => shlByte (g a) n.val) s)

/-- SHRI (R352). Instruction 0x25 shifts right logically by an immediate count. -/
def execCxShri (e : Eng) (d : Fin 16) (a : Fin 16) (n : Fin 8) (s : State) : Host.Outcome State Fault Refusal :=
  .next (issueAlu e d (fun g => shrByte (g a) n.val) s)

/-- SARI (R352). Instruction 0x26 shifts right arithmetically by an immediate count. -/
def execCxSari (e : Eng) (d : Fin 16) (a : Fin 16) (n : Fin 8) (s : State) : Host.Outcome State Fault Refusal :=
  .next (issueAlu e d (fun g => sarByte (g a) n.val) s)

/-- SEQI (R352). Instruction 0x27 compares a register with an immediate for equality. -/
def execCxSeqi (e : Eng) (d : Fin 16) (a : Fin 16) (k : Byte) (s : State) : Host.Outcome State Fault Refusal :=
  .next (issueAlu e d (fun g => truth (decide (g a = k.toNat))) s)

/-- SLTIU (R352). Instruction 0x28 gives an unsigned less-than comparison with an immediate. -/
def execCxSltiu (e : Eng) (d : Fin 16) (a : Fin 16) (k : Byte) (s : State) : Host.Outcome State Fault Refusal :=
  .next (issueAlu e d (fun g => truth (decide (g a < k.toNat))) s)

/-- MOVI (R352). Instruction 0x29 loads an immediate. -/
def execCxMovi (e : Eng) (d : Fin 16) (k : Byte) (s : State) : Host.Outcome State Fault Refusal :=
  .next (issueAlu e d (fun _ => k.toNat) s)

/-- ADDP (R352). Instruction 0x2A adds a sign-extended immediate to a pair. -/
def execCxAddp (e : Eng) (d : Fin 8) (a : Fin 8) (k : Byte) (s : State) : Host.Outcome State Fault Refusal :=
  .next (issueReg e (fun q => gpWrite d 1 (addDisp (gpRead q a) k) q) s)

/-- MFS (R365). Instruction 0x30 reads a special register. -/
def execCxMfs (e : Eng) (r : SReg) (s : State) : Host.Outcome State Fault Refusal :=
  .next (issueReg e (sregGet r) s)

/-- MTS (R365). Instruction 0x31 writes a special register. -/
def execCxMts (e : Eng) (r : SReg) (s : State) : Host.Outcome State Fault Refusal :=
  .next (issueMts e r s)

/-- LD (R361). Instruction 0x40 loads a data byte. -/
def execCxLd (e : Eng) (d : Fin 16) (p : Fin 8) (disp : Byte) (s : State) : Host.Outcome State Fault Refusal :=
  .next (issueLoad e (Cx.mem .ld d p disp).word d p disp false s)

/-- ST (R361). Instruction 0x41 stores a data byte. -/
def execCxSt (e : Eng) (d : Fin 16) (p : Fin 8) (disp : Byte) (s : State) : Host.Outcome State Fault Refusal :=
  .next (issueStore e (Cx.mem .st d p disp).word d p disp false s)

/-- LDP (R362). Instruction 0x42 loads a data byte with pointer post-increment. -/
def execCxLdp (e : Eng) (d : Fin 16) (p : Fin 8) (disp : Byte) (s : State) : Host.Outcome State Fault Refusal :=
  .next (issueLoad e (Cx.mem .ldp d p disp).word d p disp true s)

/-- STP (R362). Instruction 0x43 stores a data byte with pointer post-increment. -/
def execCxStp (e : Eng) (d : Fin 16) (p : Fin 8) (disp : Byte) (s : State) : Host.Outcome State Fault Refusal :=
  .next (issueStore e (Cx.mem .stp d p disp).word d p disp true s)

/-- MVB (R363). Instruction 0x44 moves a data byte and advances both pairs. -/
def execCxMvb (e : Eng) (a : Fin 8) (b : Fin 8) (s : State) : Host.Outcome State Fault Refusal :=
  .next (issueMvb e (Cx.mvb a b).word a b s)

/-- ILD (R364). Instruction 0x48 loads one byte of an instruction word. -/
def execCxIld (e : Eng) (d : Fin 16) (p : Fin 8) (sel : Fin 3) (s : State) : Host.Outcome State Fault Refusal :=
  .next (issueIld e (Cx.im false d p sel).word d p sel s)

/-- IST (R364). Instruction 0x49 stores one byte of an instruction word. -/
def execCxIst (e : Eng) (d : Fin 16) (p : Fin 8) (sel : Fin 3) (s : State) : Host.Outcome State Fault Refusal :=
  .next (issueIst e (Cx.im true d p sel).word d p sel s)

/-- IN (R345). Instruction 0x50 reads an I/O byte at IOB + port12. Operand: whether another master has
read it on the same edge before (R38). -/
def execCxIn (e : Eng) (d : Fin 16) (port : BitVec 12) (s : State) (again : Bool := false) : Host.Outcome State Fault Refusal :=
  .next (issueIn e (Cx.io false d port).word d (fun q => (q.iob + port.toNat) % 65536) s again)

/-- OUT (R345). Instruction 0x51 writes an I/O byte at IOB + port12. Operand: whether the selected record
that it enters is registered on the edge of the trigger before it (R461). -/
def execCxOut (e : Eng) (d : Fin 16) (port : BitVec 12) (s : State) (same : Bool := false) : Host.Outcome State Fault Refusal :=
  .next (onEdge same (fun s => issueOut e (Cx.io true d port).word d (fun q => (q.iob + port.toNat) % 65536) s same) s)

/-- INR (R364). Instruction 0x52 reads an I/O byte through a pair. Operand: whether another master has
read it on the same edge before (R38). -/
def execCxInr (e : Eng) (d : Fin 16) (p : Fin 8) (disp : Byte) (s : State) (again : Bool := false) : Host.Outcome State Fault Refusal :=
  .next (issueIn e (Cx.mem .inr d p disp).word d (fun q => addDisp (gpRead q p) disp) s again)

/-- OUTR (R364). Instruction 0x53 writes an I/O byte through a pair. Operand: whether the selected record
that it enters is registered on the edge of the trigger before it (R461). -/
def execCxOutr (e : Eng) (d : Fin 16) (p : Fin 8) (disp : Byte) (s : State) (same : Bool := false) : Host.Outcome State Fault Refusal :=
  .next (onEdge same (fun s => issueOut e (Cx.mem .outr d p disp).word d (fun q => addDisp (gpRead q p) disp) s same) s)

/-- BEQ (R357). Instruction 0x60 branches if two registers are equal. -/
def execCxBeq (e : Eng) (a : Fin 16) (b : Fin 16) (off : Byte) (s : State) : Host.Outcome State Fault Refusal :=
  .next (issueBranch e (Cx.br .beq a b off).word (fun g => BrOp.beq.taken (g a) (g b)) off s)

/-- BNE (R357). Instruction 0x61 branches if two registers differ. -/
def execCxBne (e : Eng) (a : Fin 16) (b : Fin 16) (off : Byte) (s : State) : Host.Outcome State Fault Refusal :=
  .next (issueBranch e (Cx.br .bne a b off).word (fun g => BrOp.bne.taken (g a) (g b)) off s)

/-- BLTU (R357). Instruction 0x62 branches on unsigned less-than. -/
def execCxBltu (e : Eng) (a : Fin 16) (b : Fin 16) (off : Byte) (s : State) : Host.Outcome State Fault Refusal :=
  .next (issueBranch e (Cx.br .bltu a b off).word (fun g => BrOp.bltu.taken (g a) (g b)) off s)

/-- BGEU (R357). Instruction 0x63 branches on unsigned greater-or-equal. -/
def execCxBgeu (e : Eng) (a : Fin 16) (b : Fin 16) (off : Byte) (s : State) : Host.Outcome State Fault Refusal :=
  .next (issueBranch e (Cx.br .bgeu a b off).word (fun g => BrOp.bgeu.taken (g a) (g b)) off s)

/-- BLTS (R357). Instruction 0x64 branches on signed less-than. -/
def execCxBlts (e : Eng) (a : Fin 16) (b : Fin 16) (off : Byte) (s : State) : Host.Outcome State Fault Refusal :=
  .next (issueBranch e (Cx.br .blts a b off).word (fun g => BrOp.blts.taken (g a) (g b)) off s)

/-- BGES (R357). Instruction 0x65 branches on signed greater-or-equal. -/
def execCxBges (e : Eng) (a : Fin 16) (b : Fin 16) (off : Byte) (s : State) : Host.Outcome State Fault Refusal :=
  .next (issueBranch e (Cx.br .bges a b off).word (fun g => BrOp.bges.taken (g a) (g b)) off s)

/-- BEQI (R357). Instruction 0x68 branches if a register equals imm4. -/
def execCxBeqi (e : Eng) (a : Fin 16) (k : BitVec 4) (off : Byte) (s : State) : Host.Outcome State Fault Refusal :=
  .next (issueBranch e (Cx.bri false a k off).word (fun g => g a = k.toNat) off s)

/-- BNEI (R357). Instruction 0x69 branches if a register differs from imm4. -/
def execCxBnei (e : Eng) (a : Fin 16) (k : BitVec 4) (off : Byte) (s : State) : Host.Outcome State Fault Refusal :=
  .next (issueBranch e (Cx.bri true a k off).word (fun g => g a ≠ k.toNat) off s)

/-- JMP (R358). Instruction 0x70 jumps to an absolute address after the delay slot. -/
def execCxJmp (e : Eng) (k : Half) (s : State) : Host.Outcome State Fault Refusal :=
  .next (issueJmp e k.toNat s)

/-- CALL (R359). Instruction 0x71 writes LNK and jumps to an absolute address. -/
def execCxCall (e : Eng) (k : Half) (s : State) : Host.Outcome State Fault Refusal :=
  .next (issueJump e (Cx.jmp .call k).word (fun _ => some k.toNat) setLnk s)

/-- JR (R358). Instruction 0x72 jumps through a pair. -/
def execCxJr (e : Eng) (p : Fin 8) (s : State) : Host.Outcome State Fault Refusal :=
  .next (issueJump e (Cx.jr false p).word (fun q => some (gpRead q p)) id s)

/-- CALLR (R359). Instruction 0x73 writes LNK and jumps through a pair. -/
def execCxCallr (e : Eng) (p : Fin 8) (s : State) : Host.Outcome State Fault Refusal :=
  .next (issueJump e (Cx.jr true p).word (fun q => some (gpRead q p)) setLnk s)

/-- RET (R359). Instruction 0x74 continues at LNK after the delay slot. -/
def execCxRet (e : Eng) (s : State) : Host.Outcome State Fault Refusal :=
  .next (issueJump e (Cx.bare .ret).word (fun q => some q.lnk) id s)

/-- TRAP (R337). Instruction 0x78 takes the SWTRAP trap. -/
def execCxTrap (e : Eng) (k : Half) (s : State) : Host.Outcome State Fault Refusal :=
  .next (issueTrap e (Cx.jmp .trap k).word s)

/-- RETT (R340). Instruction 0x79 returns from a trap using the trap frame. -/
def execCxRett (e : Eng) (s : State) : Host.Outcome State Fault Refusal :=
  .next (issueRett e s)

/-- WAIT (R344). Instruction 0x7A stops issue until an enabled interrupt is pending. -/
def execCxWait (e : Eng) (s : State) : Host.Outcome State Fault Refusal :=
  .next (issueWait e s)

/-- SNAP (R345). Instruction 0x7B is an internal snapshot trigger. Operand: whether it latches on the edge of the
trigger before it (R461). -/
def execCxSnap (e : Eng) (s : State) (same : Bool := false) : Host.Outcome State Fault Refusal :=
  .next (issueSnap e same s)

/-- REP (R367). Instruction 0x80 repeats the next word imm16 times, interruptibly. -/
def execCxRep (e : Eng) (k : Half) (next : IWord) (s : State) : Host.Outcome State Fault Refusal :=
  .next (issueRep e (Cx.jmp .rep k).word false (some k.toNat) next s)

/-- REPU (R367). Instruction 0x81 repeats the next word imm16 times, uninterruptibly. -/
def execCxRepu (e : Eng) (k : Half) (next : IWord) (s : State) : Host.Outcome State Fault Refusal :=
  .next (issueRep e (Cx.jmp .repu k).word true (some k.toNat) next s)

/-- REP_CNT (R367). Instruction 0x82 repeats the next word CNT times, interruptibly. -/
def execCxRepCnt (e : Eng) (next : IWord) (s : State) : Host.Outcome State Fault Refusal :=
  .next (issueRep e (Cx.bare .repCnt).word false none next s)

/-- REPU_CNT (R367). Instruction 0x83 repeats the next word CNT times, uninterruptibly. -/
def execCxRepuCnt (e : Eng) (next : IWord) (s : State) : Host.Outcome State Fault Refusal :=
  .next (issueRep e (Cx.bare .repuCnt).word true none next s)

end Sys2Proof.Machine
end

