-- ==== Sys2Proof/Machine/CmdChg.lean ====
section
/-! DEFINITION. The meanings of the commands of the charger and the power path: one definition per command, over the shared operations. -/

namespace Sys2Proof.Machine

/-- PERIOD_START (R154). A CHG switching period starts: CHG selects state, stage mode, demand and step, and applies
pending changes. -/
def execPeriodStart (x : ChgMeas) (d : ChgDemand) (on : Half) (s : State) : Host.Outcome State Fault Refusal :=
  .next (chgPeriod x d on.toNat s)

/-- PEAK_CURRENT_LIMIT (R149). The peak inductor current comparator decides and ends the running on-time. Operand:
whether the on-time of the period has come to its own end before. -/
def execPeakCurrentLimit (s : State) (ended : Bool := false) : Host.Outcome State Fault Refusal :=
  .next (chgPeak ended s)

/-- TELEMETRY_INTERVAL (R182). A 1-ms interval ends: averages, coulomb count, regulation flags, step advance, ZCELL,
CMIN and LOSS are updated. -/
def execTelemetryInterval (t : ChgTelem) (s : State) : Host.Outcome State Fault Refusal :=
  .next (chgInterval t s)

/-- TBAT_CONVERSION (R155). Every 10 ms, CHG converts TBAT and selects the temperature zone. -/
def execTbatConversion (y : BitVec 14) (s : State) : Host.Outcome State Fault Refusal :=
  .next (chgTbat y.toNat s)

/-- NTC_FAULT (R155). Three consecutive invalid TBAT readings set zone code 7 and CFLT.NTC. -/
def execNtcFault (s : State) : Host.Outcome State Fault Refusal :=
  .next (chgNtcFault s)

/-- NTC_RECOVERY (R155). Three consecutive valid TBAT readings take the zone out of code 7. -/
def execNtcRecovery (s : State) : Host.Outcome State Fault Refusal :=
  .next (chgNtcRecovery s)

/-- CHARGE_DONE (R159). The charge terminates after 16 qualifying intervals in the final step; CHG enters DONE and
logs CHARGE_DONE. -/
def execChargeDone (s : State) : Host.Outcome State Fault Refusal :=
  .next (chgDone s)

/-- RECHARGE (R160). The highest cell stays below the final voltage minus VRECH for 1 s, and CHG leaves DONE for
CHARGE. -/
def execRecharge (s : State) : Host.Outcome State Fault Refusal :=
  .next (chgRecharge s)

/-- SAFETY_TIMER_TICK (R161). A 0.5-s tick adds 2, or 1 at half speed, to the safety timer and to the precharge
counter. -/
def execSafetyTimerTick (s : State) : Host.Outcome State Fault Refusal :=
  .next (chgTick s)

/-- SAFETY_TIMER_EXPIRY (R162). The safety timer reaches 240 × TMRMIN; the charge ends with TIMEOUT or
THERMAL_TIMEOUT, or a second expiry latches. -/
def execSafetyTimerExpiry (s : State) : Host.Outcome State Fault Refusal :=
  .next (chgExpiry s)

/-- PRE_TIMEOUT (R164). The precharge counter reaches 240 × PRETMR, and the state becomes LATCHED. -/
def execPreTimeout (s : State) : Host.Outcome State Fault Refusal :=
  .next (chgPreTimeout s)

/-- TMRLATCH_CLEAR (R163). A write of 1 to CFLT.TMRLATCH clears the latch and EXP1. -/
def execTmrlatchClear (e : Eng) (s : State) : Host.Outcome State Fault Refusal :=
  .next (engWrite e 0xC07 2 0x4 s)

/-- CELL_OV (R166). A cell over-voltage comparator decides; the switching gates are off within 2 CK and CFLT.OVP
latches. Operand: whether the selected record that it enters is registered on the edge of the trigger before it
(R461). -/
def execCellOv (c : Fin 6) (v : Half) (s : State) (same : Bool := false) : Host.Outcome State Fault Refusal :=
  .next (onEdge same (chgCellOv c.val v.toNat) s)

/-- OVP_CLEAR (R167). A write of 1 to CFLT.OVP clears it only if every cell is below COV − COVHYS. -/
def execOvpClear (e : Eng) (s : State) (cells : Vector Int 5 := Vector.replicate 5 0) : Host.Outcome State Fault
    Refusal :=
  .next (ovpPut e cells s)

/-- CELL_UV (R168). The lowest cell stays below CUV for 1 s with no valid input; CFLT.CUV sets and reverse boost
stops. -/
def execCellUv (c : Fin 6) (v : Half) (s : State) : Host.Outcome State Fault Refusal :=
  .next (chgCellUv c.val v.toNat s)

/-- CHARGER_ENABLE (R154). A write of CCTL.EN enables or disables the charger from the next period start. -/
def execChargerEnable (e : Eng) (on : Bool) (s : State) : Host.Outcome State Fault Refusal :=
  .next (engWrite e 0xC04 1 (b2n on) s)

/-- ACG_ON (R171). VIN has been valid for INDEB × 10 ms with EN = 1, and CHG turns ACG on. -/
def execAcgOn (vin : Half) (s : State) : Host.Outcome State Fault Refusal :=
  .next (chgAcgOn vin.toNat s)

/-- INPUT_ATTACH (R171). VCHG comes within 5% of VIN, ATTACH ends and CHG logs INPUT_ATTACH. -/
def execInputAttach (vin : Half) (s : State) : Host.Outcome State Fault Refusal :=
  .next (chgAttach vin.toNat s)

/-- INPUT_LOST (R172). VIN falls below 3.30 V or reverse current is decided; the gates and ACG go off and the state
becomes NOINPUT. -/
def execInputLost (rev : Bool) (s : State) : Host.Outcome State Fault Refusal :=
  .next (chgInputLost (if rev then 2 else 1) s)

/-- INPUT_OV (R172). VIN rises above VINOVP; the gates and ACG go off and CFLT.INOVP sets. Operand: whether the
selected record that it enters is registered on the edge of the trigger before it (R461). -/
def execInputOv (vin : Half) (s : State) (same : Bool := false) : Host.Outcome State Fault Refusal :=
  .next (onEdge same (chgInputOv vin.toNat) s)

/-- BATT_REMOVED (R175). A BID or rise removal decision aborts the charge, turns BATG off and moves CHG to SYSREG.
Operand: whether the selected record that it enters is registered on the edge of the trigger before it (R461).
Operand: whether the on-time of the period has come to its own end before. -/
def execBattRemoved (rise : Bool) (bid : Bool) (vsys : Half) (s : State) (same : Bool := false) (ended : Bool := false) : Host.Outcome State
    Fault Refusal :=
  .next (onEdge same (chgRemoved rise bid vsys.toNat ended) s)

/-- BATT_REMOVED_SECOND (R174). The other removal detector decides within 1 ms of the first, and a second
BATT_REMOVED record is logged. Operand: whether the selected record that it enters is registered on the edge of the
trigger before it (R461). -/
def execBattRemovedSecond (ck : Nat) (s : State) (same : Bool := false) : Host.Outcome State Fault Refusal :=
  .next (onEdge same (chgRemovedSecond ck) s)

/-- BATT_INSERTED (R177). Reinsertion is detected after INSDEB × 10 ms, and CHG ramps VSYS toward the pack voltage.
-/
def execBattInserted (pack : Half) (s : State) : Host.Outcome State Fault Refusal :=
  .next (chgInserted pack.toNat s)

/-- BATG_RECONNECT (R177). VSYS comes within 200 mV of the pack, and CHG turns BATG on. -/
def execBatgReconnect (s : State) : Host.Outcome State Fault Refusal :=
  .next (chgReconnect s)

/-- RBGO (R178). A write of CCTL.RBGO starts reverse boost, or it is refused with RB_REFUSED. -/
def execRbgo (e : Eng) (s : State) : Host.Outcome State Fault Refusal :=
  .next (engWrite e 0xC04 1 (b2n s.chg.en + 2) s)

/-- RB_START (R179). VIN comes within 2% of RBV; the state becomes REVERSE and RB_START is logged. -/
def execRbStart (s : State) : Host.Outcome State Fault Refusal :=
  .next (chgRbStart s)

/-- RBSTOP (R181). A write of CCTL.RBSTOP stops reverse boost at the next period start. -/
def execRbstop (e : Eng) (s : State) : Host.Outcome State Fault Refusal :=
  .next (engWrite e 0xC04 1 (b2n s.chg.en + 4) s)

/-- RB_BACKDRIVE (R181). VIN stays above RBV + 500 mV for 240 CK, and reverse boost stops. -/
def execRbBackdrive (s : State) : Host.Outcome State Fault Refusal :=
  .next (chgBackdrive s)

/-- RB_OVERLOAD (R181). VIN stays below 80% of RBV for 8 ms; reverse boost stops and CFLT.RBFLT sets. -/
def execRbOverload (s : State) : Host.Outcome State Fault Refusal :=
  .next (chgOverload s)

/-- LFMGO (R186). A write of CCTL.LFMGO starts a RON and QG loss-floor measurement. -/
def execLfmgo (e : Eng) (s : State) : Host.Outcome State Fault Refusal :=
  .next (engWrite e 0xC04 1 (b2n s.chg.en + 8) s)

/-- LOSS_FLOOR_AUTO (R186). After each 24 h of RUN time, a loss-floor measurement starts at the first eligible point.
-/
def execLossFloorAuto (s : State) : Host.Outcome State Fault Refusal :=
  .next (chgLfmAuto s)

/-- LOSS_FLOOR_DONE (R186). A loss-floor measurement completes, updates RON and QG and sets CIS.LFM. -/
def execLossFloorDone (ron : Vector (List (Int × Int)) 4) (qg : Vector (List Nat) 4) (s : State) : Host.Outcome State
    Fault Refusal :=
  .next (chgLfmDone ron qg s)

/-- LOSS_BOUND (R187). LRATIO exceeds 294 in 16 consecutive intervals with FLOOR ≥ 50 mW; CFLT.LOSSHI sets and
LOSS_BOUND is logged. -/
def execLossBound (s : State) : Host.Outcome State Fault Refusal :=
  .next (chgLossBound s)

/-- CHGSEL_HOLD (R191). A write of CHGSEL.HOLD = 1 takes this port's held copy of every telemetry value. -/
def execChgselHold (p : Port) (priv : Bool) (s : State) : Host.Outcome State Fault Refusal :=
  .next (hostWrite p priv 0x1C (setBit s.hp[p].sel.chgsel 7 true) s)

/-- CONTOUR_TABLE_ACCESS (R195). A CTDATH access writes or reads a contour or OCV table entry and advances INDEX.
Operand: whether another master has read it on the same edge before (R38). -/
def execContourTableAccess (e : Eng) (w : Option Half) (s : State) (again : Bool := false) : Host.Outcome State Fault Refusal :=
  .next (engAccess e 0xC49 2 (w.map BitVec.toNat) s again)

end Sys2Proof.Machine
end

