-- ==== Sys2Proof/Machine/CmdCommon.lean ====
section
/-! DEFINITION. The meanings of the commands of register accesses, COMMIT and port errors: one definition per command, over the shared operations. -/

namespace Sys2Proof.Machine

/-- REGISTER_WRITE (R13). A write from an engine or a host port to a register that has no row of its own; for multi-
byte registers it takes effect on the highest byte and is checked under R15. Operand: whether the selected record
that it enters is registered on the edge of the trigger before it (R461). -/
def execRegisterWrite (m : Mst) (adr : Half) (v : Half) (s : State) (same : Bool := false) : Host.Outcome State Fault Refusal :=
  .next (onEdge same (fun s => mstWrite m adr.toNat 1 (v.toNat % 256) (adr.toNat % 64) v.toNat s same) s)

/-- REGISTER_READ (R13). A lowest-byte read of a read-only multi-byte register, by an engine or a port, loads that
master's read latch with the upper bytes; reads with AUTOINC, such as RTCVAL, advance their index. Operand: whether
another master has read it on the same edge before (R38). -/
def execRegisterRead (m : Mst) (adr : Half) (s : State) (again : Bool := false) : Host.Outcome State Fault Refusal :=
  .next (mstRead m adr.toNat 1 (adr.toNat % 64) s again)

/-- WRITE_OVERRUN (R267). A host write is detected while the write buffer is still occupied; the write is not
performed and the port reports OVERRUN. -/
def execWriteOverrun (p : Port) (off : BitVec 6) (s : State) : Host.Outcome State Fault Refusal :=
  .next (hostTurned p 0x0B off.toNat true s)

/-- STROBE_CONFLICT (R269). A strobe edge is detected while the other strobe is low; neither access is performed and
the port reports STROBE. -/
def execStrobeConflict (p : Port) (off : BitVec 6) (wr : Bool) (s : State) : Host.Outcome State Fault Refusal :=
  .next (hostTurned p 0x0F off.toNat wr s)

/-- COMMIT (R44). A write of 0xC3 to BCOMMIT checks the staged fields on edge 1 and, if they agree, copies them into
the pending set. Operand: whether the selected record that it enters is registered on the edge of the trigger before
it (R461). -/
def execCommit (e : Eng) (b : SBlk) (s : State) (same : Bool := false) : Host.Outcome State Fault Refusal :=
  .next (onEdge same (engWrite e (blkBase b + 1) 1 0xC3) s)

/-- COMMIT_APPLY (R45). The pending set becomes live at the block's application boundary and PEND clears. -/
def execCommitApply (b : SBlk) (s : State) : Host.Outcome State Fault Refusal :=
  .next (whenCk (commitApply b) s)

end Sys2Proof.Machine
end

