-- ==== Sys2Proof/Machine/CmdDct.lean ====
section
/-! DEFINITION. The meanings of the commands of device modes and domains: one definition per command, over the shared operations. -/

namespace Sys2Proof.Machine

/-- MODE_REQUEST_RUN (R428). A PWRREQ or DMREQ for RUN wakes from WATCH, abandons an entry, or is queued. Operand:
whether a newer request is registered on the same edge (R427). -/
def execModeRequestRun (m : Mst) (s : State) (newer : Bool := false) : Host.Outcome State Fault Refusal :=
  .next (modeAsk m 0 newer s)

/-- MODE_REQUEST_WATCH (R428). A PWRREQ or DMREQ for WATCH accepts an entry, replaces a target, or is queued.
Operand: whether a newer request is registered on the same edge (R427). -/
def execModeRequestWatch (m : Mst) (s : State) (newer : Bool := false) : Host.Outcome State Fault Refusal :=
  .next (modeAsk m 1 newer s)

/-- MODE_REQUEST_SHIP (R428). A PWRREQ or DMREQ for SHIP accepts an entry, replaces a target, or is queued. Operand:
whether a newer request is registered on the same edge (R427). -/
def execModeRequestShip (m : Mst) (s : State) (newer : Bool := false) : Host.Outcome State Fault Refusal :=
  .next (modeAsk m 2 newer s)

/-- GATHER_START (R430). The notice of an accepted entry ends, and DCT starts evaluating the gather conditions. -/
def execGatherStart (s : State) : Host.Outcome State Fault Refusal :=
  .next (whenCk gatherStart s)

/-- MODE_REFUSED (R431). A gather condition fails at its limit; the entry is refused and REFCNT and records are
updated. Operand: whether the selected record that it enters is registered on the edge of the trigger before it
(R461). -/
def execModeRefused (rdy : Bool) (drain : Bool) (s : State) (same : Bool := false) : Host.Outcome State Fault Refusal
    :=
  .next (whenCk (onEdge same (entryRefuse rdy drain)) s)

/-- MODE_COMMIT (R432). Every gather condition holds; the listed domains go down one per CK from the commit edge. -/
def execModeCommit (s : State) : Host.Outcome State Fault Refusal :=
  .next (whenCk entryCommit s)

/-- WATCH_ENTRY_COMPLETE (R434). After the last listed regulator is off, CK changes to the crystal and the mode
becomes WATCH. -/
def execWatchEntryComplete (s : State) : Host.Outcome State Fault Refusal :=
  .next (whenCk watchEnter s)

/-- SHIP_ENTER (R435). After D1's regulator is off, DCT arms the wake comparator and powers D0 down except the
comparator. -/
def execShipEnter (s : State) : Host.Outcome State Fault Refusal :=
  .next (whenCk shipEnter s)

/-- SHIP_WAKE (R436). The SHIP wake comparator decides on an input and starts reset cause SHIPWAKE. -/
def execShipWake (n : Fin 3) (s : State) : Host.Outcome State Fault Refusal :=
  .next (shipWake n s)

/-- DOMAIN_STAGE_READY (R423). A power-up stage's ready signal registers, starting the next stage; LOGRDY turns the
domain on. Operand: whether it is D7's, coming up for a port, while a change brings up another domain (R438). -/
def execDomainStageReady (s : State) (own : Bool := false) : Host.Outcome State Fault Refusal :=
  .next (whenCk (stageReady own) s)

/-- DOMAIN_REQUEST_ON (R437). A DDOMREQ with ON = 1 powers D4, D5 or D6 up. -/
def execDomainRequestOn (e : Eng) (d : BitVec 3) (s : State) : Host.Outcome State Fault Refusal :=
  .next (engWrite e 0x1807 1 (128 + d.toNat) s)

/-- DOMAIN_REQUEST_OFF (R437). A DDOMREQ with ON = 0 runs notice, gather and commit for one domain. -/
def execDomainRequestOff (e : Eng) (d : BitVec 3) (s : State) : Host.Outcome State Fault Refusal :=
  .next (engWrite e 0x1807 1 d.toNat s)

/-- D7_FORCED (R438). After the last port becomes unpowered in WATCH and DRAIN_LIMIT passes, D7 is powered down. -/
def execD7Forced (s : State) : Host.Outcome State Fault Refusal :=
  .next (whenCk d7Forced s)

/-- WAKE_DECISION (R439). An enabled wake source in WATCH starts powering up the run set and the PLL. -/
def execWakeDecision (s : State) : Host.Outcome State Fault Refusal :=
  .next (whenCk wakeDecide s)

/-- WAKE_TIMER (R439). WAKETMR seconds pass after WATCH entry, which is a timer wake source. -/
def execWakeTimer (s : State) : Host.Outcome State Fault Refusal :=
  .next (whenCk (raiseWake 0xC) s)

/-- WAKE_COMPLETE (R440). CK changes to the PLL; the mode becomes RUN and the WKROLE engines are released into their
loaders. -/
def execWakeComplete (s : State) : Host.Outcome State Fault Refusal :=
  .next (whenCk wakeComplete s)

/-- WAKE_FALLBACK (R440). The PLL has not locked 100 µs after a wake decision, and the wake completes on the crystal
in fallback. Operand: whether the selected record
that it enters is registered on the edge of the trigger before it (R461). -/
def execWakeFallback (s : State) (same : Bool := false) : Host.Outcome State Fault Refusal :=
  .next (whenCk (onEdge same wakeFallback) s)

end Sys2Proof.Machine
end

