-- ==== Sys2Proof/Machine/CmdEngine.lean ====
section
/-! DEFINITION. The meanings of the commands of engine events, and the copy unit: one definition per command, over the shared operations. -/

namespace Sys2Proof.Machine

/-- XSIG (R336). A write of XSIG sets XPEND bits in the engines named in the mask. -/
def execXsig (e : Eng) (mask : BitVec 6) (s : State) : Host.Outcome State Fault Refusal :=
  .next (engWrite e 0x10 1 mask.toNat s)

/-- INTERRUPT_ACCEPT (R333). An engine accepts the lowest pending enabled interrupt, annuls later instructions and
writes the trap frame. -/
def execInterruptAccept (e : Eng) (word : IWord) (s : State) : Host.Outcome State Fault Refusal :=
  .next (engIrq e word.toNat s)

/-- WAIT_RESUME (R344). An enabled interrupt becomes pending after WAIT, and the engine resumes or takes the
interrupt. -/
def execWaitResume (e : Eng) (word : IWord) (s : State) : Host.Outcome State Fault Refusal :=
  .next (engResume e word.toNat s)

/-- WATCHDOG_ENABLE (R343). A write of WDCTL.EN = 1 starts a watchdog period. -/
def execWatchdogEnable (e : Eng) (warn : BitVec 2) (s : State) : Host.Outcome State Fault Refusal :=
  .next (engWrite e 0x40 1 (1 + 2 * warn.toNat) s)

/-- WATCHDOG_KICK (R343). A WDKICK write either completes a good 0x5A/0xA5 kick or is a bad kick that stops the
engine. -/
def execWatchdogKick (e : Eng) (v : Byte) (s : State) : Host.Outcome State Fault Refusal :=
  .next (engWrite e 0x43 1 v.toNat s)

/-- WATCHDOG_WARNING (R343). The selected fraction of the watchdog period elapses, and WARNF sets. -/
def execWatchdogWarning (e : Eng) (s : State) : Host.Outcome State Fault Refusal :=
  .next (wdWarn e s)

/-- WATCHDOG_EXPIRY (R343). The watchdog period ends without a kick, and the engine stops. Operand: whether the
selected record that it enters is registered on the edge of the trigger before it (R461). -/
def execWatchdogExpiry (e : Eng) (s : State) (same : Bool := false) : Host.Outcome State Fault Refusal :=
  .next (onEdge same (wdExpire e) s)

/-- TIMER_START (R347). A write of TMRnCTL.EN = 1 loads COUNT from RELOAD. -/
def execTimerStart (e : Eng) (n : Fin 2) (periodic : Bool) (pre : BitVec 2) (s : State) : Host.Outcome State Fault
    Refusal :=
  .next (engWrite e (0x20 + 8 * n.val) 1 (1 + bAt periodic 1 + 4 * pre.toNat) s)

/-- TIMER_EXPIRY (R347). A timer tick finds COUNT at 0; FLAG sets and the timer reloads or stops. -/
def execTimerExpiry (e : Eng) (n : Fin 2) (s : State) : Host.Outcome State Fault Refusal :=
  .next (tmrExpire e n s)

/-- UNDEFINED_OPCODE (R374). An engine executes a word with an undefined opcode or a reserved field value, for
example erased 0xFFFFFF, and takes the ILLEGAL trap. -/
def execUndefinedOpcode (e : Eng) (word : IWord) (s : State) : Host.Outcome State Fault Refusal :=
  .next (issueIllegal e word s)

/-- FETCH (R321). An engine reaches an instruction fetched from word address 0x4000 or above and takes the FETCH trap
when that instruction would execute. -/
def execFetch (e : Eng) (s : State) : Host.Outcome State Fault Refusal :=
  .next (issueFetch e s)

/-- CPYGO (R382). A write of CPYGO bit j checks the starting engine's rights and queues job j, or refuses it. -/
def execCpygo (e : Eng) (mask : Byte) (s : State) : Host.Outcome State Fault Refusal :=
  .next (engWrite e 0x3004 1 mask.toNat s)

/-- COPY_JOB_BEGIN (R383). CPY begins the lowest queued job when no other job runs. -/
def execCopyJobBegin (s : State) : Host.Outcome State Fault Refusal :=
  .next (whenCk cpyBegin s)

/-- COPY_JOB_END (R383). A job's last word is moved and any send, release or ring is performed; CPYIS sets. -/
def execCopyJobEnd (s : State) : Host.Outcome State Fault Refusal :=
  .next (whenCk cpyFinish s)

/-- CPYSTOP (R384). A write of CPYSTOP bit j ends a job after its word in progress with code 0x4. -/
def execCpystop (e : Eng) (mask : Byte) (s : State) : Host.Outcome State Fault Refusal :=
  .next (engWrite e 0x3005 1 mask.toNat s)

end Sys2Proof.Machine
end

