-- ==== Sys2Proof/Machine/CmdKsc.lean ====
section
/-! DEFINITION. The meanings of the commands of the key scanner and the encoders: one definition per command, over the shared operations. -/

namespace Sys2Proof.Machine

/-- KEY_SAMPLE (R55). At the end of a drive line's dwell, KSC latches the sense lines and resolves the sample through
the six-stage pipeline. Operand newer: whether a newer platform request is registered on the same edge (R215). -/
def execKeySample (sense : BitVec 20) (rise : Vector Nat 20) (low : BitVec 20) (s : State) (newer : Bool := false) :
    Host.Outcome State Fault Refusal :=
  .next (keySampled sense.toNat rise.toList low.toNat newer s)

/-- SNDGO (R58). A write of KCTL.SNDGO requests a sounding run while no run is in progress. -/
def execSndgo (e : Eng) (s : State) : Host.Outcome State Fault Refusal :=
  .next (engWrite e 0x404 1 (kctlNow s + 2) s)

/-- SOUNDING_PERIOD_EXPIRY (R58). SNDPER × 100 ms of RUN time passes since the previous run, which requests a new
sounding run. -/
def execSoundingPeriodExpiry (s : State) : Host.Outcome State Fault Refusal :=
  .next (soundingDue s)

/-- SOUNDING_RUN_START (R58). A sounding run starts at the frame boundary after its cause. -/
def execSoundingRunStart (s : State) : Host.Outcome State Fault Refusal :=
  .next (soundingStart s)

/-- SOUNDING_RUN_END (R59). After SNDLEN frames, KSC sets S_k, HELD, OVER and VALID, and sets KIS.SNDDONE. -/
def execSoundingRunEnd (s : State) : Host.Outcome State Fault Refusal :=
  .next (soundingEnd s)

/-- SCAN_START (R90). A write of KCTL.SCANEN = 1 while frames are stopped starts a frame on edge 2. -/
def execScanStart (e : Eng) (s : State) : Host.Outcome State Fault Refusal :=
  .next (engWrite e 0x404 1 (setBit (kctlNow s) 0 true) s)

/-- SCAN_STOP_REQUEST (R90). A write of KCTL.SCANEN = 0 while frames run requests a stop at the next frame boundary.
-/
def execScanStopRequest (e : Eng) (s : State) : Host.Outcome State Fault Refusal :=
  .next (engWrite e 0x404 1 (setBit (kctlNow s) 0 false) s)

/-- SCAN_STOP (R90). At the next frame boundary with SCANEN still 0, the scan stops and pending positions return to
STABLE with CANCEL records. -/
def execScanStop (s : State) : Host.Outcome State Fault Refusal :=
  .next (kscStop s)

/-- SLOW_FRAME_START (R81). In WATCH, KSC starts a slow frame every SLOWINT ms. -/
def execSlowFrameStart (s : State) : Host.Outcome State Fault Refusal :=
  .next (kscSlowFrame s)

/-- ENCODER_EDGE (R84). An encoder phase edge updates the 16-bit count, or counts an illegal change in ENCERR.
Operand newer: whether a newer platform request is registered on the same edge (R215). -/
def execEncoderEdge (n : Fin 4) (a : Bool) (b : Bool) (s : State) (newer : Bool := false) : Host.Outcome State Fault
    Refusal :=
  .next (encEdge n a b newer s)

/-- ENCZERO (R86). A write to ENCZERO sets an encoder's count and every reference for it to 0. -/
def execEnczero (e : Eng) (mask : BitVec 4) (s : State) : Host.Outcome State Fault Refusal :=
  .next (engWrite e 0x43C 1 mask.toNat s)

/-- ENCPOS_READ (R77). A host read of ENCPOS returns the count and sets this port's reference for the encoder. -/
def execEncposRead (p : Port) (priv : Bool) (s : State) : Host.Outcome State Fault Refusal :=
  .next (hostRead p priv 0x0B s)

/-- ENCCNT_READ (R86). An engine read of the low byte of ENCCNT sets the engine reference for the encoder. -/
def execEnccntRead (e : Eng) (n : Fin 4) (s : State) : Host.Outcome State Fault Refusal :=
  .next (engRead e (0x430 + 2 * n.val) 2 s)

/-- ENCERR_READ (R99). A read of ENCERR returns the illegal-change count and clears it. Operand: whether another
master has read it on the same edge before (R38). -/
def execEncerrRead (e : Eng) (s : State) (again : Bool := false) : Host.Outcome State Fault Refusal :=
  .next (engRead e 0x439 1 s again)

/-- FREEZE (R78). A write of KEYSEL.FREEZE captures the frame image and its KEYSEQ into this port's frozen copy. -/
def execFreeze (p : Port) (priv : Bool) (s : State) : Host.Outcome State Fault Refusal :=
  .next (hostWrite p priv 0x06 (setBit s.hp[p].sel.keysel 7 true) s)

/-- KEYWIN_READ (R73). A host read of KEYWIN returns a confirmed word and, with AUTOINC, advances WORD. -/
def execKeywinRead (p : Port) (priv : Bool) (s : State) : Host.Outcome State Fault Refusal :=
  .next (hostRead p priv 0x07 s)

/-- KEYPROV_READ (R75). A host read of KEYPROV returns a provisional word and, with AUTOINC, advances WORD. -/
def execKeyprovRead (p : Port) (priv : Bool) (s : State) : Host.Outcome State Fault Refusal :=
  .next (hostRead p priv 0x09 s)

/-- KEVDAT_READ (R98). A read of KEVDAT byte 0x2B returns the head record of the event FIFO and removes it. Operand:
whether another master has read it on the same edge before (R38). -/
def execKevdatRead (e : Eng) (s : State) (again : Bool := false) : Host.Outcome State Fault Refusal :=
  .next (engRead e 0x42B 2 s again)

/-- KATLDAT_ACCESS (R96). An access to KATLDAT reads or stages an atlas entry and advances INDEX. Operand: whether
another master has read it on the same edge before (R38). -/
def execKatldatAccess (e : Eng) (w : Option Byte) (s : State) (again : Bool := false) : Host.Outcome State Fault Refusal :=
  .next (engAccess e 0x41C 1 (w.map BitVec.toNat) s again)

end Sys2Proof.Machine
end

