-- ==== Sys2Proof/Machine/CmdLgt.lean ====
section
/-! DEFINITION. The meanings of the commands of the lighting engine and its chain: one definition per command, over the shared operations. -/

namespace Sys2Proof.Machine

/-- LINE_SLOT_START (R103). An LGT line slot begins: release, charge, pulse window and guard run, with the line's (C,
W) computed before PRECH. -/
def execLineSlotStart (low : BitVec 72) (high : BitVec 72) (opens : BitVec 72) (shorts : BitVec 72) (s : State) (gap
    : Half := 0) : Host.Outcome State Fault Refusal :=
  .next (lgtSlotStart low high opens shorts gap.toNat s)

/-- LED_FAULT (R116). PRBCONF consecutive equal OPEN or SHORT verdicts latch the entry in the fault map and log
LED_OPEN or LED_SHORT. -/
def execLedFault (n : BitVec 11) (s : State) : Host.Outcome State Fault Refusal :=
  .next (lgtLedFault n.toNat s)

/-- LGT_FRAME_BOUNDARY (R104). A new lighting frame starts: gains, rail setpoints, probe counters, fades and UNBLANK
are updated. -/
def execLgtFrameBoundary (s : State) : Host.Outcome State Fault Refusal :=
  .next (lgtFrameBoundary s)

/-- HEADROOM (R112). A LOW sample in 64 consecutive frames with RSET at RMAX sets LFLT.HEADROOM and logs HEADROOM. -/
def execHeadroom (c : Fin 3) (s : State) : Host.Outcome State Fault Refusal :=
  .next (lgtHeadroom c s)

/-- RAIL_FAULT (R113). A rail stays below 50% of its setpoint for 64 periods; LGT turns it off, blanks the matrix and
logs RAIL_FAULT. Operand: whether the selected record that it enters is registered on the edge of the trigger before
it (R461). -/
def execRailFault (c : Fin 3) (s : State) (same : Bool := false) : Host.Outcome State Fault Refusal :=
  .next (onEdge same (lgtRailFault c) s)

/-- RAIL_FAULT_CLEAR (R113). A write of 1 to LFLT.RAILFLT clears the fault, and the rails soft-start at the next
frame boundary. -/
def execRailFaultClear (e : Eng) (s : State) : Host.Outcome State Fault Refusal :=
  .next (engWrite e 0x807 1 0x10 s)

/-- STRING_OPEN (R119). An accent stage reaches its ESOVP limit in 16 consecutive periods and latches OPEN. Operand:
whether the selected record that it enters is registered on the edge of the trigger before it (R461). -/
def execStringOpen (n : Fin 8) (s : State) (same : Bool := false) : Host.Outcome State Fault Refusal :=
  .next (onEdge same (lgtStageFault true n) s)

/-- STRING_SHORT (R119). An accent stage's string current exceeds 2 × ESFS in 4 consecutive periods and latches
SHORT. Operand: whether the selected record that it enters is registered on the edge of the trigger before it (R461).
-/
def execStringShort (n : Fin 8) (s : State) (same : Bool := false) : Host.Outcome State Fault Refusal :=
  .next (onEdge same (lgtStageFault false n) s)

/-- STAGE_FAULT_CLEAR (R119). A W1C of an ESOPEN or ESSHORT bit clears a stage latch, and the stage restarts at the
next frame boundary. -/
def execStageFaultClear (e : Eng) (shorts : Bool) (mask : Byte) (s : State) : Host.Outcome State Fault Refusal :=
  .next (engWrite e (if shorts then 0x891 else 0x890) 1 mask.toNat s)

/-- LIGHTING_RUN (R105). A write of LCTL.RUN = 1 while frames are stopped starts frames on edge 2, or on the next
LSYNC pulse for a follower. -/
def execLightingRun (e : Eng) (s : State) : Host.Outcome State Fault Refusal :=
  .next (engWrite e 0x804 1 (setBit (lctlNow s) 0 true) s)

/-- LIGHTING_STOP_REQUEST (R105). A write of LCTL.RUN = 0 while frames run requests a stop at the end of the frame in
progress. -/
def execLightingStopRequest (e : Eng) (s : State) : Host.Outcome State Fault Refusal :=
  .next (engWrite e 0x804 1 (setBit (lctlNow s) 0 false) s)

/-- LIGHTING_STOP (R105). At the end of the frame, with RUN still 0, frames stop and every LSG and sink is off. -/
def execLightingStop (s : State) : Host.Outcome State Fault Refusal :=
  .next (lgtStop s)

/-- LITE_NONE (R123). LITECMD or LCMD command 0x0 does nothing. -/
def execLiteNone (m : Mst) (s : State) : Host.Outcome State Fault Refusal :=
  .next (mstWrite m 0x805 1 0 0x22 0 s)

/-- LITE_COMMIT (R121). LITECMD or LCMD command 0x1 schedules a swap of both banks, and a master also sends an LSYNC
commit pulse. -/
def execLiteCommit (m : Mst) (s : State) : Host.Outcome State Fault Refusal :=
  .next (mstWrite m 0x805 1 1 0x22 1 s)

/-- COMMIT_LOCAL (R123). LITECMD or LCMD command 0x2 schedules a local swap without an LSYNC commit pulse. -/
def execCommitLocal (m : Mst) (s : State) : Host.Outcome State Fault Refusal :=
  .next (mstWrite m 0x805 1 2 0x22 2 s)

/-- BLANK (R123). Command 0x3, or a write of LCTL.BLANK = 1, turns every sink, probe and string on-time off from the
next slot start. -/
def execBlank (m : Mst) (s : State) : Host.Outcome State Fault Refusal :=
  .next (mstWrite m 0x805 1 3 0x22 3 s)

/-- UNBLANK (R123). Command 0x4, or a write of LCTL.BLANK = 0, clears BLANKED at the next frame boundary. -/
def execUnblank (m : Mst) (s : State) : Host.Outcome State Fault Refusal :=
  .next (mstWrite m 0x805 1 4 0x22 4 s)

/-- SWAP (R122). The front and back halves of both banks are exchanged on one edge; PEND clears and the copy-back
starts. -/
def execSwap (s : State) : Host.Outcome State Fault Refusal :=
  .next (lgtSwap s)

/-- COPYBACK_COMPLETE (R122). The copy-back of all 1160 entries ends, and BACKRDY sets. -/
def execCopybackComplete (s : State) (n : Fin 1161 := 1160) : Host.Outcome State Fault Refusal :=
  .next (lgtCopyback n.val s)

/-- LIXDAT_WRITE (R142). A write of LIXDATH writes the held indirect-table entry and advances LIXIDX. -/
def execLixdatWrite (e : Eng) (v : Half) (s : State) : Host.Outcome State Fault Refusal :=
  .next (engWrite e 0x8A3 2 v.toNat s)

/-- LIXDAT_READ (R142). A read of LIXDATL latches an indirect-table entry; the LIXDATH read advances LIXIDX.
Operand: whether another master has read it on the same edge before (R38). -/
def execLixdatRead (e : Eng) (s : State) (again : Bool := false) : Host.Outcome State Fault Refusal :=
  .next (engRead e 0x8A3 2 s again)

/-- FAULT_MAP_CLEAR (R116). A write of 0b00 to a fault-map entry clears its latched LED fault, so probing tests it
again. -/
def execFaultMapClear (e : Eng) (s : State) : Host.Outcome State Fault Refusal :=
  .next (if s.lgb.lixsel = 4 then engWrite e 0x8A3 2 0 s else s)

/-- LTIN_WRITE (R107). A write of LTIN supplies the lamp-board temperature and clears TSTALE. -/
def execLtinWrite (e : Eng) (v : Half) (s : State) : Host.Outcome State Fault Refusal :=
  .next (engWrite e 0x892 2 v.toNat s)

/-- TSTALE (R107). LTIN has not been written for STALE × 100 ms; LGT keeps its gains, sets TSTALE and raises
LIS.TSTALE. -/
def execTstale (s : State) : Host.Outcome State Fault Refusal :=
  .next (lgtTstale s)

/-- LSYNC_PULSE (R127). A follower detects an LSYNC low pulse, starts its frame and classifies the pulse as plain or
commit. -/
def execLsyncPulse (low : Half) (off : Int) (s : State) : Host.Outcome State Fault Refusal :=
  .next (if s.gpio.viom then lsyncPulse low.toNat off s else s)

/-- LSYNC_LOST (R127). A follower finds no LSYNC falling edge in time, or one too far from its expected boundary, and
sets SYNCLOST. -/
def execLsyncLost (s : State) : Host.Outcome State Fault Refusal :=
  .next (lsyncLost s)

/-- SYNCFLT (R127). LSYNC is held low for more than 64 CK, which sets LFLT.SYNCFLT. -/
def execSyncflt (s : State) : Host.Outcome State Fault Refusal :=
  .next (if s.gpio.viom then lgtSyncflt s else s)

/-- CHAIN_NOP (R133). Chain command 0x00 does nothing, and the response carries 0x4806. -/
def execChainNop (s : State) : Host.Outcome State Fault Refusal :=
  .next (chainPin (chainRun 0x00 (fun _ s => s) (fun _ _ => 0x4806)) s)

/-- CHAIN_WRITE (R133). Chain command 0x10 writes one back-half entry. -/
def execChainWrite (s : State) : Host.Outcome State Fault Refusal :=
  .next (chainPin (chainRun 0x10 (fun x s => if fld x 26 16 < 1160 then lgtBackWrite (fld x 26 16) (x % 65536) s else s) (fun _ _ => 0)) s)

/-- CHAIN_FILL (R133). Chain command 0x11 fills the back-half matrix entries of a colour group. -/
def execChainFill (s : State) : Host.Outcome State Fault Refusal :=
  .next (chainPin (chainRun 0x11 chainFill (fun _ _ => 0)) s)

/-- CHAIN_COMMIT (R133). Chain command 0x20 acts as LITECMD COMMIT. -/
def execChainCommit (s : State) : Host.Outcome State Fault Refusal :=
  .next (chainPin (chainRun 0x20 (fun _ => lgtCmd 1) (fun _ _ => 0)) s)

/-- CHAIN_BLANK (R133). Chain command 0x21 acts as BLANK. -/
def execChainBlank (s : State) : Host.Outcome State Fault Refusal :=
  .next (chainPin (chainRun 0x21 (fun _ => lgtCmd 3) (fun _ _ => 0)) s)

/-- CHAIN_UNBLANK (R133). Chain command 0x22 acts as UNBLANK. -/
def execChainUnblank (s : State) : Host.Outcome State Fault Refusal :=
  .next (chainPin (chainRun 0x22 (fun _ => lgtCmd 4) (fun _ _ => 0)) s)

/-- CHAIN_START (R133). Chain command 0x30 commits the chain start-up set and starts frames unblanked. Operand:
whether the selected record that it enters is registered on the edge of the trigger before it (R461). -/
def execChainStart (s : State) (same : Bool := false) : Host.Outcome State Fault Refusal :=
  .next (onEdge same (chainPin (chainRun 0x30 chainStart (fun _ _ => 0))) s)

/-- CHAIN_READ (R133). Chain command 0x40 returns an LGT I/O register in the response word. -/
def execChainRead (s : State) : Host.Outcome State Fault Refusal :=
  .next (chainPin (chainRun 0x40 (fun _ s => s) (fun x s => lgtByte (x % 1024) s)) s)

/-- CHAIN_RESERVED (R133). A reserved chain command has no action and sets CHERR in the response. -/
def execChainReserved (s : State) : Host.Outcome State Fault Refusal :=
  .next (if chainCodes.contains (s.lgb.chain.toNat / 2 ^ 40) then s else chainPin (chainRun (s.lgb.chain.toNat / 2 ^ 40) (fun _ => lfltSet 0x02) (fun _ _ => 0)) s)

/-- CHAIN_SHIFT (R132). On each CK edge on which a rising LTCK edge is detected, the chain shift register moves
toward bit 47, takes LTDI into bit 0 and presents bit 47 on LTDO. -/
def execChainShift (ltdi : Bool) (s : State) : Host.Outcome State Fault Refusal :=
  .next (chainPin (chainShift ltdi) s)

end Sys2Proof.Machine
end

