-- ==== Sys2Proof/Machine/CmdMbx.lean ====
section
/-! DEFINITION. The meanings of the commands of the mailboxes as the engines use them: one definition per command, over the shared operations. -/

namespace Sys2Proof.Machine

/-- ECHSEL_WRITE (R304). An engine write of ECHSEL selects a channel and empties the engine's latch. -/
def execEchselWrite (e : Eng) (v : Half) (s : State) : Host.Outcome State Fault Refusal :=
  .next (engWrite e 0x104 2 v.toNat s)

/-- EMBDAT_READ (R304). An engine EMBDAT read returns a slot byte, latching at byte 0, and advances EMBPTR. Operand:
whether another master has read it on the same edge before (R38). -/
def execEmbdatRead (e : Eng) (s : State) (again : Bool := false) : Host.Outcome State Fault Refusal :=
  .next (engRead e 0x10A 1 s again)

/-- ENGINE_SEND (R303). EMBCMD SEND sends the engine's buffer to the selected channel and may ring a doorbell. -/
def execEngineSend (e : Eng) (len : Fin 16) (ring : Bool) (s : State) : Host.Outcome State Fault Refusal :=
  .next (engWrite e 0x10B 1 (0x20 + bAt ring 4 + len.val) s)

/-- ENGINE_RELEASE (R303). EMBCMD RELEASE empties a host-to-engine slot and clears EPEND. Operand: whether a send has
stored its message on the same edge (R305). -/
def execEngineRelease (e : Eng) (s : State) (sent : Bool := false) : Host.Outcome State Fault Refusal :=
  .next (engReleaseAsk e sent s)

/-- ACK (R302). EMBCMD ACK clears EPEND of a slot-free event. -/
def execAck (e : Eng) (s : State) : Host.Outcome State Fault Refusal :=
  .next (engWrite e 0x10B 1 0x60 s)

/-- ROLEMAP_WRITE (R295). A ROLEMAP write moves a role's channels and doorbells to a new engine and logs ROLE_MAP. -/
def execRolemapWrite (e : Eng) (role : Fin 6) (v : BitVec 3) (s : State) : Host.Outcome State Fault Refusal :=
  .next (engWrite e (0x140 + role.val) 1 v.toNat s)

/-- EDBSET (R307). An engine EDBSET rings a doorbell of a host port. -/
def execEdbset (e : Eng) (p : Port) (k : BitVec 6) (s : State) : Host.Outcome State Fault Refusal :=
  .next (engWrite e 0x131 1 (128 * p.val + k.toNat) s)

/-- EDBCLR (R314). An engine EDBCLR clears one, or with ALL every, doorbell of a port routed to it. -/
def execEdbclr (e : Eng) (p : Port) (all : Bool) (k : BitVec 6) (s : State) : Host.Outcome State Fault Refusal :=
  .next (engWrite e 0x130 1 (128 * p.val + bAt all 6 + k.toNat) s)

end Sys2Proof.Machine
end

