-- ==== Sys2Proof/Machine/CmdPort.lean ====
section
/-! DEFINITION. The meanings of the commands of the host ports, mailboxes, doorbells and locks as the ports use them, and the indirect window: one definition per command, over the shared operations. -/

namespace Sys2Proof.Machine

/-- PORT_POWERED (R262). A port's VIO rises above the detection threshold, and the port starts serving. -/
def execPortPowered (p : Port) (v18 : Bool) (s : State) : Host.Outcome State Fault Refusal :=
  .next (portPower p v18 s)

/-- PORT_UNPOWERED (R262). A port's VIO falls below its threshold; its per-port state resets and its locks are
released. -/
def execPortUnpowered (p : Port) (s : State) : Host.Outcome State Fault Refusal :=
  .next (portUnpower p s)

/-- PRST (R279). A write of HCTL.PRST resets this port's per-port state and releases its locks. -/
def execPrst (p : Port) (priv : Bool) (s : State) : Host.Outcome State Fault Refusal :=
  .next (hostWrite p priv 0x05 (setBit s.hp[p].hctl 3 true) s)

/-- HINTS_CLEAR (R270). A W1C write to HINTS, or a write to HINTE, may release INT_N on edge 3. -/
def execHintsClear (p : Port) (priv : Bool) (inte : Bool) (v : Half) (s : State) : Host.Outcome State Fault Refusal
    :=
  .next (hostWrite p priv (if inte then 0x04 else 0x03) v.toNat s)

/-- ERRINFO_READ (R274). A read of ERRINFO returns the error record, clears it and releases ERR_N. -/
def execErrinfoRead (p : Port) (priv : Bool) (s : State) : Host.Outcome State Fault Refusal :=
  .next (hostRead p priv 0x2F s)

/-- MBSEL_WRITE (R304). A write of MBSEL selects channel and word, and a change of CHAN empties the port's read
latch. -/
def execMbselWrite (p : Port) (priv : Bool) (v : Half) (s : State) : Host.Outcome State Fault Refusal :=
  .next (hostWrite p priv 0x0C v.toNat s)

/-- MBDATA_READ (R304). A host MBDATA read returns a slot word, latching the slot at word 0, and advances WORD. -/
def execMbdataRead (p : Port) (priv : Bool) (s : State) : Host.Outcome State Fault Refusal :=
  .next (hostRead p priv 0x0E s)

/-- MBDATA_WRITE (R280). A host MBDATA write fills a word of the port's send buffer and advances WORD. -/
def execMbdataWrite (p : Port) (priv : Bool) (v : Half) (s : State) : Host.Outcome State Fault Refusal :=
  .next (hostWrite p priv 0x0E v.toNat s)

/-- MAILBOX_SEND (R301). An MBSEND with RELEASE = 0 sends the port's buffer to the selected channel. -/
def execMailboxSend (p : Port) (priv : Bool) (len : BitVec 5) (s : State) : Host.Outcome State Fault Refusal :=
  .next (hostWrite p priv 0x0F len.toNat s)

/-- MAILBOX_RELEASE (R302). An MBSEND with RELEASE = 1 empties an engine-to-host slot and sets EPEND. Operand:
whether a send has stored its message on the same edge (R305). -/
def execMailboxRelease (p : Port) (priv : Bool) (s : State) (sent : Bool := false) : Host.Outcome State Fault Refusal
    :=
  .next (hostRelease p priv sent s)

/-- DBSET (R306). A host DBSET sets a doorbell to the engine that serves its route. -/
def execDbset (p : Port) (priv : Bool) (k : BitVec 6) (s : State) : Host.Outcome State Fault Refusal :=
  .next (hostWrite p priv 0x10 k.toNat s)

/-- DBCLR (R281). A host DBCLR with ALL = 0 clears one doorbell from the engines. -/
def execDbclr (p : Port) (priv : Bool) (k : BitVec 6) (s : State) : Host.Outcome State Fault Refusal :=
  .next (hostWrite p priv 0x12 k.toNat s)

/-- DBCLR_ALL (R281). A host DBCLR with ALL = 1 clears all 64 pending doorbells from the engines. -/
def execDbclrAll (p : Port) (priv : Bool) (s : State) : Host.Outcome State Fault Refusal :=
  .next (hostWrite p priv 0x12 0x8000 s)

/-- LOCK_ACQUIRE (R309). A read of LOCK or LKACQ acquires a lock if free, arbitrating round-robin. Operand: the other
masters that acquire on the same edge. -/
def execLockAcquire (m : Mst) (others : List Mst) (s : State) : Host.Outcome State Fault Refusal :=
  .next (lockRead m others s)

/-- LOCK_RELEASE (R310). A write of LOCKREL or LKREL releases a lock held by the writer. -/
def execLockRelease (m : Mst) (l : BitVec 5) (s : State) : Host.Outcome State Fault Refusal :=
  .next (mstWrite m 0x306 1 l.toNat 0x15 l.toNat s)

/-- LKFORCE (R310). A write of LKFORCE by an engine with the remap right releases a lock from any holder. -/
def execLkforce (e : Eng) (l : BitVec 5) (s : State) : Host.Outcome State Fault Refusal :=
  .next (engWrite e 0x311 1 l.toNat s)

/-- REFCNT_ACCESS (R283). A read of REFCNT returns an entry and advances INDEX; a write sets INDEX. -/
def execRefcntAccess (p : Port) (priv : Bool) (w : Option (BitVec 4)) (s : State) : Host.Outcome State Fault Refusal
    :=
  .next (hostAccess p priv 0x18 (w.map BitVec.toNat) s)

/-- RFCLR (R442). A write of 0xC1 to RFCLR clears REFCNT entries 0–9. -/
def execRfclr (e : Eng) (s : State) : Host.Outcome State Fault Refusal :=
  .next (engWrite e 0x1813 1 0xC1 s)

/-- CHIP_SELECT_CHANGE (R263). A detected CS_N falling or rising edge on a host port starts or stops the port driving
RDY. -/
def execChipSelectChange (p : Port) (low : Bool) (s : State) : Host.Outcome State Fault Refusal :=
  .next (chipSelect p low s)

/-- WRITE_STROBE_FALLING (R267). At the first-stage capture of WR_N falling, the port checks the write buffer and, if
it is occupied, drives RDY low until the buffer frees. Operand: the CK until the buffer frees. -/
def execWriteStrobeFalling (p : Port) (left : Fin 8) (s : State) : Host.Outcome State Fault Refusal :=
  .next (writeStrobe p left.val s)

/-- WINDAT_READ (R289). A host WINDAT read returns data from the selected engine space or SHM and advances WINADR.
Operand: whether another master has read it on the same edge before (R38). -/
def execWindatRead (p : Port) (priv : Bool) (s : State) (again : Bool := false) : Host.Outcome State Fault Refusal :=
  .next (hostRead p priv 0x3A s again)

/-- WINDAT_WRITE (R289). A host WINDAT write stores data in the selected space, completes on edge 10 and advances
WINADR. Operand: whether the selected record
that it enters is registered on the edge of the trigger before it (R461). -/
def execWindatWrite (p : Port) (priv : Bool) (v : Half) (s : State) (same : Bool := false) : Host.Outcome State Fault Refusal :=
  .next (onEdge same (fun s => hostWrite p priv 0x3A v.toNat s same) s)

/-- HPSVC_WRITE (R291). An engine write of HPSVC changes the SVC bits, and a change sets HINTS.SVC. -/
def execHpsvcWrite (e : Eng) (v : Byte) (s : State) : Host.Outcome State Fault Refusal :=
  .next (engWrite e 0x3400 1 v.toNat s)

end Sys2Proof.Machine
end

