-- ==== Sys2Proof/Machine/CmdReset.lean ====
section
/-! DEFINITION. The meanings of the commands of the reset sources, the PLL and the CK source: one definition per command, over the shared operations. -/

namespace Sys2Proof.Machine

/-- POWER_ON_RESET (R401). The D0 supply falls below its under-voltage threshold and resets everything, including the
RTC and RSTHIST. -/
def execPowerOnReset (s : State) : Host.Outcome State Fault Refusal :=
  .next (resetAssert 1 s)

/-- RESET_PIN (R402). RESET_N is held low for at least 100 ns and resets all domains except the RTC and RSTHIST. -/
def execResetPin (s : State) : Host.Outcome State Fault Refusal :=
  .next (resetAssert 3 s)

/-- BROWNOUT (R401). A domain regulator or the core supply falls below its threshold while D0 is up, and the device
resets as for PIN. -/
def execBrownout (s : State) : Host.Outcome State Fault Refusal :=
  .next (resetAssert 4 s)

/-- XFAIL (R401). The crystal amplitude stays below the detector threshold for 5 µs, and the device resets as for
PIN. -/
def execXfail (s : State) : Host.Outcome State Fault Refusal :=
  .next (resetAssert 5 s)

/-- RESET_SEQUENCE (R403). When the last active reset source releases, DCT qualifies the crystal, powers the domains,
locks the PLL and starts CE0 in ROM. Operands: the last step that is taken, and the ring and NVM slots whose CHECK
fails. -/
def execResetSequence (s : State) (last : Fin 6 := 5) (ringBad : List Half := []) (nvmBad : List (BitVec 11) := []) :
    Host.Outcome State Fault Refusal :=
  .next (resetSequence (last.val + 1) (ringBad.map BitVec.toNat) (nvmBad.map BitVec.toNat) s)

/-- DEVICE_RESET_COMMAND (R409). A write of 0xD5 then 0x5D to DRST from one engine holding the remap right starts
reset cause DEVRST. -/
def execDeviceResetCommand (e : Eng) (s : State) : Host.Outcome State Fault Refusal :=
  .next (engWrite e 0x182C 1 0x5D (engWrite e 0x182C 1 0xD5 s))

/-- PLL_LOCK (R398). The PLL lock detector declares lock after 64 consecutive windows within 159–161. -/
def execPllLock (s : State) : Host.Outcome State Fault Refusal :=
  .next (whenCk pllLock s)

/-- PLL_LOSS (R400). Loss of lock is declared while CK runs from the PLL; CK changes to the crystal at once and the
device enters fallback. Operand: whether the selected record that it enters is registered on the edge of the trigger
before it (R461). -/
def execPllLoss (s : State) (same : Bool := false) : Host.Outcome State Fault Refusal :=
  .next (whenCk (onEdge same pllLoss) s)

/-- PLL_RESTART (R400). Ten ms after a loss-of-lock decision, DCT restarts the PLL, counting a failed restart toward
the limit of three. -/
def execPllRestart (failed : Bool) (s : State) : Host.Outcome State Fault Refusal :=
  .next (whenCk (pllRestart failed) s)

/-- FALLBACK_RETURN (R400). Once the PLL has held lock for 1 ms in fallback, DCT changes CK back to the PLL and
FALLBACK clears. -/
def execFallbackReturn (s : State) : Host.Outcome State Fault Refusal :=
  .next (whenCk fallbackReturn s)

/-- RELOCK (R400). A write of CKCTL.RELOCK during fallback resets the retry count and restarts the PLL at once. -/
def execRelock (e : Eng) (s : State) : Host.Outcome State Fault Refusal :=
  .next (engWrite e 0x1829 1 1 s)

/-- CK_SOURCE_CHANGE (R399). Once KSC is frame-idle and CHG has its gates off, DCT blocks the old clock and starts CK
from the new source. -/
def execCkSourceChange (s : State) : Host.Outcome State Fault Refusal :=
  .next (whenCk ckChange s)

end Sys2Proof.Machine
end

