-- ==== Sys2Proof/Machine/CmdSeq.lean ====
section
/-! DEFINITION. The meanings of the commands of the traverse sequencer: one definition per command, over the shared operations. -/

namespace Sys2Proof.Machine

/-- PLATFORM_REQUEST (R205). A platform request from PLATREQ, SREQ or a button, lid or wake source starts a traverse,
starts an unwind, is queued or is refused. Operand: whether a newer request is registered on the same edge (R215). -/
def execPlatformRequest (tgt : BitVec 4) (src : PlatSrc) (s : State) (newer : Bool := false) : Host.Outcome State
    Fault Refusal :=
  .next (platAsk src tgt.toNat newer s)

/-- STEP_END (R207). The END step ends the traverse; the current state becomes TO, pending sets apply and a queued
request is taken. -/
def execStepEnd (s : State) : Host.Outcome State Fault Refusal :=
  .next (seqEnd s)

/-- STEP_SET (R203). The SET step sets one PSOUT bit. -/
def execStepSet (s : State) : Host.Outcome State Fault Refusal :=
  .next (seqSet s)

/-- STEP_SETG (R203). The SETG step sets masked PSOUT bits of one bank on one edge. -/
def execStepSetg (s : State) : Host.Outcome State Fault Refusal :=
  .next (seqSetg s)

/-- STEP_DELAY (R203). The DELAY step waits N CK, or N × 240 CK. -/
def execStepDelay (s : State) : Host.Outcome State Fault Refusal :=
  .next (seqDelay s)

/-- STEP_WAITPG (R206). The WAITPG step starts waiting for a PGIN bit to reach LEVEL, with a timeout. -/
def execStepWaitpg (pins : BitVec 32) (s : State) : Host.Outcome State Fault Refusal :=
  .next (seqWait pins s)

/-- WAITPG_COMPLETE (R206). PGIN reaches LEVEL during a WAITPG, and the next step executes on the following edge. -/
def execWaitpgComplete (pins : BitVec 32) (s : State) : Host.Outcome State Fault Refusal :=
  .next (seqWaitDone pins s)

/-- STEP_WATCH (R208). The WATCH step arms or disarms the power-good watch on a PG input. -/
def execStepWatch (s : State) : Host.Outcome State Fault Refusal :=
  .next (seqWatch s)

/-- STEP_COMMIT (R212). The COMMIT step passes the traverse's commit point, and PASTCMT sets. -/
def execStepCommit (s : State) : Host.Outcome State Fault Refusal :=
  .next (seqCommitStep s)

/-- STEP_MARK (R203). The MARK step sends TRAVERSE_MARK, sets SIS.MARK and writes SMARK. -/
def execStepMark (s : State) : Host.Outcome State Fault Refusal :=
  .next (seqMark s)

/-- PG_TIMEOUT (R206). A WAITPG times out; SFLT.TIMEOUT or UWTMO sets and the fault traverse runs. Operand: whether
the selected record that it enters is registered on the edge of the trigger before it (R461). -/
def execPgTimeout (s : State) (same : Bool := false) : Host.Outcome State Fault Refusal :=
  .next (onEdge same seqTimeout s)

/-- PG_LOST (R208). An armed watch counts PGWDEB consecutive bad edges; SFLT.PGLOST sets and the recorded fault
traverse runs. Operand: whether the selected record that it enters is registered on the edge of the trigger before it
(R461). -/
def execPgLost (n : Fin 32) (pins : BitVec 32) (s : State) (same : Bool := false) : Host.Outcome State Fault Refusal
    :=
  .next (onEdge same (seqPgLost n pins) s)

/-- UNWIND_REVERSE_STEP (R213). One completed step of an unwound traverse is reversed. -/
def execUnwindReverseStep (pins : BitVec 32) (s : State) : Host.Outcome State Fault Refusal :=
  .next (seqReverse pins s)

/-- POWER_BUTTON_PRESS (R217). PWRBTN_N stays low for PBDEB ms; a press is decided and may make a short-press request
for S0. Operand newer: whether a newer platform request is registered on the same edge (R215). -/
def execPowerButtonPress (s : State) (newer : Bool := false) : Host.Outcome State Fault Refusal :=
  .next (seqPress newer s)

/-- UNWIND_END (R213). The reverse of step 0 completes; the current state is C and the pending target is taken as a
new request. -/
def execUnwindEnd (s : State) : Host.Outcome State Fault Refusal :=
  .next (seqUnwindEnd s)

/-- POWER_BUTTON_RELEASE (R217). PWRBTN_N stays high for PBDEB ms, and a release is decided. -/
def execPowerButtonRelease (s : State) : Host.Outcome State Fault Refusal :=
  .next (seqRelease s)

/-- LONG_PRESS (R217). The button stays pressed for PBLONG s, which is a long-press request for S5. -/
def execLongPress (s : State) : Host.Outcome State Fault Refusal :=
  .next (seqLong s)

/-- HARD_OFF (R218). The button stays pressed for PBHARD s; SEQ abandons everything, empties the queue and starts
HARDTRV. Operand: whether the selected record that it enters is registered on the edge of the trigger before it
(R461). -/
def execHardOff (s : State) (same : Bool := false) : Host.Outcome State Fault Refusal :=
  .next (onEdge same seqHard s)

/-- LID_DECISION (R219). LID is debounced for LIDDEB ms into an open or close decision, which may request S0.
Operands: the pin level decided; newer: whether a newer platform request is registered on the same edge (R215). -/
def execLidDecision (high : Bool) (s : State) (newer : Bool := false) : Host.Outcome State Fault Refusal :=
  .next (seqLid high newer s)

/-- WAKE_INPUT (R220). A WAKE0–WAKE3 input shows its wake level; SIS.WAKE sets and it may request S0. Operands: the
pin level; newer: whether a newer platform request is registered on the same edge (R215). -/
def execWakeInput (n : Fin 4) (s : State) (high : Bool := true) (newer : Bool := false) : Host.Outcome State Fault
    Refusal :=
  .next (seqWake n high newer s)

/-- SCUR_WRITE (R201). A write of SCUR records the current platform state while no traverse runs; otherwise it is not
performed. -/
def execScurWrite (e : Eng) (v : Byte) (s : State) : Host.Outcome State Fault Refusal :=
  .next (engWrite e 0x1006 1 v.toNat s)

/-- PSOUT_WRITE (R224). A write of PSOUT sets the rail states, unless a traverse runs, in which case BSTAT.ERR sets.
-/
def execPsoutWrite (e : Eng) (v : BitVec 32) (s : State) : Host.Outcome State Fault Refusal :=
  .next (engWrite e 0x1010 4 v.toNat s)

/-- SSTDAT_ACCESS (R225). An SSTDAT byte-3 access writes or reads a step-table entry and advances SSTSEL. Operand:
whether another master has read it on the same edge before (R38). -/
def execSstdatAccess (e : Eng) (w : Option (BitVec 32)) (s : State) (again : Bool := false) : Host.Outcome State Fault Refusal :=
  .next (engAccess e 0x1062 4 (w.map BitVec.toNat) s again)

end Sys2Proof.Machine
end

