-- ==== Sys2Proof/Machine/CmdSmb.lean ====
section
/-! DEFINITION. The meanings of the commands of the SMBus controllers: one definition per command, over the shared operations. -/

namespace Sys2Proof.Machine

/-- QUICK_COMMAND (R256). SMCMD GO with PROT 0x1 runs an SMBus Quick Command. -/
def execQuickCommand (e : Eng) (c : Fin 4) (s : State) : Host.Outcome State Fault Refusal :=
  .next (engWrite e (0x2402 + 0x40 * c.val) 1 0x11 s)

/-- SEND_BYTE (R256). SMCMD GO with PROT 0x2 runs Send Byte. -/
def execSendByte (e : Eng) (c : Fin 4) (s : State) : Host.Outcome State Fault Refusal :=
  .next (engWrite e (0x2402 + 0x40 * c.val) 1 0x21 s)

/-- RECEIVE_BYTE (R256). SMCMD GO with PROT 0x3 runs Receive Byte. -/
def execReceiveByte (e : Eng) (c : Fin 4) (s : State) : Host.Outcome State Fault Refusal :=
  .next (engWrite e (0x2402 + 0x40 * c.val) 1 0x31 s)

/-- WRITE_BYTE (R256). SMCMD GO with PROT 0x4 runs Write Byte. -/
def execWriteByte (e : Eng) (c : Fin 4) (s : State) : Host.Outcome State Fault Refusal :=
  .next (engWrite e (0x2402 + 0x40 * c.val) 1 0x41 s)

/-- WRITE_WORD (R256). SMCMD GO with PROT 0x5 runs Write Word. -/
def execWriteWord (e : Eng) (c : Fin 4) (s : State) : Host.Outcome State Fault Refusal :=
  .next (engWrite e (0x2402 + 0x40 * c.val) 1 0x51 s)

/-- READ_BYTE (R256). SMCMD GO with PROT 0x6 runs Read Byte. -/
def execReadByte (e : Eng) (c : Fin 4) (s : State) : Host.Outcome State Fault Refusal :=
  .next (engWrite e (0x2402 + 0x40 * c.val) 1 0x61 s)

/-- READ_WORD (R256). SMCMD GO with PROT 0x7 runs Read Word. -/
def execReadWord (e : Eng) (c : Fin 4) (s : State) : Host.Outcome State Fault Refusal :=
  .next (engWrite e (0x2402 + 0x40 * c.val) 1 0x71 s)

/-- PROCESS_CALL (R256). SMCMD GO with PROT 0x8 runs Process Call. -/
def execProcessCall (e : Eng) (c : Fin 4) (s : State) : Host.Outcome State Fault Refusal :=
  .next (engWrite e (0x2402 + 0x40 * c.val) 1 0x81 s)

/-- BLOCK_WRITE (R256). SMCMD GO with PROT 0x9 runs Block Write. -/
def execBlockWrite (e : Eng) (c : Fin 4) (s : State) : Host.Outcome State Fault Refusal :=
  .next (engWrite e (0x2402 + 0x40 * c.val) 1 0x91 s)

/-- BLOCK_READ (R256). SMCMD GO with PROT 0xA runs Block Read. -/
def execBlockRead (e : Eng) (c : Fin 4) (s : State) : Host.Outcome State Fault Refusal :=
  .next (engWrite e (0x2402 + 0x40 * c.val) 1 0xA1 s)

/-- BLOCK_WRITE_BLOCK_READ_PROCESS_CALL (R256). SMCMD GO with PROT 0xB runs Block Write–Block Read Process Call. -/
def execBlockWriteBlockReadProcessCall (e : Eng) (c : Fin 4) (s : State) : Host.Outcome State Fault Refusal :=
  .next (engWrite e (0x2402 + 0x40 * c.val) 1 0xB1 s)

/-- WRITE_32 (R256). SMCMD GO with PROT 0xC runs Write 32. -/
def execWrite32 (e : Eng) (c : Fin 4) (s : State) : Host.Outcome State Fault Refusal :=
  .next (engWrite e (0x2402 + 0x40 * c.val) 1 0xC1 s)

/-- READ_32 (R256). SMCMD GO with PROT 0xD runs Read 32. -/
def execRead32 (e : Eng) (c : Fin 4) (s : State) : Host.Outcome State Fault Refusal :=
  .next (engWrite e (0x2402 + 0x40 * c.val) 1 0xD1 s)

/-- WRITE_64 (R256). SMCMD GO with PROT 0xE runs Write 64. -/
def execWrite64 (e : Eng) (c : Fin 4) (s : State) : Host.Outcome State Fault Refusal :=
  .next (engWrite e (0x2402 + 0x40 * c.val) 1 0xE1 s)

/-- READ_64 (R256). SMCMD GO with PROT 0xF runs Read 64. -/
def execRead64 (e : Eng) (c : Fin 4) (s : State) : Host.Outcome State Fault Refusal :=
  .next (engWrite e (0x2402 + 0x40 * c.val) 1 0xF1 s)

/-- SMB_TRANSACTION_END (R257). An SMBus transaction ends; SMRES receives the result, BUSY clears and SMIS.DONE sets.
-/
def execSmbTransactionEnd (c : Fin 4) (ackA : Bool) (ackB : Bool) (acked : Nat) (rx : List Byte) (stuck : Bool) (s :
    State) : Host.Outcome State Fault Refusal :=
  .next (smbFinish c ackA ackB acked rx stuck s)

/-- ARB_LOST (R257). Another controller wins arbitration, and the controller releases the bus. -/
def execArbLost (c : Fin 4) (n : Byte) (s : State) : Host.Outcome State Fault Refusal :=
  .next (smbEarly c 3 n.toNat s)

/-- SMB_TIMEOUT (R257). Another device holds SCL low for 25 ms, and the transaction ends with TIMEOUT. -/
def execSmbTimeout (c : Fin 4) (n : Byte) (s : State) : Host.Outcome State Fault Refusal :=
  .next (smbEarly c 5 n.toNat s)

/-- SMABORT (R257). A write of SMABORT ends the transaction in progress with ABORTED. -/
def execSmabort (e : Eng) (c : Fin 4) (s : State) : Host.Outcome State Fault Refusal :=
  .next (engWrite e (0x240E + 0x40 * c.val) 1 1 s)

/-- HOST_NOTIFY (R258). A Host Notify to address 0x08 is received and stored, and SMIS.HNOTE sets. -/
def execHostNotify (c : Fin 4) (adr : Byte) (dat : Half) (s : State) : Host.Outcome State Fault Refusal :=
  .next (smbNotify c adr dat s)

/-- SMDAT_ACCESS (R259). An SMDAT access reads or writes a buffer byte and advances SMPTR. Operand: whether another
master has read it on the same edge before (R38). -/
def execSmdatAccess (e : Eng) (c : Fin 4) (w : Option Byte) (s : State) (again : Bool := false) : Host.Outcome State Fault Refusal :=
  .next (engAccess e (0x2407 + 0x40 * c.val) 1 (w.map BitVec.toNat) s again)

/-- SMB_BUS_BUSY (R259). An SMBus controller sees a START or STOP made by another controller on its bus, which sets
or clears SMSTAT.BUSBUSY. -/
def execSmbBusBusy (c : Fin 4) (start : Bool) (s : State) : Host.Outcome State Fault Refusal :=
  .next (smbBus c start s)

end Sys2Proof.Machine
end

