-- ==== Sys2Proof/Machine/CmdTha.lean ====
section
/-! DEFINITION. The meanings of the commands of temperatures, trips and fans: one definition per command, over the shared operations. -/

namespace Sys2Proof.Machine

/-- THA_ENABLE (R232). A write of TCTL.EN = 1 starts conversion rounds on edge 2. -/
def execThaEnable (e : Eng) (s : State) : Host.Outcome State Fault Refusal :=
  .next (engWrite e 0x1404 1 (1 + bAt s.tha.viewlive 1) s)

/-- CONVERSION_ROUND (R232). A THA conversion round starts every RPER µs, or WRPER ms in WATCH, and applies pending
configuration. -/
def execConversionRound (s : State) : Host.Outcome State Fault Refusal :=
  .next (thaRoundStart s)

/-- AN_RESOLVE (R236). Every AN reading of a round resolves on one edge, updating values and RCOUNT, forwarding LTIN
and checking stick wake. Operand: the voltage of each channel in µV. -/
def execAnResolve (uv : Vector Nat 16) (s : State) : Host.Outcome State Fault Refusal :=
  .next (thaAnResolve uv s)

/-- SENSOR_READING (R229). A 16-slot diode or on-die reading resolves, or is faulted. -/
def execSensorReading (src : Fin 9) (v1 : Nat) (v2 : Nat) (v3 : Nat) (die : Int) (s : State) : Host.Outcome State
    Fault Refusal :=
  .next (thaSensor src v1 v2 v3 die s)

/-- SENSOR_FAULT (R230). A second consecutive faulted diode reading makes the source invalid and logs SENSOR_FAULT.
-/
def execSensorFault (src : Fin 9) (s : State) : Host.Outcome State Fault Refusal :=
  .next (thaSensorFault src s)

/-- TRIP (R239). A trip entry reaches TRN consecutive readings or CK on the acting side, sets TRACT and drives its
trip lines. Operand: the input of an analog entry over the last TRN CK. Operand: whether the selected record that it
enters is registered on the edge of the trigger before it (R461). -/
def execTrip (n : Fin 8) (s : State) (x : Int := 0) (same : Bool := false) : Host.Outcome State Fault Refusal :=
  .next (onEdge same (thaTrip n x) s)

/-- TRIP_CLEAR (R240). An active trip entry with LATCH = 0 meets its release condition for TRN readings or CK, and
its TRACT bit clears. Operand: the input of an analog entry over the last TRN CK. -/
def execTripClear (n : Fin 8) (s : State) (x : Int := 0) : Host.Outcome State Fault Refusal :=
  .next (thaTripClear n x s)

/-- TRACT_CLEAR (R240). A W1C of a latched TRACT bit clears it only if the release condition holds. Operand: the
inputs of the analog entries over the last TRN CK. -/
def execTractClear (e : Eng) (mask : Byte) (ins : Vector Int 4) (s : State) : Host.Outcome State Fault Refusal :=
  .next (tractPut e mask.toNat ins s)

/-- VT_WRITE (R234). A write of TVT or THERMVAL sets a virtual sensor, or invalidates it with 0x8000. -/
def execVtWrite (m : Mst) (n : Fin 4) (v : Half) (s : State) : Host.Outcome State Fault Refusal :=
  .next (vtPut m n v.toNat s)

/-- VT_STALE (R234). A VT has not been written for VTSTALE × 100 ms; it becomes invalid and VT_STALE is logged. -/
def execVtStale (n : Fin 4) (s : State) : Host.Outcome State Fault Refusal :=
  .next (vtStale n s)

/-- FAN_CURVE_UPDATE (R245). Every FUPD × 10 ms, a fan evaluates its curve and loop and sets its duty. -/
def execFanCurveUpdate (n : Fin 4) (s : State) : Host.Outcome State Fault Refusal :=
  .next (fanUpdate n s)

/-- TACH_EDGE (R243). An accepted FTACH falling edge ends an interval and updates the fan speed. -/
def execTachEdge (n : Fin 4) (ck : Nat) (spans : Bool) (s : State) : Host.Outcome State Fault Refusal :=
  .next (if s.gpio.viom then fanTach n ck spans s else s)

/-- FAN_SPEED_ZERO (R243). No falling edge has been accepted for 1 s, and the speed reads 0. -/
def execFanSpeedZero (n : Fin 4) (s : State) : Host.Outcome State Fault Refusal :=
  .next (fanZero n s)

/-- FAN_STALL (R244). The speed reads 0 for STALLT × 100 ms at duty ≥ STALLD; the stall is logged and a kick may
start. -/
def execFanStall (n : Fin 4) (s : State) : Host.Outcome State Fault Refusal :=
  .next (fanStall n s)

/-- FAN_KICK_END (R244). A 2-s kick at 100% ends, and the stall timer restarts. -/
def execFanKickEnd (n : Fin 4) (s : State) : Host.Outcome State Fault Refusal :=
  .next (fanKickEnd n s)

/-- FAN_PWM_PERIOD (R242). A fan's 25 kHz PWM period starts and the new duty, or a tripped fan's own duty after the
trip line falls, takes effect. -/
def execFanPwmPeriod (n : Fin 4) (s : State) : Host.Outcome State Fault Refusal :=
  .next (fanPwm n s)

/-- FANVAL_WRITE (R250). A write of FANVAL with ITEM 4 sets or clears a fan's override; any other write is refused.
-/
def execFanvalWrite (p : Port) (priv : Bool) (v : Half) (s : State) : Host.Outcome State Fault Refusal :=
  .next (hostWrite p priv 0x21 v.toNat s)

/-- FAN_CURVE_ACCESS (R252). An FCV high-byte access writes or reads a curve point and advances FCSEL. Operand:
whether another master has read it on the same edge before (R38). -/
def execFanCurveAccess (e : Eng) (w : Option Half) (s : State) (again : Bool := false) : Host.Outcome State Fault Refusal :=
  .next (engAccess e 0x14F2 2 (w.map BitVec.toNat) s again)

end Sys2Proof.Machine
end

