-- ==== Sys2Proof/Machine/Dispatch.lean ====
section
/-! DEFINITION. exec: one arm per command. -/

namespace Sys2Proof.Machine

def exec (i : Instr) (s : State) : Host.Outcome State Fault Refusal :=
  match i with
  | .registerWrite m adr v same => Sys2Proof.Machine.execRegisterWrite m adr v s same
  | .writeOverrun p off => Sys2Proof.Machine.execWriteOverrun p off s
  | .strobeConflict p off wr => Sys2Proof.Machine.execStrobeConflict p off wr s
  | .commit e b same => Sys2Proof.Machine.execCommit e b s same
  | .commitApply b => Sys2Proof.Machine.execCommitApply b s
  | .resetSequence last ringBad nvmBad => Sys2Proof.Machine.execResetSequence s last ringBad nvmBad
  | .pllLoss same => Sys2Proof.Machine.execPllLoss s same
  | .pllRestart failed => Sys2Proof.Machine.execPllRestart failed s
  | .relock e => Sys2Proof.Machine.execRelock e s
  | .keySample sense rise low newer => Sys2Proof.Machine.execKeySample sense rise low s newer
  | .sndgo e => Sys2Proof.Machine.execSndgo e s
  | .scanStart e => Sys2Proof.Machine.execScanStart e s
  | .scanStopRequest e => Sys2Proof.Machine.execScanStopRequest e s
  | .encoderEdge n a b newer => Sys2Proof.Machine.execEncoderEdge n a b s newer
  | .enczero e mask => Sys2Proof.Machine.execEnczero e mask s
  | .encposRead p priv => Sys2Proof.Machine.execEncposRead p priv s
  | .enccntRead e n => Sys2Proof.Machine.execEnccntRead e n s
  | .encerrRead e again => Sys2Proof.Machine.execEncerrRead e s again
  | .freeze p priv => Sys2Proof.Machine.execFreeze p priv s
  | .keywinRead p priv => Sys2Proof.Machine.execKeywinRead p priv s
  | .keyprovRead p priv => Sys2Proof.Machine.execKeyprovRead p priv s
  | .kevdatRead e again => Sys2Proof.Machine.execKevdatRead e s again
  | .lineSlotStart low high opens shorts gap => Sys2Proof.Machine.execLineSlotStart low high opens shorts s gap
  | .ledFault n => Sys2Proof.Machine.execLedFault n s
  | .headroom c => Sys2Proof.Machine.execHeadroom c s
  | .railFault c same => Sys2Proof.Machine.execRailFault c s same
  | .railFaultClear e => Sys2Proof.Machine.execRailFaultClear e s
  | .stringOpen n same => Sys2Proof.Machine.execStringOpen n s same
  | .lightingRun e => Sys2Proof.Machine.execLightingRun e s
  | .lightingStopRequest e => Sys2Proof.Machine.execLightingStopRequest e s
  | .liteNone m => Sys2Proof.Machine.execLiteNone m s
  | .liteCommit m => Sys2Proof.Machine.execLiteCommit m s
  | .commitLocal m => Sys2Proof.Machine.execCommitLocal m s
  | .blank m => Sys2Proof.Machine.execBlank m s
  | .unblank m => Sys2Proof.Machine.execUnblank m s
  | .copybackComplete n => Sys2Proof.Machine.execCopybackComplete s n
  | .lixdatWrite e v => Sys2Proof.Machine.execLixdatWrite e v s
  | .lixdatRead e again => Sys2Proof.Machine.execLixdatRead e s again
  | .faultMapClear e => Sys2Proof.Machine.execFaultMapClear e s
  | .ltinWrite e v => Sys2Proof.Machine.execLtinWrite e v s
  | .lsyncPulse low off => Sys2Proof.Machine.execLsyncPulse low off s
  | .periodStart x d on => Sys2Proof.Machine.execPeriodStart x d on s
  | .telemetryInterval t => Sys2Proof.Machine.execTelemetryInterval t s
  | .tbatConversion y => Sys2Proof.Machine.execTbatConversion y s
  | .tmrlatchClear e => Sys2Proof.Machine.execTmrlatchClear e s
  | .cellOv c v same => Sys2Proof.Machine.execCellOv c v s same
  | .ovpClear e cells => Sys2Proof.Machine.execOvpClear e s cells
  | .chargerEnable e on => Sys2Proof.Machine.execChargerEnable e on s
  | .acgOn vin => Sys2Proof.Machine.execAcgOn vin s
  | .inputAttach vin => Sys2Proof.Machine.execInputAttach vin s
  | .inputLost rev => Sys2Proof.Machine.execInputLost rev s
  | .inputOv vin same => Sys2Proof.Machine.execInputOv vin s same
  | .battRemoved rise bid vsys same ended => Sys2Proof.Machine.execBattRemoved rise bid vsys s same ended
  | .battInserted pack => Sys2Proof.Machine.execBattInserted pack s
  | .rbgo e => Sys2Proof.Machine.execRbgo e s
  | .rbstop e => Sys2Proof.Machine.execRbstop e s
  | .lfmgo e => Sys2Proof.Machine.execLfmgo e s
  | .chgselHold p priv => Sys2Proof.Machine.execChgselHold p priv s
  | .platformRequest tgt src newer => Sys2Proof.Machine.execPlatformRequest tgt src s newer
  | .stepWaitpg pins => Sys2Proof.Machine.execStepWaitpg pins s
  | .waitpgComplete pins => Sys2Proof.Machine.execWaitpgComplete pins s
  | .pgTimeout same => Sys2Proof.Machine.execPgTimeout s same
  | .pgLost n pins same => Sys2Proof.Machine.execPgLost n pins s same
  | .unwindReverseStep pins => Sys2Proof.Machine.execUnwindReverseStep pins s
  | .powerButtonPress newer => Sys2Proof.Machine.execPowerButtonPress s newer
  | .hardOff same => Sys2Proof.Machine.execHardOff s same
  | .lidDecision high newer => Sys2Proof.Machine.execLidDecision high s newer
  | .wakeInput n high newer => Sys2Proof.Machine.execWakeInput n s high newer
  | .scurWrite e v => Sys2Proof.Machine.execScurWrite e v s
  | .psoutWrite e v => Sys2Proof.Machine.execPsoutWrite e v s
  | .thaEnable e => Sys2Proof.Machine.execThaEnable e s
  | .anResolve uv => Sys2Proof.Machine.execAnResolve uv s
  | .sensorReading src v1 v2 v3 die => Sys2Proof.Machine.execSensorReading src v1 v2 v3 die s
  | .sensorFault src => Sys2Proof.Machine.execSensorFault src s
  | .trip n x same => Sys2Proof.Machine.execTrip n s x same
  | .tripClear n x => Sys2Proof.Machine.execTripClear n s x
  | .tractClear e mask ins => Sys2Proof.Machine.execTractClear e mask ins s
  | .vtWrite m n v => Sys2Proof.Machine.execVtWrite m n v s
  | .vtStale n => Sys2Proof.Machine.execVtStale n s
  | .fanCurveUpdate n => Sys2Proof.Machine.execFanCurveUpdate n s
  | .tachEdge n ck spans => Sys2Proof.Machine.execTachEdge n ck spans s
  | .fanStall n => Sys2Proof.Machine.execFanStall n s
  | .fanvalWrite p priv v => Sys2Proof.Machine.execFanvalWrite p priv v s
  | .quickCommand e c => Sys2Proof.Machine.execQuickCommand e c s
  | .sendByte e c => Sys2Proof.Machine.execSendByte e c s
  | .receiveByte e c => Sys2Proof.Machine.execReceiveByte e c s
  | .writeByte e c => Sys2Proof.Machine.execWriteByte e c s
  | .writeWord e c => Sys2Proof.Machine.execWriteWord e c s
  | .readByte e c => Sys2Proof.Machine.execReadByte e c s
  | .readWord e c => Sys2Proof.Machine.execReadWord e c s
  | .processCall e c => Sys2Proof.Machine.execProcessCall e c s
  | .blockWrite e c => Sys2Proof.Machine.execBlockWrite e c s
  | .blockRead e c => Sys2Proof.Machine.execBlockRead e c s
  | .write32 e c => Sys2Proof.Machine.execWrite32 e c s
  | .read32 e c => Sys2Proof.Machine.execRead32 e c s
  | .smbTransactionEnd c ackA ackB acked rx stuck => Sys2Proof.Machine.execSmbTransactionEnd c ackA ackB acked rx stuck s
  | .arbLost c n => Sys2Proof.Machine.execArbLost c n s
  | .smbTimeout c n => Sys2Proof.Machine.execSmbTimeout c n s
  | .smabort e c => Sys2Proof.Machine.execSmabort e c s
  | .smdatAccess e c w again => Sys2Proof.Machine.execSmdatAccess e c w s again
  | .portPowered p v18 => Sys2Proof.Machine.execPortPowered p v18 s
  | .portUnpowered p => Sys2Proof.Machine.execPortUnpowered p s
  | .prst p priv => Sys2Proof.Machine.execPrst p priv s
  | .hintsClear p priv inte v => Sys2Proof.Machine.execHintsClear p priv inte v s
  | .errinfoRead p priv => Sys2Proof.Machine.execErrinfoRead p priv s
  | .mbselWrite p priv v => Sys2Proof.Machine.execMbselWrite p priv v s
  | .mbdataRead p priv => Sys2Proof.Machine.execMbdataRead p priv s
  | .mbdataWrite p priv v => Sys2Proof.Machine.execMbdataWrite p priv v s
  | .mailboxSend p priv len => Sys2Proof.Machine.execMailboxSend p priv len s
  | .mailboxRelease p priv sent => Sys2Proof.Machine.execMailboxRelease p priv s sent
  | .dbset p priv k => Sys2Proof.Machine.execDbset p priv k s
  | .dbclr p priv k => Sys2Proof.Machine.execDbclr p priv k s
  | .dbclrAll p priv => Sys2Proof.Machine.execDbclrAll p priv s
  | .lockAcquire m others => Sys2Proof.Machine.execLockAcquire m others s
  | .lockRelease m l => Sys2Proof.Machine.execLockRelease m l s
  | .refcntAccess p priv w => Sys2Proof.Machine.execRefcntAccess p priv w s
  | .rfclr e => Sys2Proof.Machine.execRfclr e s
  | .fbwinRead p priv => Sys2Proof.Machine.execFbwinRead p priv s
  | .fewinRead e again => Sys2Proof.Machine.execFewinRead e s again
  | .fieldBookClear m v same => Sys2Proof.Machine.execFieldBookClear m v s same
  | .fieldBookRecord src typ pay same => Sys2Proof.Machine.execFieldBookRecord src typ pay s same
  | .writeThrough ok1 ok2 floor => Sys2Proof.Machine.execWriteThrough ok1 ok2 s floor
  | .firmwareRecord e => Sys2Proof.Machine.execFirmwareRecord e s
  | .snapshotTrigger m same => Sys2Proof.Machine.execSnapshotTrigger m s same
  | .snapPin same => Sys2Proof.Machine.execSnapPin s same
  | .svrel e => Sys2Proof.Machine.execSvrel e s
  | .snapwinRead p priv => Sys2Proof.Machine.execSnapwinRead p priv s
  | .svdatRead e again => Sys2Proof.Machine.execSvdatRead e s again
  | .svmissRead e again => Sys2Proof.Machine.execSvmissRead e s again
  | .rtcHold m => Sys2Proof.Machine.execRtcHold m s
  | .rtcLoad m => Sys2Proof.Machine.execRtcLoad m s
  | .rtcWrite m n v => Sys2Proof.Machine.execRtcWrite m n v s
  | .windatRead p priv again => Sys2Proof.Machine.execWindatRead p priv s again
  | .windatWrite p priv v same => Sys2Proof.Machine.execWindatWrite p priv v s same
  | .hpsvcWrite e v => Sys2Proof.Machine.execHpsvcWrite e v s
  | .echselWrite e v => Sys2Proof.Machine.execEchselWrite e v s
  | .embdatRead e again => Sys2Proof.Machine.execEmbdatRead e s again
  | .engineSend e len ring => Sys2Proof.Machine.execEngineSend e len ring s
  | .engineRelease e sent => Sys2Proof.Machine.execEngineRelease e s sent
  | .ack e => Sys2Proof.Machine.execAck e s
  | .rolemapWrite e role v => Sys2Proof.Machine.execRolemapWrite e role v s
  | .edbset e p k => Sys2Proof.Machine.execEdbset e p k s
  | .edbclr e p all k => Sys2Proof.Machine.execEdbclr e p all k s
  | .xsig e mask => Sys2Proof.Machine.execXsig e mask s
  | .interruptAccept e word => Sys2Proof.Machine.execInterruptAccept e word s
  | .waitResume e word => Sys2Proof.Machine.execWaitResume e word s
  | .watchdogEnable e warn => Sys2Proof.Machine.execWatchdogEnable e warn s
  | .watchdogKick e v => Sys2Proof.Machine.execWatchdogKick e v s
  | .watchdogWarning e => Sys2Proof.Machine.execWatchdogWarning e s
  | .watchdogExpiry e same => Sys2Proof.Machine.execWatchdogExpiry e s same
  | .timerStart e n periodic pre => Sys2Proof.Machine.execTimerStart e n periodic pre s
  | .timerExpiry e n => Sys2Proof.Machine.execTimerExpiry e n s
  | .cxNop e => Sys2Proof.Machine.execCxNop e s
  | .cxAdd e d a b => Sys2Proof.Machine.execCxAdd e d a b s
  | .cxSub e d a b => Sys2Proof.Machine.execCxSub e d a b s
  | .cxAddc e d a b x => Sys2Proof.Machine.execCxAddc e d a b x s
  | .cxSubc e d a b x => Sys2Proof.Machine.execCxSubc e d a b x s
  | .cxCarry e d a b => Sys2Proof.Machine.execCxCarry e d a b s
  | .cxCarryc e d a b x => Sys2Proof.Machine.execCxCarryc e d a b x s
  | .cxBorrow e d a b => Sys2Proof.Machine.execCxBorrow e d a b s
  | .cxBorrowc e d a b x => Sys2Proof.Machine.execCxBorrowc e d a b x s
  | .cxAnd e d a b => Sys2Proof.Machine.execCxAnd e d a b s
  | .cxOr e d a b => Sys2Proof.Machine.execCxOr e d a b s
  | .cxXor e d a b => Sys2Proof.Machine.execCxXor e d a b s
  | .cxShl e d a b => Sys2Proof.Machine.execCxShl e d a b s
  | .cxShr e d a b => Sys2Proof.Machine.execCxShr e d a b s
  | .cxSar e d a b => Sys2Proof.Machine.execCxSar e d a b s
  | .cxMull e d a b => Sys2Proof.Machine.execCxMull e d a b s
  | .cxMulh e d a b => Sys2Proof.Machine.execCxMulh e d a b s
  | .cxSeq e d a b => Sys2Proof.Machine.execCxSeq e d a b s
  | .cxSltu e d a b => Sys2Proof.Machine.execCxSltu e d a b s
  | .cxSlts e d a b => Sys2Proof.Machine.execCxSlts e d a b s
  | .cxAddd e d a b => Sys2Proof.Machine.execCxAddd e d a b s
  | .cxSubd e d a b => Sys2Proof.Machine.execCxSubd e d a b s
  | .cxDcar e d a b => Sys2Proof.Machine.execCxDcar e d a b s
  | .cxDaa e d a => Sys2Proof.Machine.execCxDaa e d a s
  | .cxAddi e d a k => Sys2Proof.Machine.execCxAddi e d a k s
  | .cxAndi e d a k => Sys2Proof.Machine.execCxAndi e d a k s
  | .cxOri e d a k => Sys2Proof.Machine.execCxOri e d a k s
  | .cxXori e d a k => Sys2Proof.Machine.execCxXori e d a k s
  | .cxShli e d a n => Sys2Proof.Machine.execCxShli e d a n s
  | .cxShri e d a n => Sys2Proof.Machine.execCxShri e d a n s
  | .cxSari e d a n => Sys2Proof.Machine.execCxSari e d a n s
  | .cxSeqi e d a k => Sys2Proof.Machine.execCxSeqi e d a k s
  | .cxSltiu e d a k => Sys2Proof.Machine.execCxSltiu e d a k s
  | .cxMovi e d k => Sys2Proof.Machine.execCxMovi e d k s
  | .cxAddp e d a k => Sys2Proof.Machine.execCxAddp e d a k s
  | .cxMfs e r => Sys2Proof.Machine.execCxMfs e r s
  | .cxMts e r => Sys2Proof.Machine.execCxMts e r s
  | .cxLd e d p disp => Sys2Proof.Machine.execCxLd e d p disp s
  | .cxSt e d p disp => Sys2Proof.Machine.execCxSt e d p disp s
  | .cxLdp e d p disp => Sys2Proof.Machine.execCxLdp e d p disp s
  | .cxStp e d p disp => Sys2Proof.Machine.execCxStp e d p disp s
  | .cxMvb e a b => Sys2Proof.Machine.execCxMvb e a b s
  | .cxIld e d p sel => Sys2Proof.Machine.execCxIld e d p sel s
  | .cxIst e d p sel => Sys2Proof.Machine.execCxIst e d p sel s
  | .cxIn e d port again => Sys2Proof.Machine.execCxIn e d port s again
  | .cxOut e d port same => Sys2Proof.Machine.execCxOut e d port s same
  | .cxInr e d p disp again => Sys2Proof.Machine.execCxInr e d p disp s again
  | .cxOutr e d p disp same => Sys2Proof.Machine.execCxOutr e d p disp s same
  | .cxBeq e a b off => Sys2Proof.Machine.execCxBeq e a b off s
  | .cxBne e a b off => Sys2Proof.Machine.execCxBne e a b off s
  | .cxBltu e a b off => Sys2Proof.Machine.execCxBltu e a b off s
  | .cxBgeu e a b off => Sys2Proof.Machine.execCxBgeu e a b off s
  | .cxBlts e a b off => Sys2Proof.Machine.execCxBlts e a b off s
  | .cxBges e a b off => Sys2Proof.Machine.execCxBges e a b off s
  | .cxBeqi e a k off => Sys2Proof.Machine.execCxBeqi e a k off s
  | .cxBnei e a k off => Sys2Proof.Machine.execCxBnei e a k off s
  | .cxJmp e k => Sys2Proof.Machine.execCxJmp e k s
  | .cxCall e k => Sys2Proof.Machine.execCxCall e k s
  | .cxJr e p => Sys2Proof.Machine.execCxJr e p s
  | .cxCallr e p => Sys2Proof.Machine.execCxCallr e p s
  | .cxRet e => Sys2Proof.Machine.execCxRet e s
  | .cxTrap e k => Sys2Proof.Machine.execCxTrap e k s
  | .cxRett e => Sys2Proof.Machine.execCxRett e s
  | .cxWait e => Sys2Proof.Machine.execCxWait e s
  | .cxSnap e same => Sys2Proof.Machine.execCxSnap e s same
  | .cxRep e k next => Sys2Proof.Machine.execCxRep e k next s
  | .cxRepu e k next => Sys2Proof.Machine.execCxRepu e k next s
  | .cxRepCnt e next => Sys2Proof.Machine.execCxRepCnt e next s
  | .cxRepuCnt e next => Sys2Proof.Machine.execCxRepuCnt e next s
  | .cpygo e mask => Sys2Proof.Machine.execCpygo e mask s
  | .cpystop e mask => Sys2Proof.Machine.execCpystop e mask s
  | .erst e v => Sys2Proof.Machine.execErst e v s
  | .roleLoadComplete e => Sys2Proof.Machine.execRoleLoadComplete e s
  | .recoveryCheck p priv => Sys2Proof.Machine.execRecoveryCheck p priv s
  | .prtixdatAccess e w again => Sys2Proof.Machine.execPrtixdatAccess e w s again
  | .flashErase e => Sys2Proof.Machine.execFlashErase e s
  | .flashProgram e => Sys2Proof.Machine.execFlashProgram e s
  | .svnAdvance e => Sys2Proof.Machine.execSvnAdvance e s
  | .flashCommandDone ok => Sys2Proof.Machine.execFlashCommandDone ok s
  | .fldatAccess e w again => Sys2Proof.Machine.execFldatAccess e w s again
  | .modeRequestRun m newer => Sys2Proof.Machine.execModeRequestRun m s newer
  | .modeRequestWatch m newer => Sys2Proof.Machine.execModeRequestWatch m s newer
  | .modeRequestShip m newer => Sys2Proof.Machine.execModeRequestShip m s newer
  | .modeRefused rdy drain same => Sys2Proof.Machine.execModeRefused rdy drain s same
  | .shipWake n => Sys2Proof.Machine.execShipWake n s
  | .domainRequestOn e d => Sys2Proof.Machine.execDomainRequestOn e d s
  | .domainRequestOff e d => Sys2Proof.Machine.execDomainRequestOff e d s
  | .planStepUp e n => Sys2Proof.Machine.execPlanStepUp e n s
  | .planStepDown e n => Sys2Proof.Machine.execPlanStepDown e n s
  | .restoreClose e => Sys2Proof.Machine.execRestoreClose e s
  | .bboundWrite e v => Sys2Proof.Machine.execBboundWrite e v s
  | .monitorUpdate slack mv t => Sys2Proof.Machine.execMonitorUpdate slack mv t s
  | .gpioInputChange v => Sys2Proof.Machine.execGpioInputChange v s
  | .chainShift ltdi => Sys2Proof.Machine.execChainShift ltdi s
  | .testPortReset low => Sys2Proof.Machine.execTestPortReset s low
  | .registerRead m adr again => Sys2Proof.Machine.execRegisterRead m adr s again
  | .fanPwmPeriod n => Sys2Proof.Machine.execFanPwmPeriod n s
  | .chipSelectChange p low => Sys2Proof.Machine.execChipSelectChange p low s
  | .writeStrobeFalling p left => Sys2Proof.Machine.execWriteStrobeFalling p left s
  | .undefinedOpcode e word => Sys2Proof.Machine.execUndefinedOpcode e word s
  | .fetch e => Sys2Proof.Machine.execFetch e s
  | .deviceResetCommand e => Sys2Proof.Machine.execDeviceResetCommand e s
  | .katldatAccess e w again => Sys2Proof.Machine.execKatldatAccess e w s again
  | .stringShort n same => Sys2Proof.Machine.execStringShort n s same
  | .stageFaultClear e shorts mask => Sys2Proof.Machine.execStageFaultClear e shorts mask s
  | .cellUv c v => Sys2Proof.Machine.execCellUv c v s
  | .battRemovedSecond ck same => Sys2Proof.Machine.execBattRemovedSecond ck s same
  | .lossFloorDone ron qg => Sys2Proof.Machine.execLossFloorDone ron qg s
  | .contourTableAccess e w again => Sys2Proof.Machine.execContourTableAccess e w s again
  | .sstdatAccess e w again => Sys2Proof.Machine.execSstdatAccess e w s again
  | .fanSpeedZero n => Sys2Proof.Machine.execFanSpeedZero n s
  | .fanKickEnd n => Sys2Proof.Machine.execFanKickEnd n s
  | .fanCurveAccess e w again => Sys2Proof.Machine.execFanCurveAccess e w s again
  | .blockWriteBlockReadProcessCall e c => Sys2Proof.Machine.execBlockWriteBlockReadProcessCall e c s
  | .write64 e c => Sys2Proof.Machine.execWrite64 e c s
  | .read64 e c => Sys2Proof.Machine.execRead64 e c s
  | .hostNotify c adr dat => Sys2Proof.Machine.execHostNotify c adr dat s
  | .lkforce e l => Sys2Proof.Machine.execLkforce e l s
  | .bankSupplyChange b up => Sys2Proof.Machine.execBankSupplyChange b up s
  | .testPortClock tms _tdi ir => Sys2Proof.Machine.execTestPortClock tms _tdi s ir
  | .smbBusBusy c start => Sys2Proof.Machine.execSmbBusBusy c start s
  | .powerOnReset => Sys2Proof.Machine.execPowerOnReset s
  | .resetPin => Sys2Proof.Machine.execResetPin s
  | .brownout => Sys2Proof.Machine.execBrownout s
  | .xfail => Sys2Proof.Machine.execXfail s
  | .pllLock => Sys2Proof.Machine.execPllLock s
  | .fallbackReturn => Sys2Proof.Machine.execFallbackReturn s
  | .ckSourceChange => Sys2Proof.Machine.execCkSourceChange s
  | .soundingPeriodExpiry => Sys2Proof.Machine.execSoundingPeriodExpiry s
  | .soundingRunStart => Sys2Proof.Machine.execSoundingRunStart s
  | .soundingRunEnd => Sys2Proof.Machine.execSoundingRunEnd s
  | .scanStop => Sys2Proof.Machine.execScanStop s
  | .slowFrameStart => Sys2Proof.Machine.execSlowFrameStart s
  | .lgtFrameBoundary => Sys2Proof.Machine.execLgtFrameBoundary s
  | .lightingStop => Sys2Proof.Machine.execLightingStop s
  | .swap => Sys2Proof.Machine.execSwap s
  | .tstale => Sys2Proof.Machine.execTstale s
  | .lsyncLost => Sys2Proof.Machine.execLsyncLost s
  | .syncflt => Sys2Proof.Machine.execSyncflt s
  | .chainNop => Sys2Proof.Machine.execChainNop s
  | .chainWrite => Sys2Proof.Machine.execChainWrite s
  | .chainFill => Sys2Proof.Machine.execChainFill s
  | .chainCommit => Sys2Proof.Machine.execChainCommit s
  | .chainBlank => Sys2Proof.Machine.execChainBlank s
  | .chainUnblank => Sys2Proof.Machine.execChainUnblank s
  | .chainStart same => Sys2Proof.Machine.execChainStart s same
  | .chainRead => Sys2Proof.Machine.execChainRead s
  | .chainReserved => Sys2Proof.Machine.execChainReserved s
  | .peakCurrentLimit ended => Sys2Proof.Machine.execPeakCurrentLimit s ended
  | .ntcFault => Sys2Proof.Machine.execNtcFault s
  | .ntcRecovery => Sys2Proof.Machine.execNtcRecovery s
  | .chargeDone => Sys2Proof.Machine.execChargeDone s
  | .recharge => Sys2Proof.Machine.execRecharge s
  | .safetyTimerTick => Sys2Proof.Machine.execSafetyTimerTick s
  | .safetyTimerExpiry => Sys2Proof.Machine.execSafetyTimerExpiry s
  | .preTimeout => Sys2Proof.Machine.execPreTimeout s
  | .batgReconnect => Sys2Proof.Machine.execBatgReconnect s
  | .rbStart => Sys2Proof.Machine.execRbStart s
  | .rbBackdrive => Sys2Proof.Machine.execRbBackdrive s
  | .rbOverload => Sys2Proof.Machine.execRbOverload s
  | .lossFloorAuto => Sys2Proof.Machine.execLossFloorAuto s
  | .lossBound => Sys2Proof.Machine.execLossBound s
  | .stepEnd => Sys2Proof.Machine.execStepEnd s
  | .stepSet => Sys2Proof.Machine.execStepSet s
  | .stepSetg => Sys2Proof.Machine.execStepSetg s
  | .stepDelay => Sys2Proof.Machine.execStepDelay s
  | .stepWatch => Sys2Proof.Machine.execStepWatch s
  | .stepCommit => Sys2Proof.Machine.execStepCommit s
  | .stepMark => Sys2Proof.Machine.execStepMark s
  | .unwindEnd => Sys2Proof.Machine.execUnwindEnd s
  | .powerButtonRelease => Sys2Proof.Machine.execPowerButtonRelease s
  | .longPress => Sys2Proof.Machine.execLongPress s
  | .conversionRound => Sys2Proof.Machine.execConversionRound s
  | .fbkOverflow => Sys2Proof.Machine.execFbkOverflow s
  | .copyJobBegin => Sys2Proof.Machine.execCopyJobBegin s
  | .copyJobEnd => Sys2Proof.Machine.execCopyJobEnd s
  | .deviceBoot => Sys2Proof.Machine.execDeviceBoot s
  | .prtseal => Sys2Proof.Machine.execPrtseal s
  | .gatherStart => Sys2Proof.Machine.execGatherStart s
  | .modeCommit => Sys2Proof.Machine.execModeCommit s
  | .watchEntryComplete => Sys2Proof.Machine.execWatchEntryComplete s
  | .shipEnter => Sys2Proof.Machine.execShipEnter s
  | .domainStageReady own => Sys2Proof.Machine.execDomainStageReady s own
  | .d7Forced => Sys2Proof.Machine.execD7Forced s
  | .wakeDecision => Sys2Proof.Machine.execWakeDecision s
  | .wakeTimer => Sys2Proof.Machine.execWakeTimer s
  | .wakeComplete => Sys2Proof.Machine.execWakeComplete s
  | .wakeFallback same => Sys2Proof.Machine.execWakeFallback s same
  | .stressUpdate run => Sys2Proof.Machine.execStressUpdate s run
  | .runhUpdate => Sys2Proof.Machine.execRunhUpdate s
  | .rtcTick => Sys2Proof.Machine.execRtcTick s

end Sys2Proof.Machine
end

