-- ==== Sys2Proof/Safety.lean ====
section
/-! DEFINITION. What the claims about the block are stated in: commands that complete, accesses that pass their checks,
an engine that executes, the rows of the instruction groups, and states whose memories are in canonical form. -/

namespace Sys2Proof.Machine

/-- The next step completes. -/
def Completes (s : State) : Prop := ∃ t, step s = .next t

/-- The command completes, in a state of which P holds. -/
def Does (c : Instr) (s : State) (P : State → Prop) : Prop := ∃ t, exec c s = .next t ∧ P t

/-- A memory in canonical form: addresses strictly rising, and no entry equal to what an unlisted address reads as. -/
abbrev Memory.wf (d : BitVec 8) (m : List Host.Cell) : Bool := spWf (fun _ => d) m

/-- SHM and every local data memory read 0 where nothing is listed, the flash 0xFF (R379, R416). -/
abbrev State.MemWf (s : State) : Prop :=
  Memory.wf 0 s.shm = true ∧ (∀ e : Fin 6, Memory.wf 0 s.emem[e].dmem = true) ∧ Memory.wf 0xFF s.fls.mem = true

/-! ### Accesses -/

/-- Engine e executes, no bad kick before it is about to stop it (R343), no OUT to ECTL or IRQEN stands just before (R335; the
boundary after it being past is the one thing that an access then changes besides), and its access at I/O address a passes the
checks of R320 that PRT and the domains make. -/
abbrev EngMay (s : State) (e : Eng) (a : Nat) (wr : Bool) : Prop :=
  engRuns s e = true ∧ ioDenied s e a wr = false ∧ ioOff s e a = false ∧ s.eng[e].badKick = false ∧ s.eng[e].gov = none

/-- Port p serves accesses, and its access at a window offset passes the checks of R273. -/
abbrev PortMay (s : State) (p : Port) (priv : Bool) (off : Nat) (wr : Bool) : Prop :=
  portServes s p = true ∧ portCheck s p priv off wr = 0

/-- s with other latches, held bytes and read results in the I/O fabric (R13). -/
def withIo (x : IoBuf) (s : State) : State := { s with io := x }

/-- Two reads of one register on one edge (R38): engine e's read gives v and leaves t, and engine n's later one gives v too, with no
further effect. The read latches and read results of the I/O fabric apart. -/
def ReadBoth (i : Eng → Bool → Instr) (e n : Eng) (v : Nat) (s t : State) : Prop :=
  ∃ y z, exec (i e false) s = .next (withIo y t) ∧ y.rd[e] = v ∧ exec (i n true) (withIo y t) = .next (withIo z t) ∧ z.rd[n] = v

/-! ### Cerxa -/

/-- Engine e issues the instruction at its PC and goes on: its domain is on, it runs, the word is not fetched from 0x4000 or above
(R321, R345), and the instruction before was no bad kick, whose stop would follow this one (R343). -/
abbrev CxReady (s : State) (e : Eng) : Prop :=
  domOn s (engDom e.val) = true ∧ s.eng[e].run = .running ∧ s.eng[e].pc < 0x4000 ∧ s.eng[e].badKick = false

/-- Neither in a delay slot nor in a repeat (R331, R368). -/
abbrev CxFree (s : State) (e : Eng) : Prop := s.eng[e].ds = none ∧ s.eng[e].rep = none

/-- The instruction changes its engine by f and goes on to the next instruction; nothing else changes. -/
def cxAfter (e : Eng) (f : Ceng → Ceng) (s : State) : State :=
  putEng e (retire { f (pastGov s.eng[e]) with resume := none }) s

end Sys2Proof.Machine
end

