-- ==== Sys2Proof/Certificates/Slice0/Obligations.lean ====
section
/-! DEFINITION. What is claimed of the block. Each statement names the rules of spec/ it follows; a clause about a next state
says what that state is, and a clause about a turned-away access says which state answers it. -/

open Sys2Proof Sys2Proof.Machine

/-- R352, R353 (values): the two-operand and carry-in arithmetic instructions. -/
def Obligations.CxArithmetic : Prop :=
  ∀ (e : Eng) (d a b x : Fin 16) (s : State), CxReady s e →
    let ga := gRead s.eng[e] a
    let gb := gRead s.eng[e] b
    let c := gRead s.eng[e] x % 2
    let gives (i : Instr) (v : Nat) : Prop := exec i s = .next (cxAfter e (gWrite d 1 v) s)
    gives (.cxAdd e d a b) (ga + gb) ∧ gives (.cxSub e d a b) (ga + 256 - gb)
    ∧ gives (.cxAddc e d a b x) (ga + gb + c) ∧ gives (.cxSubc e d a b x) (ga + 512 - gb - c)
    ∧ gives (.cxCarry e d a b) ((ga + gb) / 256) ∧ gives (.cxCarryc e d a b x) ((ga + gb + c) / 256)
    ∧ gives (.cxBorrow e d a b) (if ga < gb then 1 else 0) ∧ gives (.cxBorrowc e d a b x) (if ga < gb + c then 1 else 0)
    ∧ gives (.cxMull e d a b) (ga * gb) ∧ gives (.cxMulh e d a b) (ga * gb / 256)

/-- R352, R354: logic, comparisons, shifts by a register, products and their signed high byte, and NOP. -/
def Obligations.CxLogicAndShifts : Prop :=
  (∀ (e : Eng) (d a b : Fin 16) (s : State), CxReady s e →
    let ga := gRead s.eng[e] a
    let gb := gRead s.eng[e] b
    let gives (i : Instr) (v : Nat) : Prop := exec i s = .next (cxAfter e (gWrite d 1 v) s)
    gives (.cxAnd e d a b) (ga &&& gb) ∧ gives (.cxOr e d a b) (ga ||| gb) ∧ gives (.cxXor e d a b) (ga ^^^ gb)
    ∧ gives (.cxSeq e d a b) (if ga = gb then 1 else 0) ∧ gives (.cxSltu e d a b) (if ga < gb then 1 else 0)
    ∧ gives (.cxSlts e d a b) (if toSigned 8 ga < toSigned 8 gb then 1 else 0)
    ∧ exec (.cxNop e) s = .next (cxAfter e id s))
  ∧ (∀ (e : Eng) (d a b : Fin 16) (s : State), CxReady s e →
    let ga := gRead s.eng[e] a
    let n := gRead s.eng[e] b
    let gives (i : Instr) (v : Nat) : Prop := exec i s = .next (cxAfter e (gWrite d 1 v) s)
    gives (.cxShl e d a b) (if 8 ≤ n then 0 else ga * 2 ^ n) ∧ gives (.cxShr e d a b) (if 8 ≤ n then 0 else ga / 2 ^ n)
    ∧ gives (.cxSar e d a b) (if ga < 128 then (if 8 ≤ n then 0 else ga / 2 ^ n)
        else if 8 ≤ n then 255 else 255 - (255 - ga) / 2 ^ n)
    ∧ gives (.cxMull e d a b) (ga * n) ∧ gives (.cxMulh e d a b) (ga * n / 256)
    ∧ (toSigned 8 ga * toSigned 8 n / 256 - ((ga * n / 256 : Nat) - (if 128 ≤ ga then n else 0) - (if 128 ≤ n then ga else 0) : Int)) % 256 = 0
    ∧ (n = 0 → (if 8 ≤ n then 0 else ga * 2 ^ n) = ga ∧ (if 8 ≤ n then 0 else ga / 2 ^ n) = ga))

/-- R355, R356: the packed decimal instructions. -/
def Obligations.CxDecimal : Prop :=
  ∀ (e : Eng) (d a b : Fin 16) (s : State), CxReady s e →
    let dec (x : Nat) : Nat := 10 * (x / 16) + x % 16
    let bcd (v : Nat) : Nat := 16 * (v / 10) + v % 10
    let valid (x : Nat) : Prop := x / 16 ≤ 9 ∧ x % 16 ≤ 9
    let ga := gRead s.eng[e] a
    let gb := gRead s.eng[e] b
    let da := dec ga
    let db := dec gb
    let gives (i : Instr) (v : Nat) : Prop := exec i s = .next (cxAfter e (gWrite d 1 v) s) ∧ valid v
    da ≤ 165 ∧ gives (.cxAddd e d a b) (bcd ((da + db) % 100)) ∧ gives (.cxSubd e d a b) (bcd ((da + 200 - db) % 100))
    ∧ gives (.cxDcar e d a b) ((da + db) / 100) ∧ (da + db) / 100 ≤ 3 ∧ gives (.cxDaa e d a) (bcd (da % 100))
    ∧ (valid ga → valid gb → (da + db) / 100 ≤ 1 ∧ gives (.cxBorrow e d a b) (if da < db then 1 else 0))

/-- R352, R354: the instructions with an immediate. -/
def Obligations.CxImmediate : Prop :=
  ∀ (e : Eng) (d a : Fin 16) (k : Byte) (n : Fin 8) (s : State), CxReady s e →
    let ga := gRead s.eng[e] a
    let gives (i : Instr) (v : Nat) : Prop := exec i s = .next (cxAfter e (gWrite d 1 v) s)
    gives (.cxAddi e d a k) (ga + k.toNat) ∧ gives (.cxAndi e d a k) (ga &&& k.toNat) ∧ gives (.cxOri e d a k) (ga ||| k.toNat)
    ∧ gives (.cxXori e d a k) (ga ^^^ k.toNat) ∧ gives (.cxSeqi e d a k) (if ga = k.toNat then 1 else 0)
    ∧ gives (.cxSltiu e d a k) (if ga < k.toNat then 1 else 0) ∧ gives (.cxMovi e d k) k.toNat
    ∧ gives (.cxShli e d a n) (ga * 2 ^ n.val) ∧ gives (.cxShri e d a n) (ga / 2 ^ n.val)
    ∧ gives (.cxSari e d a n) (if ga < 128 then ga / 2 ^ n.val else 255 - (255 - ga) / 2 ^ n.val)

/-- R353: the pairs of a low byte and a carry or borrow are exact. -/
def Obligations.CarryPairsExact : Prop :=
  (∀ (e : Eng) (d a b x : Fin 16) (s : State), CxReady s e → ∃ lo c : Nat,
    exec (.cxAddc e d a b x) s = .next (cxAfter e (gWrite d 1 lo) s) ∧ exec (.cxCarryc e d a b x) s = .next (cxAfter e (gWrite d 1 c) s)
    ∧ lo < 256 ∧ c < 2 ∧ 256 * c + lo = gRead s.eng[e] a + gRead s.eng[e] b + gRead s.eng[e] x % 2)
  ∧ (∀ (e : Eng) (d a b x : Fin 16) (s : State), CxReady s e → ∃ lo c : Nat,
    exec (.cxSubc e d a b x) s = .next (cxAfter e (gWrite d 1 lo) s) ∧ exec (.cxBorrowc e d a b x) s = .next (cxAfter e (gWrite d 1 c) s)
    ∧ lo < 256 ∧ c < 2 ∧ (lo : Int) - 256 * c = (gRead s.eng[e] a : Int) - gRead s.eng[e] b - (gRead s.eng[e] x % 2 : Nat))
  ∧ (∀ (e : Eng) (d a b x : Fin 16) (s : State), CxReady s e → gRead s.eng[e] x % 2 = 0 →
    exec (.cxAdd e d a b) s = exec (.cxAddc e d a b x) s ∧ exec (.cxCarry e d a b) s = exec (.cxCarryc e d a b x) s
    ∧ exec (.cxSub e d a b) s = exec (.cxSubc e d a b x) s ∧ exec (.cxBorrow e d a b) s = exec (.cxBorrowc e d a b x) s)

/-- R324 to R326: reading after a write with a ready distance. -/
def Obligations.ReadyDistance : Prop :=
  ∀ (j d v k : Nat) (c : Cell), j ≤ k →
    cellRead k (cellWrite j d v c) = if j + d ≤ k then v else cellRead k c

/-- R331, R367: the next instruction. -/
def Obligations.NextAddress : Prop :=
  ∀ (e : Eng) (s : State), CxReady s e →
    Does (.cxNop e) s (fun t =>
      (CxFree s e → t.eng[e].pc = (s.eng[e].pc + 1) % 65536 ∧ CxFree t e)
      ∧ (∀ a, s.eng[e].ds = some a → s.eng[e].rep = none → t.eng[e].pc = a ∧ CxFree t e)
      ∧ (∀ r, s.eng[e].rep = some r → r.left ≤ 1 → t.eng[e].pc = (r.pc + 2) % 65536 ∧ t.eng[e].rep = none)
      ∧ (∀ r, s.eng[e].rep = some r → 2 ≤ r.left → t.eng[e].pc = s.eng[e].pc ∧ t.eng[e].rep = some { r with left := r.left - 1 })
      ∧ (∀ i : Fin 16, t.eng[e].g[i] = s.eng[e].g[i]) ∧ t.eng[e].lnk = s.eng[e].lnk ∧ t.eng[e].cnt = s.eng[e].cnt
      ∧ (∀ n : Eng, n ≠ e → t.eng[n] = s.eng[n]) ∧ t = { s with eng := t.eng })

/-- R361, R365, R352: ADDP, MFS, MTS. -/
def Obligations.CxPairsAndSpecials : Prop :=
  ∀ (e : Eng) (d a : Fin 8) (g : Fin 16) (k : Byte) (s : State), CxReady s e →
    let q := s.eng[e]
    let does (i : Instr) (f : Ceng → Ceng) : Prop := exec i s = .next (cxAfter e f s)
    does (.cxAddp e d a k) (gpWrite d 1 ((gpRead q a + (k.signExtend 16).toNat) % 65536))
    ∧ does (.cxMfs e (.cnt d)) (gpWrite d 1 (cellRead q.idx q.cnt)) ∧ does (.cxMfs e (.lnk d)) (gpWrite d 1 q.lnk)
    ∧ does (.cxMfs e (.dsb g)) (gWrite g 1 q.dsb) ∧ does (.cxMfs e (.iob d)) (gpWrite d 1 q.iob)
    ∧ does (.cxMts e (.cnt a)) (fun r => { r with cnt := cellWrite r.idx 1 (gpRead q a) r.cnt })
    ∧ does (.cxMts e (.lnk a)) (fun r => { r with lnk := gpRead q a })
    ∧ does (.cxMts e (.iob a)) (fun r => { r with iob := gpRead q a })
    ∧ (gRead q g < 8 → does (.cxMts e (.dsb g)) (fun r => { r with dsb := gRead q g }))

/-- R319, R361 to R364: loads. -/
def Obligations.CxLoads : Prop :=
  ∀ (e : Eng) (d : Fin 16) (p : Fin 8) (k : Byte) (sel : Fin 3) (s : State), CxReady s e →
    let q := s.eng[e]
    let pp := gpRead q p
    let off := (pp + (k.signExtend 16).toNat) % 65536
    let byteAt (a : Nat) : Nat := if a < 0x4000 then (spGet 0 s.emem[e].dmem a).toNat
      else if a < 0x8000 then (spGet 0 s.shm ((q.dsb * 0x4000 + (a - 0x4000)) % 131072)).toNat else 0
    let reach (a : Nat) : Prop := 0x4000 ≤ a → a < 0x8000 → domOn s 7 = true
    (reach off → exec (.cxLd e d p k) s = .next (cxAfter e (gWrite d 3 (byteAt off)) s))
    ∧ (reach pp → exec (.cxLdp e d p k) s = .next (cxAfter e (fun r => gWrite d 3 (byteAt pp) (gpWrite p 1 off r)) s))
    ∧ (pp < 0x4000 → exec (.cxIld e d p sel) s = .next (cxAfter e (gWrite d 3 ((spGet 0 s.emem[e].imem pp).toNat / 256 ^ sel.val % 256)) s))

/-- R319, R361 to R364: stores. -/
def Obligations.CxStores : Prop :=
  ∀ (e : Eng) (g : Fin 16) (p b : Fin 8) (k : Byte) (s : State), CxReady s e →
    let q := s.eng[e]
    let pp := gpRead q p
    let off := (pp + (k.signExtend 16).toNat) % 65536
    let byteAt (a : Nat) : Nat := if a < 0x4000 then (spGet 0 s.emem[e].dmem a).toNat
      else if a < 0x8000 then (spGet 0 s.shm ((q.dsb * 0x4000 + (a - 0x4000)) % 131072)).toNat else 0
    let local_ (a v : Nat) : State := { s with emem := s.emem.set e { s.emem[e] with dmem := spSet 0 s.emem[e].dmem a (BitVec.ofNat 8 v) } }
    let shared (a v : Nat) : State := { s with shm := spSet 0 s.shm ((q.dsb * 0x4000 + (a - 0x4000)) % 131072) (BitVec.ofNat 8 v) }
    let stores (i : Instr) (a v : Nat) (f : Ceng → Ceng) : Prop :=
      (a < 0x4000 → exec i s = .next (cxAfter e f (local_ a v)))
      ∧ (0x4000 ≤ a → a < 0x8000 → domOn s 7 = true → exec i s = .next (cxAfter e f (shared a v)))
    stores (.cxSt e g p k) off (gRead q g) id
    ∧ stores (.cxStp e g p k) pp (gRead q g) (gpWrite p 1 off)
    ∧ ((0x4000 ≤ gpRead q b → gpRead q b < 0x8000 → domOn s 7 = true) → stores (.cxMvb e p b) pp (byteAt (gpRead q b))
        (fun r => gpWrite b 1 ((gpRead q b + 1) % 65536) (gpWrite p 1 ((pp + 1) % 65536) r)))

/-- R319, R361 (frame): every byte of every memory of the engines and SHM but the stored one reads as before. -/
def Obligations.StoreFrame : Prop :=
  ∀ (e : Eng) (g : Fin 16) (p : Fin 8) (k : Byte) (s t : State), CxReady s e →
    exec (.cxSt e g p k) s = .next t →
    let q := s.eng[e]
    let a := (gpRead q p + (k.signExtend 16).toNat) % 65536
    (∀ (n : Eng) (x : Nat), spGet 0 t.emem[n].dmem x = if n = e ∧ a < 0x4000 ∧ x = a then BitVec.ofNat 8 (gRead q g) else spGet 0 s.emem[n].dmem x)
    ∧ (∀ x : Nat, spGet 0 t.shm x = if 0x4000 ≤ a ∧ a < 0x8000 ∧ domOn s 7 = true ∧ x = (q.dsb * 0x4000 + (a - 0x4000)) % 131072
        then BitVec.ofNat 8 (gRead q g) else spGet 0 s.shm x)
    ∧ (∀ n : Eng, t.emem[n].imem = s.emem[n].imem) ∧ t.fls = s.fls

/-- R364: IST changes one byte of one word of the engine's own instruction memory. Where it goes beyond the rules it
is the model's choice or reading: log entry 6. -/
def Obligations.CxInstructionStore : Prop :=
  ∀ (e : Eng) (g : Fin 16) (p : Fin 8) (sel : Fin 3) (s : State), CxReady s e → gpRead s.eng[e] p < 0x4000 →
    Does (.cxIst e g p sel) s (fun t =>
      let a := gpRead s.eng[e] p
      let w (u : State) (x : Nat) : IWord := spGet 0 u.emem[e].imem x
      t = cxAfter e id { s with emem := s.emem.set e { s.emem[e] with imem := t.emem[e].imem } }
      ∧ (∀ x, x ≠ a → w t x = w s x)
      ∧ (∀ i : Fin 3, (w t a).toNat / 256 ^ i.val % 256 = if i = sel then gRead s.eng[e] g else (w s a).toNat / 256 ^ i.val % 256))

/-- R38, R320, R345, R361, R364: the I/O instructions. That an operand says which read another master's has come before on the same
edge is log entry 2. Where it else goes beyond the rules it is the model's choice or reading: log entry 7. -/
def Obligations.CxInOut : Prop :=
  ∀ (e : Eng) (d : Fin 16) (p : Fin 8) (port : BitVec 12) (k : Byte) (s : State), CxReady s e →
    let q := s.eng[e]
    let s1 := putEng e { q with gov := none } s
    let ax := (q.iob + port.toNat) % 65536
    let am := (gpRead q p + (k.signExtend 16).toNat) % 65536
    let ins (i : Bool → Instr) (a : Nat) : Prop := ioDenied s e a false = false → ioOff s e a = false → readRefused s e a = false →
      ∀ again, Does (i again) s (fun t => ∃ x, ioGet (.ce e) e a s1 again = x ∧
        t = putEng e (retire (gWrite d 4 x.2 { x.1.eng[e] with resume := none })) x.1)
    let outs (i : Instr) (a : Nat) : Prop := ioDenied s e a true = false → ioOff s e a = false → writeRefused s (.ce e) e a (gRead q d) = false →
      exec i s = .next (ioPut (.ce e) e a (gRead q d) (putEng e (retire { q with gov := none, resume := none }) s))
    ins (.cxIn e d port ·) ax ∧ ins (.cxInr e d p k ·) am ∧ outs (.cxOut e d port) ax ∧ outs (.cxOutr e d p k) am

/-- R357, R358, R331: branches. -/
def Obligations.CxBranches : Prop :=
  ∀ (e : Eng) (a b : Fin 16) (k : BitVec 4) (off : Byte) (s : State), CxReady s e → CxFree s e →
    let q := s.eng[e]
    let ga := gRead q a
    let gb := gRead q b
    let target := (((q.pc : Int) + 2 + off.toInt) % 65536).toNat
    let branches (i : Instr) (c : Prop) [Decidable c] : Prop := exec i s = .next (putEng e { q with
      ds := some (if c then target else (q.pc + 2) % 65536), pc := (q.pc + 1) % 65536, idx := q.idx + 1, resume := none, gov := none } s)
    branches (.cxBeq e a b off) (ga = gb) ∧ branches (.cxBne e a b off) (ga ≠ gb)
    ∧ branches (.cxBltu e a b off) (ga < gb) ∧ branches (.cxBgeu e a b off) (gb ≤ ga)
    ∧ branches (.cxBlts e a b off) (toSigned 8 ga < toSigned 8 gb) ∧ branches (.cxBges e a b off) (toSigned 8 gb ≤ toSigned 8 ga)
    ∧ branches (.cxBeqi e a k off) (ga = k.toNat) ∧ branches (.cxBnei e a k off) (ga ≠ k.toNat)

/-- R331, R358, R359, R406, R421: jumps. -/
def Obligations.CxJumps : Prop :=
  ∀ (e : Eng) (p : Fin 8) (k : Half) (s : State), CxReady s e → CxFree s e →
    let q := s.eng[e]
    let jumps (i : Instr) (t : Nat) (lnk : Nat) : Prop := exec i s = .next (putEng e { q with
      ds := some t, pc := (q.pc + 1) % 65536, idx := q.idx + 1, resume := none, gov := none, lnk := lnk } s)
    jumps (.cxCall e k) k.toNat ((q.pc + 2) % 65536) ∧ jumps (.cxCallr e p) (gpRead q p) ((q.pc + 2) % 65536)
    ∧ jumps (.cxJr e p) (gpRead q p) q.lnk ∧ jumps (.cxRet e) q.lnk q.lnk
    ∧ (q.rom = false ∨ k.toNat < 0x0800 → jumps (.cxJmp e k) k.toNat q.lnk)
    ∧ (q.rom = true → 0x0800 ≤ k.toNat → Does (.cxJmp e k) s (fun t =>
        t.eng[e] = { q with ds := some k.toNat, pc := (q.pc + 1) % 65536, idx := q.idx + 1, resume := none, gov := none, rom := false }
        ∧ (e = 0 → t.rst.bootPhase = false ∧ (s.rst.bootPhase = true → t.rst.sealed = true))))

/-- R321, R338, R341, R342, R374: traps, and a trap taken inside a handler. Where it goes beyond the rules it is the
model's choice or reading: log entries 6, 7, 13. -/
def Obligations.CxTraps : Prop :=
  (∀ (e : Eng) (k : Half) (w : IWord) (s : State), domOn s (engDom e.val) = true → s.eng[e].run = .running → CxFree s e →
    s.eng[e].intrap = false →
    let q := s.eng[e]
    let enters (i : Instr) (f : TrapFrame) : Prop := exec i s = .next (putEng e { runEnd q with
      tf := frameOf s.free f, ie := false, intrap := true, gov := none, resume := none, pc := (q.ivbase * 64 + 2 * f.vec) % 65536 } { s with free := s.free + 2 })
    let stops (i : Instr) (next : Nat) : Prop := Does i s (fun t => t.eng[e].run = .stopped ∧ t.eng[e].failed = true ∧ t.eng[e].tf = q.tf
      ∧ t.eng[e].ie = q.ie ∧ t.eng[e].intrap = false ∧ (s.fbk.ring.length < 256 → s.fbk.drops = 0 → s.svy.svfsel = 0 →
        ∃ r : FbRec, t.fbk.ring = s.fbk.ring ++ [{ r := r, written := false }] ∧ r.src = 0x10 + e.val ∧ r.typ = 1 ∧ r.p = [2, next]))
    (q.badKick = false → q.pc < 0x4000 → enters (.cxTrap e k) { pc := (q.pc + 1) % 65536, word := 0x78 * 65536 + k.toNat, vec := 3, ie := q.ie })
    ∧ (q.badKick = false → q.pc < 0x4000 → Cx.decode w = none → enters (.undefinedOpcode e w) { pc := q.pc, word := w.toNat, vec := 0, ie := q.ie })
    ∧ (q.badKick = false → 0x4000 ≤ q.pc → enters (.fetch e) { pc := q.pc, vec := 2, ie := q.ie, addr := q.pc })
    ∧ (q.badKick = true → (q.pc < 0x4000 → stops (.cxTrap e k) ((q.pc + 1) % 65536) ∧ (Cx.decode w = none → stops (.undefinedOpcode e w) q.pc))
      ∧ (0x4000 ≤ q.pc → stops (.fetch e) q.pc)))
  ∧ (∀ (e : Eng) (w : IWord) (s : State), CxReady s e → s.eng[e].intrap = true → Cx.decode w = none →
    Does (.undefinedOpcode e w) s (fun t =>
      t.eng[e].run = .stopped ∧ t.eng[e].failed = true ∧ t.eng[e].tf = s.eng[e].tf ∧ t.eng[e].pc = s.eng[e].pc
      ∧ (∀ n : Eng, n ≠ e → t.eng[n] = if domOn s (engDom n.val) then { s.eng[n] with estop := setBit s.eng[n].estop e.val true } else s.eng[n])
      ∧ t.lck = s.lck ∧ t.shm = s.shm ∧ t.emem = s.emem))

/-- R319 to R321, R331, R338, R360, R368: bus errors, and control transfers in a delay slot. Where it goes beyond the
rules it is the model's choice or reading: log entries 6, 7, 13. -/
def Obligations.BusErrorsAndDelaySlots : Prop :=
  (∀ (e : Eng) (d : Fin 16) (p b : Fin 8) (k : Byte) (sel : Fin 3) (port : BitVec 12) (s : State), CxReady s e → CxFree s e →
    s.eng[e].intrap = false →
    let q := s.eng[e]
    let pp := gpRead q p
    let off := (pp + (k.signExtend 16).toNat) % 65536
    let traps (i : Instr) (w : Nat) (a code : Nat) : Prop := exec i s = .next (putEng e { runEnd q with
      tf := frameOf s.free { pc := q.pc, word := w, vec := 1, ie := q.ie, addr := a, info := code }, ie := false, intrap := true, gov := none
      resume := none, pc := (q.ivbase * 64 + 2) % 65536 } { s with free := s.free + 2 })
    (8 ≤ gRead q d → exec (.cxMts e (.dsb d)) s = .next (putEng e { runEnd q with
      tf := frameOf s.free { pc := q.pc, word := (Cx.mts (.dsb d)).word, vec := 0, ie := q.ie }, ie := false, intrap := true, gov := none
      resume := none, pc := q.ivbase * 64 % 65536 } { s with free := s.free + 2 }))
    ∧ (0x8000 ≤ off → traps (.cxSt e d p k) (Cx.mem .st d p k).word off 1)
    ∧ (0x8000 ≤ pp → traps (.cxStp e d p k) (Cx.mem .stp d p k).word pp 1)
    ∧ (0x8000 ≤ pp → traps (.cxMvb e p b) (Cx.mvb p b).word pp 1)
    ∧ (0x4000 ≤ off → off < 0x8000 → domOn s 7 = false → traps (.cxLd e d p k) (Cx.mem .ld d p k).word off 3
        ∧ traps (.cxSt e d p k) (Cx.mem .st d p k).word off 3)
    ∧ (0x4000 ≤ pp → traps (.cxIld e d p sel) (Cx.im false d p sel).word pp 5 ∧ traps (.cxIst e d p sel) (Cx.im true d p sel).word pp 5)
    ∧ (let a := (q.iob + port.toNat) % 65536
       (ioDenied s e a false = true → traps (.cxIn e d port) (Cx.io false d port).word a 2)
       ∧ (ioDenied s e a true = true → traps (.cxOut e d port) (Cx.io true d port).word a 2)
       ∧ (ioDenied s e a false = false → ioOff s e a = true → traps (.cxIn e d port) (Cx.io false d port).word a 3)
       ∧ (ioDenied s e a true = false → ioOff s e a = true → traps (.cxOut e d port) (Cx.io true d port).word a 3)))
  ∧ (∀ (e : Eng) (a b : Fin 16) (p : Fin 8) (off : Byte) (k4 : BitVec 4) (k : Half) (nx : IWord) (s : State) (tgt : Nat), CxReady s e →
    s.eng[e].ds = some tgt → s.eng[e].rep = none → s.eng[e].intrap = false → s.eng[e].rom = false →
    let q := s.eng[e]
    let illegal (i : Instr) (w : Nat) : Prop := exec i s = .next (putEng e { runEnd q with
      tf := frameOf s.free { pc := q.pc, word := w, vec := 0, ds := true, ie := q.ie, tgt := tgt }, ie := false, intrap := true, gov := none
      ds := none, resume := none, pc := q.ivbase * 64 % 65536 } { s with free := s.free + 2 })
    illegal (.cxBeq e a b off) (Cx.br .beq a b off).word ∧ illegal (.cxBne e a b off) (Cx.br .bne a b off).word
    ∧ illegal (.cxBltu e a b off) (Cx.br .bltu a b off).word ∧ illegal (.cxBgeu e a b off) (Cx.br .bgeu a b off).word
    ∧ illegal (.cxBlts e a b off) (Cx.br .blts a b off).word ∧ illegal (.cxBges e a b off) (Cx.br .bges a b off).word
    ∧ illegal (.cxBeqi e a k4 off) (Cx.bri false a k4 off).word ∧ illegal (.cxBnei e a k4 off) (Cx.bri true a k4 off).word
    ∧ illegal (.cxJmp e k) (Cx.jmp .jmp k).word ∧ illegal (.cxCall e k) (Cx.jmp .call k).word
    ∧ illegal (.cxJr e p) (Cx.jr false p).word ∧ illegal (.cxCallr e p) (Cx.jr true p).word ∧ illegal (.cxRet e) 0x740000
    ∧ illegal (.cxTrap e k) (Cx.jmp .trap k).word ∧ illegal (.cxRett e) 0x790000 ∧ illegal (.cxWait e) 0x7A0000
    ∧ illegal (.cxRep e k nx) (Cx.jmp .rep k).word ∧ illegal (.cxRepu e k nx) (Cx.jmp .repu k).word
    ∧ illegal (.cxRepCnt e nx) 0x820000 ∧ illegal (.cxRepuCnt e nx) 0x830000)

/-- R340, R344: RETT, WAIT. -/
def Obligations.CxReturnAndWait : Prop :=
  ∀ (e : Eng) (s : State), CxReady s e → CxFree s e →
    let q := s.eng[e]
    exec (.cxRett e) s = .next (putEng e { runEnd q with
      pc := q.tf.pc, ie := q.tf.ie, intrap := false, gov := none, ds := if q.tf.ds then some q.tf.tgt else none
      resume := if q.tf.repv then some q.tf.rep else none } s)
    ∧ exec (.cxWait e) s = .next (putEng e { runEnd q with pc := (q.pc + 1) % 65536, run := .waiting, gov := none, resume := none } s)

/-- R366 to R368, R373: prefixes. Where it goes beyond the rules it is the model's choice or reading: log entries 6,
7. -/
def Obligations.CxRepeats : Prop :=
  ∀ (e : Eng) (k : Half) (nx : IWord) (s : State), CxReady s e → CxFree s e →
    let q := s.eng[e]
    let last : Prop := nx.toNat / 65536 ∈ [0x60, 0x61, 0x62, 0x63, 0x64, 0x65, 0x68, 0x69, 0x70, 0x71, 0x72, 0x73, 0x74, 0x78, 0x79, 0x7A, 0x7B, 0x80, 0x81, 0x82, 0x83]
    let illegal (i : Instr) (w : Nat) : Prop := exec i s = .next (putEng e { runEnd q with
      tf := frameOf s.free { pc := q.pc, word := w, vec := 0, ie := q.ie }, ie := false, intrap := true, gov := none
      resume := none, pc := q.ivbase * 64 % 65536 } { s with free := s.free + 2 })
    let starts (i : Instr) (w n : Nat) (unint : Bool) : Prop := exec i s = .next (putEng e (if n = 0 then
        { q with pc := (q.pc + 2) % 65536, idx := q.idx + 1, resume := none, gov := none }
      else { q with pc := (q.pc + 1) % 65536, idx := q.idx + 1, resume := none, gov := none
                    rep := some { pc := q.pc, word := w, unint := unint, left := n } }) s)
    let count (n : Nat) : Nat := match q.resume with | some r => r | none => n
    (¬ last → starts (.cxRep e k nx) (0x80 * 65536 + k.toNat) (count k.toNat) false
      ∧ starts (.cxRepu e k nx) (0x81 * 65536 + k.toNat) (count k.toNat) true
      ∧ starts (.cxRepCnt e nx) 0x820000 (count (cellRead (q.idx - 1) q.cnt)) false
      ∧ starts (.cxRepuCnt e nx) 0x830000 (count (cellRead (q.idx - 1) q.cnt)) true)
    ∧ (last → q.pc + 1 < 0x4000 → q.intrap = false → illegal (.cxRep e k nx) (0x80 * 65536 + k.toNat) ∧ illegal (.cxRepu e k nx) (0x81 * 65536 + k.toNat)
      ∧ illegal (.cxRepCnt e nx) 0x820000 ∧ illegal (.cxRepuCnt e nx) 0x830000)

/-- R333 to R335, R338: interrupts. Where it goes beyond the rules it is the model's choice or reading: log entries 3,
7, 13. -/
def Obligations.Interrupts : Prop :=
  (∀ (e : Eng) (w : IWord) (n : Nat) (s : State), domOn s (engDom e.val) = true → s.eng[e].gov = none →
    s.eng[e].ie = true → s.eng[e].intrap = false → s.eng[e].ds = none →
    lowestBit 24 (irqReady s e s.eng[e].irqen) = some n →
    let q := s.eng[e]
    let enters (i : Instr) (f : TrapFrame) : Prop := exec i s = .next (putEng e { runEnd q with
      run := .running, tf := frameOf s.free f, ie := false, intrap := true, rep := none, resume := none, pc := (q.ivbase * 64 + 2 * (8 + n)) % 65536 } { s with free := s.free + 2 })
    (q.run = .running → q.rep = none → q.badKick = false →
      enters (.interruptAccept e w) { pc := q.pc, word := w.toNat, vec := 8 + n, ie := true })
    ∧ (∀ r, q.run = .running → q.rep = some r → r.unint = false → q.badKick = false →
      enters (.interruptAccept e w) { pc := r.pc, word := r.word, vec := 8 + n, ie := true, repv := true, rep := r.left })
    ∧ (q.run = .running → q.badKick = true → (∀ r, q.rep = some r → r.unint = false) → Does (.interruptAccept e w) s (fun t =>
      t.eng[e].run = .stopped ∧ t.eng[e].failed = true ∧ t.eng[e].intrap = true ∧ t.eng[e].tf.vec = 8 + n))
    ∧ (∀ r, q.run = .running → q.rep = some r → r.unint = true → exec (.interruptAccept e w) s = .next s)
    ∧ (q.run = .waiting → q.rep = none →
      enters (.waitResume e w) { pc := q.pc, word := w.toNat, vec := 8 + n, ie := true }))
  ∧ (∀ (e : Eng) (w : IWord) (n : Nat) (s : State), domOn s (engDom e.val) = true → s.eng[e].run = .waiting →
    (s.eng[e].ie = false ∨ s.eng[e].intrap = true) → lowestBit 24 (irqReady s e s.eng[e].irqen) = some n →
    exec (.waitResume e w) s = .next (putEng e { s.eng[e] with run := .running } s))

/-- R336, R343, R347, R348: XSIG, the watchdog and the timers. When the engine stops after a bad kick is log entry 7.
Where it goes beyond the rules it is the model's choice or reading: log entries 3, 7. -/
def Obligations.EngineEvents : Prop :=
  ∀ (e : Eng) (n : Fin 2) (mask : BitVec 6) (warn pre : BitVec 2) (per : Bool) (v : Byte) (s : State),
    let q := s.eng[e]
    let on : Prop := domOn s (engDom e.val) = true
    let dog (w : Wdog) : State := putEng e { q with wd := w } s
    let tmr (x : Tmr) : State := putEng e { q with tmr := q.tmr.set n x } s
    let fresh : Wdog := { q.wd with cur := q.wd.per, left := q.wd.per * 24000, warnf := false, first := false }
    let stops (t : State) : Prop := t.eng[e].run = .stopped ∧ t.eng[e].failed = true ∧ t.eng[e].wd = q.wd ∧ t.emem = s.emem ∧ t.shm = s.shm
      ∧ ∀ m : Eng, m ≠ e → t.eng[m] = if domOn s (engDom m.val) then { s.eng[m] with estop := setBit s.eng[m].estop e.val true } else s.eng[m]
    (EngMay s e 0x10 true → Does (.xsig e mask) s (fun t => t = { s with eng := t.eng } ∧ ∀ m : Eng,
      t.eng[m] = if mask.getLsbD m.val ∧ domOn s (engDom m.val) then { s.eng[m] with xpend := setBit s.eng[m].xpend e.val true } else s.eng[m]))
    ∧ (EngMay s e 0x40 true → q.wd.en = false → exec (.watchdogEnable e warn) s = .next (dog { fresh with en := true, warn := warn.toNat }))
    ∧ (EngMay s e 0x43 true → q.wd.en = true →
        (v = 0x5A → exec (.watchdogKick e v) s = .next (dog { q.wd with first := true }))
        ∧ (v = 0xA5 → q.wd.first = true → exec (.watchdogKick e v) s = .next (dog fresh))
        ∧ (v ≠ 0x5A → (v = 0xA5 → q.wd.first = false) → exec (.watchdogKick e v) s = .next (putEng e { q with badKick := true } s)))
    ∧ (EngMay s e 0x43 true → q.wd.en = false → exec (.watchdogKick e v) s = .next s)
    ∧ (on → q.wd.en = true → q.run ≠ .stopped → (q.wd.warn = 1 ∧ 2 * q.wd.left ≤ q.wd.cur * 24000 ∨ q.wd.warn = 2 ∧ 4 * q.wd.left ≤ q.wd.cur * 24000
          ∨ q.wd.warn = 3 ∧ 8 * q.wd.left ≤ q.wd.cur * 24000) → exec (.watchdogWarning e) s = .next (dog { q.wd with warnf := true }))
    ∧ (on → q.run = .running → q.pc < 0x4000 → q.badKick = true → q.rep = none → q.ds = none → Does (.cxNop e) s (fun t => stops t
        ∧ t.eng[e].pc = q.pc + 1))
    ∧ (ckRuns s = true → (∀ m : Eng, m ≠ e → s.eng[m].badKick = false) → on → q.run = .running → q.badKick = true →
        (ckTick s).eng[e].run = .stopped ∧ (ckTick s).eng[e].failed = true)
    ∧ (on → q.wd.en = true → q.wd.left = 0 → (q.run = .running ∨ q.run = .waiting) → Does (.watchdogExpiry e) s stops)
    ∧ (EngMay s e (0x20 + 8 * n.val) true → q.tmr[n].en = false → exec (.timerStart e n per pre) s =
        .next (tmr { q.tmr[n] with en := true, per := per, pre := pre.toNat, cnt := q.tmr[n].rld, sub := 0 }))
    ∧ (on → q.tmr[n].en = true → q.tmr[n].cnt = 0 → exec (.timerExpiry e n) s =
        .next (tmr (if q.tmr[n].per then { q.tmr[n] with flag := true, cnt := q.tmr[n].rld } else { q.tmr[n] with flag := true, en := false })))
    ∧ (q.tmr[n].en = false ∨ q.tmr[n].cnt ≠ 0 → exec (.timerExpiry e n) s = .next s)

/-- R381 to R385: the copy unit. That a release clears STAMP is log entry 8, that a running job which finds D6 off
ends with code 3 is log entry 32: both the model's reading. Where it else goes beyond the rules it is the model's
choice or reading: log entries 13, 32, 38. -/
def Obligations.CopyJobs : Prop :=
  (∀ (e : Eng) (j : Fin 8) (s : State), EngMay s e 0x3004 true → (cpyBusy s).testBit j.val = false →
    let c := cpyRefusal s e j.val
    Does (.cpygo e (1 <<< j.val)) s (fun t => t.cpy.eng[j] = e.val ∧ t.cpy.rem[j] = cpyLive s (0x25 + 8 * j.val)
      ∧ (c = 0 → t = { s with cpy := { t.cpy with queued := setBit s.cpy.queued j.val true } } ∧ t.cpy.run = s.cpy.run ∧ t.cpy.is_ = s.cpy.is_)
      ∧ (c ≠ 0 → t.cpy.code[j] = c ∧ t.cpy.is_ = setBit s.cpy.is_ j.val true ∧ t.cpy.queued.testBit j.val = false))
    ∧ (let m := cpyLive s (0x20 + 8 * j.val)
       let ch := cpyLive s (0x23 + 8 * j.val) % 1024
       let db := cpyLive s (0x27 + 8 * j.val)
       cjSrc m ≠ 1 → cjDst m = 1 → engMayWrite s e 0 = true → chanOwner s ch = some e.val → chanOff s ch = false → m.testBit 3 = true →
       c = if chanDir s ch = false then 2 else if m.testBit 1 = true ∧ dbMine s (if db.testBit 7 then 1 else 0) e.val (db % 64) = false then 1 else 0))
  ∧ (∀ (j : Nat) (s : State), ckRuns s = true → domOn s 7 = true → s.cpy.run = none → lowestBit 8 s.cpy.queued = some j →
    Does .copyJobBegin s (fun t => ∃ r, t = { s with cpy := { s.cpy with queued := setBit s.cpy.queued j false, run := some r } }
      ∧ r.j = j ∧ r.mode = cpyLive s (0x20 + 8 * j) ∧ r.len = cpyLive s (0x25 + 8 * j) ∧ r.sadr = cpyLive s (0x21 + 8 * j)
      ∧ r.dadr = cpyLive s (0x23 + 8 * j) ∧ r.db = cpyLive s (0x27 + 8 * j)
      ∧ (cjSrc r.mode = 1 → r.latch = (List.range 16).map (fun w => slotWord (spGet {} s.mbx.chans (r.sadr % 1024)) w))))
  ∧ (∀ s : State, ckRuns s = false → exec .copyJobBegin s = .next s ∧ exec .copyJobEnd s = .next s)
  ∧ (∀ (r : CpyRun) (s : State), ckRuns s = true → domOn s 7 = true → s.cpy.run = some r → r.j < 8 →
    let box := cjSrc r.mode = 1
    let word (i : Nat) : Nat := if box then r.latch.getD (fld r.sadr 13 10 + i) 0 else shmWord s (r.sadr + i)
    let at_ (i : Nat) : Nat := if r.sadr < r.dadr then r.sadr + i % (r.dadr - r.sadr) else r.sadr + i
    let c := r.dadr % 1024
    let d := r.sadr % 1024
    let w0 := fld r.dadr 13 10
    let e0 := fld r.dadr 10 0
    let p : Port := if r.db.testBit 7 then 1 else 0
    let ends (k : Nat) (t : State) : Prop := t.cpy.run = none ∧ t.cpy.code[finOf 8 r.j] = k ∧ t.cpy.is_ = setBit s.cpy.is_ r.j true
      ∧ t.cpy.rem[finOf 8 r.j] = 0 ∧ t.eng = s.eng ∧ t.emem = s.emem
    let freed (t : State) : Prop := spGet {} t.mbx.chans d = { spGet {} s.mbx.chans d with full := false, len := 0, stamp := 0, slot := [], epend := false }
      ∧ (∀ q : Port, (chanPorts s d).testBit q.val = true → t.hp[q].sel.hints.getLsbD 5 = true)
    let drop : Prop := s.lgb.swap.isSome = true
    let backs (t : State) : Prop := (drop → t.lgb = s.lgb ∧ t.lgt.flt.testBit 6 = true)
      ∧ (¬ drop → ∀ k, k < 1160 → spGet 0 t.lgb.back k = if e0 ≤ k ∧ k < e0 + r.len then word (k - e0) % 65536 else spGet 0 s.lgb.back k)
    (cjSrc r.mode = 0 → cjDst r.mode = 0 → r.sadr + r.len ≤ 65536 → r.dadr + r.len ≤ 65536 →
      Does .copyJobEnd s (fun t => ends 0 t ∧ t.mbx = s.mbx ∧ t.lgb = s.lgb
        ∧ (∀ a, a < 131072 → spGet 0 t.shm a = if r.dadr ≤ a / 2 ∧ a / 2 < r.dadr + r.len
            then spGet 0 s.shm (2 * at_ (a / 2 - r.dadr) + a % 2) else spGet 0 s.shm a)))
    ∧ (box → cjDst r.mode = 0 → r.dadr + r.len ≤ 65536 →
      Does .copyJobEnd s (fun t => t.lgb = s.lgb
        ∧ (∀ a, a < 131072 → spGet 0 t.shm a = if r.dadr ≤ a / 2 ∧ a / 2 < r.dadr + r.len
            then BitVec.ofNat 8 (byteOf (word (a / 2 - r.dadr)) (a % 2)) else spGet 0 s.shm a)
        ∧ (chanOff s d = true → ends 3 t ∧ t.mbx = s.mbx)
        ∧ (chanOff s d = false → r.mode.testBit 2 = false → ends 0 t ∧ t.mbx = s.mbx)
        ∧ (chanOff s d = false → r.mode.testBit 2 = true → (chanDir s d = true ∨ (spGet {} s.mbx.chans d).full = false) → ends 2 t ∧ t.mbx = s.mbx)
        ∧ (chanOff s d = false → r.mode.testBit 2 = true → chanDir s d = false → (spGet {} s.mbx.chans d).full = true → ends 0 t ∧ freed t)))
    ∧ (cjSrc r.mode = 0 → cjDst r.mode = 1 → chanOff s c = true → Does .copyJobEnd s (fun t => ends 3 t ∧ t.mbx = s.mbx ∧ t.shm = s.shm))
    ∧ (cjSrc r.mode = 0 → cjDst r.mode = 1 → chanOff s c = false → r.mode.testBit 3 = false →
      Does .copyJobEnd s (fun t => ends 0 t ∧ t.mbx = s.mbx ∧ t.shm = s.shm))
    ∧ (cjSrc r.mode = 0 → cjDst r.mode = 1 → chanOff s c = false → r.mode.testBit 3 = true → chanDir s c = false →
      Does .copyJobEnd s (fun t => ends 2 t ∧ t.mbx = s.mbx ∧ t.shm = s.shm))
    ∧ (cjSrc r.mode = 0 → cjDst r.mode = 1 → chanOff s c = false → r.mode.testBit 3 = true → chanDir s c = true →
      (spGet {} s.mbx.chans c).full = true → chanLatest s c = false →
      Does .copyJobEnd s (fun t => ends 2 t ∧ t.mbx = { s.mbx with chans := spSet {} s.mbx.chans c { spGet {} s.mbx.chans c with coll := true } }
        ∧ t.shm = s.shm))
    ∧ (cjSrc r.mode = 0 → cjDst r.mode = 1 → chanOff s c = false → r.mode.testBit 3 = true → chanDir s c = true →
      ((spGet {} s.mbx.chans c).full = false ∨ chanLatest s c = true) →
      let x := spGet {} s.mbx.chans c
      Does .copyJobEnd s (fun t => ends 0 t ∧ t.shm = s.shm
        ∧ t.mbx.chans = spSet {} s.mbx.chans c
          { full := true, coll := x.coll || x.full, epend := x.epend, len := w0 + r.len,
            stamp := s.cpy.eng[finOf 8 r.j], seq := x.seq + 1,
            slot := (List.range 16).map (fun w => if w < w0 + r.len then (if w < w0 then 0 else word (w - w0) % 65536) else 0) }
        ∧ (∀ q : Port, (chanPorts s c).testBit q.val = true → t.hp[q].sel.hints.getLsbD 5 = true)
        ∧ t.mbx.dbH = (if r.mode.testBit 1 then s.mbx.dbH.set p (s.mbx.dbH[p] ||| (1#64 <<< (r.db % 64))) else s.mbx.dbH)
        ∧ (r.mode.testBit 1 = true → t.hp[p].sel.hints.getLsbD 4 = true)))
    ∧ (cjSrc r.mode = 0 → cjDst r.mode = 2 → 1 ≤ r.len → e0 + r.len ≤ 1160 →
      Does .copyJobEnd s (fun t => t.mbx = s.mbx ∧ t.shm = s.shm
        ∧ (domOn s 6 = true → ends (if drop then 5 else 0) t ∧ backs t)
        ∧ (¬ drop → domOn s 6 = false → ends 3 t)))
    ∧ (box → cjDst r.mode = 2 → domOn s 6 = true → 1 ≤ r.len → e0 + r.len ≤ 1160 →
      Does .copyJobEnd s (fun t => t.shm = s.shm ∧ backs t
        ∧ (chanOff s d = true → ends 3 t ∧ t.mbx = s.mbx)
        ∧ (chanOff s d = false → r.mode.testBit 2 = false → ends (if drop then 5 else 0) t ∧ t.mbx = s.mbx)
        ∧ (chanOff s d = false → r.mode.testBit 2 = true → (chanDir s d = true ∨ (spGet {} s.mbx.chans d).full = false) →
            ends (if drop then 5 else 2) t ∧ t.mbx = s.mbx)
        ∧ (chanOff s d = false → r.mode.testBit 2 = true → chanDir s d = false → (spGet {} s.mbx.chans d).full = true →
            ends (if drop then 5 else 0) t ∧ freed t))))
  ∧ (∀ (e : Eng) (r : CpyRun) (s : State), EngMay s e 0x3005 true → s.cpy.run = some r → r.j < 8 → 1 ≤ r.len →
    let at_ (i : Nat) : Nat := if r.sadr < r.dadr then r.sadr + i % (r.dadr - r.sadr) else r.sadr + i
    let slot (i : Nat) : Nat := r.latch.getD (fld r.sadr 13 10 + i) 0
    let e0 := fld r.dadr 10 0
    let stops (p : Nat → State → Prop) : Prop := Does (.cpystop e (BitVec.ofNat 8 (2 ^ r.j))) s (fun t => t.cpy.run = none
      ∧ t.cpy.code[finOf 8 r.j] = 4 ∧ t.cpy.is_ = setBit s.cpy.is_ r.j true ∧ t.mbx = s.mbx ∧ t.eng = s.eng
      ∧ 1 ≤ r.len - t.cpy.rem[finOf 8 r.j] ∧ t.cpy.rem[finOf 8 r.j] ≤ r.len ∧ p (r.len - t.cpy.rem[finOf 8 r.j]) t)
    (cjSrc r.mode ≠ 1 → cjDst r.mode = 0 → r.sadr + r.len ≤ 65536 → r.dadr + r.len ≤ 65536 →
      stops (fun k t => t.lgb = s.lgb ∧ ∀ a, a < 131072 → spGet 0 t.shm a = if r.dadr ≤ a / 2 ∧ a / 2 < r.dadr + k
        then spGet 0 s.shm (2 * at_ (a / 2 - r.dadr) + a % 2) else spGet 0 s.shm a))
    ∧ (cjSrc r.mode = 1 → cjDst r.mode = 0 → r.dadr + r.len ≤ 65536 →
      stops (fun k t => t.lgb = s.lgb ∧ ∀ a, a < 131072 → spGet 0 t.shm a = if r.dadr ≤ a / 2 ∧ a / 2 < r.dadr + k
        then BitVec.ofNat 8 (byteOf (slot (a / 2 - r.dadr)) (a % 2)) else spGet 0 s.shm a))
    ∧ (cjDst r.mode = 1 → stops (fun _ t => t.lgb = s.lgb ∧ t.shm = s.shm))
    ∧ (cjDst r.mode = 2 → domOn s 6 = true → s.lgb.swap = none → e0 + r.len ≤ 1160 →
      stops (fun k t => t.shm = s.shm ∧ ∀ i, i < 1160 → spGet 0 t.lgb.back i = if e0 ≤ i ∧ i < e0 + k
        then (if cjSrc r.mode = 1 then slot (i - e0) else shmWord s (r.sadr + (i - e0))) % 65536 else spGet 0 s.lgb.back i)))
  ∧ (∀ (e : Eng) (j : Fin 8) (s : State), EngMay s e 0x3005 true → s.cpy.queued.testBit j.val = true → (∀ r, s.cpy.run = some r → r.j ≠ j.val) →
    Does (.cpystop e (1 <<< j.val)) s (fun t => t.cpy.code[j] = 4 ∧ t.cpy.is_ = setBit s.cpy.is_ j.val true ∧ t.cpy.queued.testBit j.val = false
      ∧ t.cpy.run = s.cpy.run ∧ t = { s with cpy := t.cpy }))

/-- R38, R295 to R304, R307, R313, R314: the engine's side of mailboxes and doorbells. That a release clears STAMP is the
model's reading: log entry 8. Where it else goes beyond the rules it is the model's choice or reading: log entries 2, 18. -/
def Obligations.EngineMailboxes : Prop :=
  ∀ (e : Eng) (v : Half) (len : Fin 16) (ring : Bool) (p : Port) (k : BitVec 6) (r : Fin 6) (x : BitVec 3) (s : State),
    let q := s.mbx.eng[e]
    let dp : Port := if q.embdb.testBit 7 then 1 else 0
    let c := q.echsel
    let ch := spGet {} s.mbx.chans c
    let mine : Prop := mbMine s e.val c = true
    let setCh (m : Mbx) (y : Chan) : Mbx := { m with chans := spSet {} m.chans c y }
    (EngMay s e 0x104 true → EngMay s e 0x105 true → ∃ y, exec (.echselWrite e v) s =
      .next (withIo y (putEngMb e { q with echsel := v.toNat % 1024, latch := none } s)))
    ∧ (EngMay s e 0x10A false → mine → q.embptr = 0 → ReadBoth (.embdatRead · ·) e e (slotWord ch 0 % 256) s (putEngMb e { q with
        latch := some (c, (List.range 32).map (fun i => slotWord ch (i / 2) / 256 ^ (i % 2) % 256)), embptr := 1 } s))
    ∧ (EngMay s e 0x10A false → mine → ∀ l, q.latch = some (c, l) → 0 < q.embptr → q.embptr < 32 →
        ReadBoth (.embdatRead · ·) e e (l.getD q.embptr 0 % 256) s (putEngMb e { q with embptr := (q.embptr + 1) % 32 } s))
    ∧ (EngMay s e 0x10B true → mine → chanDir s c = true → (ch.full = false ∨ chanLatest s c = true) →
        (ring = true → dbMine s dp e.val (q.embdb % 64) = true) → Does (.engineSend e len ring) s (fun t =>
          spGet {} t.mbx.chans c = { full := true, coll := ch.coll || ch.full, epend := ch.epend, len := len.val + 1, stamp := e.val, seq := ch.seq + 1
                                     slot := (List.range 16).map (fun w => if w ≤ len.val then engBuf q w % 65536 else 0) }
          ∧ t.mbx.eng[e] = { q with embres := 0 } ∧ (∀ d, d ≠ c → spGet {} t.mbx.chans d = spGet {} s.mbx.chans d)
          ∧ (∀ p : Port, (chanPorts s c).testBit p.val = true → t.hp[p].sel.hints.getLsbD 5 = true) ∧ t.mbx.dbE = s.mbx.dbE
          ∧ t.mbx.dbH = (if ring then s.mbx.dbH.set dp (s.mbx.dbH[dp] ||| (1#64 <<< (q.embdb % 64))) else s.mbx.dbH)
          ∧ (ring = true → t.hp[dp].sel.hints.getLsbD 4 = true)))
    ∧ (EngMay s e 0x10B true → mine → chanDir s c = true → ch.full = true → chanLatest s c = false →
        exec (.engineSend e len ring) s = .next { s with mbx := { setCh s.mbx { ch with coll := true } with eng := s.mbx.eng.set e { q with embres := 1 } } })
    ∧ (EngMay s e 0x10B true → mine → chanDir s c = false → exec (.engineSend e len ring) s = .next (putEngMb e { q with embres := 2 } s))
    ∧ (EngMay s e 0x10B true → mine → chanDir s c = false → ch.full = true →
        Does (.engineRelease e false) s (fun t => spGet {} t.mbx.chans c = { ch with full := false, len := 0, stamp := 0, slot := [], epend := false }
          ∧ t.mbx.eng[e] = { q with embres := 0 } ∧ t.mbx.dbH = s.mbx.dbH ∧ t.mbx.dbE = s.mbx.dbE))
    ∧ (EngMay s e 0x10B true → mine → exec (.engineRelease e true) s =
        .next (putEngMb e { q with embres := 3 } s))
    ∧ (EngMay s e 0x10B true → mine → exec (.ack e) s =
        .next { s with mbx := { setCh s.mbx { ch with epend := false } with eng := s.mbx.eng.set e { q with embres := 0 } } })
    ∧ (EngMay s e (0x140 + r.val) true → s.prt.eflags[e].testBit 0 = true → x.toNat < 6 → Does (.rolemapWrite e r x) s (fun t =>
        t.mbx = { s.mbx with rolemap := s.mbx.rolemap.set r x.toNat } ∧ (s.mbx.rolemap[r] = x.toNat → t = s) ∧ t.lck = s.lck ∧ t.eng = s.eng))
    ∧ (EngMay s e 0x131 true → dbMine s p e.val k.toNat = true → Does (.edbset e p k) s (fun t =>
        t.mbx = { s.mbx with dbH := s.mbx.dbH.set p (s.mbx.dbH[p] ||| (1#64 <<< k.toNat)) } ∧ t.hp[p].sel.hints.getLsbD 4 = true ∧ t.eng = s.eng))
    ∧ (EngMay s e 0x130 true → dbMine s p e.val k.toNat = true → exec (.edbclr e p false k) s =
        .next { s with mbx := { s.mbx with dbE := s.mbx.dbE.set p (s.mbx.dbE[p] &&& ~~~(1#64 <<< k.toNat)) } })
    ∧ (EngMay s e 0x130 true → exec (.edbclr e p true k) s =
        .next { s with mbx := { s.mbx with dbE := s.mbx.dbE.set p (s.mbx.dbE[p] &&& ~~~(BitVec.ofNat 64 (edbPend s p e.val))) } })

/-- R262, R263, R267, R269, R274, R279, R505: the pins of a host port and its resets. Where it goes beyond the rules it is
the model's choice or reading: log entry 5. -/
def Obligations.PortPins : Prop :=
  ∀ (p : Port) (priv v18 low wr : Bool) (off : BitVec 6) (left : Fin 8) (v : Half) (s : State),
    let h := s.hp[p]
    let away : Bool := domOn s 5 && domOn s 7 && s.ksc.encthr ≠ 0 && (List.finRange 4).any (fun n =>
      s.ksc.encctl.testBit n.val && decide ((s.ksc.encthr : Int) ≤ |s.ksc.enc[n].count.toInt|))
    let fresh (t : State) (x : HPort) : Prop := t.hp[p] = { x with rdyLow := false, wbuf := 0, sel := { fbcur := { seq := fbOldest s }, hints := if away then 0x0008#16 else 0 } }
      ∧ (∀ l, lockOwner t l ≠ some (6 + p.val)) ∧ (∀ n : Fin 4, t.ksc.enc[n].refH[p] = 0 ∧ t.ksc.enc[n].count = s.ksc.enc[n].count)
      ∧ (∀ n : Port, n ≠ p → t.hp[n] = s.hp[n]) ∧ t.mbx = s.mbx ∧ t.hsh = s.hsh
    let err (code : Nat) (wr : Bool) : State := putPort p { h with
      err := { valid := true, multi := h.err.multi || h.err.valid, code := code, wr := wr, off := off.toNat }
      sel := { h.sel with hints := h.sel.hints ||| 0x8000#16 }, driven := false } s
    (h.powered = false → s.rst.recovery = false → domOn s 7 = true → s.dct.mode ≠ .ship →
      exec (.portPowered p v18) s = .next (putPort p { h with powered := true, vio18 := v18 } s))
    ∧ (h.powered = true → exec (.portPowered p v18) s = .next (putPort p { h with vio18 := v18 } s))
    ∧ (h.powered = true → Does (.portUnpowered p) s (fun t => fresh t { h with powered := false, vio18 := false, cs := false, driven := false }))
    ∧ (PortMay s p priv 0x05 true → Does (.prst p priv) s (fun t => fresh t { h with hctl := h.hctl % 8, driven := false }))
    ∧ (h.powered = true → exec (.chipSelectChange p low) s =
        .next (putPort p { h with cs := low } s))
    ∧ (portServes s p = true → exec (.writeStrobeFalling p left) s = .next (putPort p { h with rdyLow := left.val ≠ 0, wbuf := left.val } s)
      ∧ exec (.writeOverrun p off) s = .next (err 0x0B true) ∧ exec (.strobeConflict p off wr) s = .next (err 0x0F wr))
    ∧ (PortMay s p priv 0x2F false → s.rst.active = 0 → 2 ≤ s.rst.step → Does (.errinfoRead p priv) s (fun t =>
        t.hp[p].rdyLow = false ∧ ∀ n, dPin t p n true = (if (BitVec.ofNat 16 (errWord h.err)).getLsbD n then .high else .low)))
    ∧ (PortMay s p priv 0x03 true → Does (.hintsClear p priv false v) s (fun t => ∀ n, dPin t p n true = .hiZ))
    ∧ (h.powered = false → s.rst.recovery = false → s.dct.mode = .ship → s.rst.active = 0 → exec (.portPowered p v18) s =
        .next { putPort p { h with powered := true, vio18 := v18 } s with dct := { s.dct with on := s.dct.on ||| 0x80#8 } })
    ∧ (h.powered = false ∨ s.dct.mode = .ship ∨ s.rst.active ≠ 0 ∨ domOn s 7 = false →
        rdyPin s p = .hiZ ∧ intPin s p = .hiZ ∧ errPin s p = .hiZ ∧ ∀ (n : Nat) (rd : Bool), dPin s p n rd = .hiZ)
    ∧ (h.powered = true → s.dct.mode ≠ .ship → s.rst.active = 0 → 2 ≤ s.rst.step → domOn s 7 = true →
        rdyPin s p = (if h.cs then (if h.rdyLow then .low else if h.hctl.testBit 1 then .hiZ else .high) else .hiZ)
        ∧ intPin s p = (if (h.sel.hints &&& h.sel.hinte) ≠ 0 then .low else if h.hctl.testBit 2 then .high else .hiZ)
        ∧ errPin s p = (if h.hctl.testBit 0 then (if h.err.valid then .low else .high) else .hiZ)
        ∧ ∀ n : Nat, dPin s p n false = .hiZ ∧ (h.driven = false → dPin s p n true = .hiZ))

/-- R265, R272 to R274: an access that a check of R273 turns away. Where it goes beyond the rules it is the model's
choice or reading: log entry 21. -/
def Obligations.HostErrorResponse : Prop :=
  ∀ (p : Port) (priv : Bool) (adr v : Half) (s : State), portServes s p = true →
    let h := s.hp[p]
    let off := adr.toNat % 64
    let err (code : Nat) (wr : Bool) (d : Half) : State := putPort p { h with
      err := { valid := true, multi := h.err.multi || h.err.valid, code := code, wr := wr, off := off }
      sel := { h.sel with hints := h.sel.hints ||| 0x8000#16 }, dOut := d, driven := !wr, rdyLow := false, wbuf := 0 } s
    (∀ c, portCheck s p priv off false = c → c ≠ 0 → exec (.registerRead (.hp p priv) adr) s = .next (err c false 0))
    ∧ (∀ c, portCheck s p priv off true = c → c ≠ 0 → exec (.registerWrite (.hp p priv) adr v) s = .next (err c true h.dOut))
    ∧ (0x3C ≤ off → portCheck s p priv off false = 1 ∧ portCheck s p priv off true = 1)

/-- R13, R270, R274, R280, R283, R290, R291, R304, R442: registers of the ports and of the engines. R289: the indirect
window into SHM. Where the second byte of a two-byte access lies with WINADR 0xFFFF is the model's reading: log entry 21 (DEDUCED).
Where it else goes beyond the rules it is the model's choice or reading: log entries 18, 19, 20. -/
def Obligations.RegisterAccess : Prop :=
  (∀ (p : Port) (e : Eng) (priv : Bool) (adr v : Half) (b : Byte) (i : BitVec 4) (s : State),
    let h := s.hp[p]
    let q := h.sel
    let ch := q.mbsel % 1024
    let w := q.mbsel / 1024 % 16
    let next := ch + 1024 * ((w + 1) % 16)
    let sel (x : PortSel) : State := putPort p { h with driven := false, rdyLow := false, wbuf := 0, sel := x } s
    let reads (x : PortSel) (d : Nat) : State := putPort p { h with driven := true, rdyLow := false, wbuf := 0, sel := x, dOut := BitVec.ofNat 16 d } s
    let may (off : Nat) (wr : Bool) : Prop := PortMay s p priv off wr
    (may 0x03 true → exec (.hintsClear p priv false v) s = .next (sel { q with hints := q.hints &&& ~~~v }))
    ∧ (may 0x04 true → exec (.hintsClear p priv true v) s = .next (sel { q with hinte := v }))
    ∧ (may 0x2F false → exec (.errinfoRead p priv) s = .next (putPort p { h with driven := true, rdyLow := false, wbuf := 0, err := {}, dOut := BitVec.ofNat 16 (errWord h.err) } s))
    ∧ (may 0x0C true → exec (.mbselWrite p priv v) s = .next (sel { q with
        mbsel := v.toNat % 16384, mlatch := if v.toNat % 1024 = ch then q.mlatch else none }))
    ∧ (may 0x0E true → mbAccess s p = 0 → exec (.mbdataWrite p priv v) s = .next (sel { q with mbuf := spSet 0 q.mbuf w v.toNat, mbsel := next }))
    ∧ (may 0x0E false → mbAccess s p = 0 → w = 0 → exec (.mbdataRead p priv) s = .next (reads { q with
        mlatch := some (ch, (List.range 16).map (slotWord (spGet {} s.mbx.chans ch))), mbsel := next } (slotWord (spGet {} s.mbx.chans ch) 0)))
    ∧ (may 0x0E false → mbAccess s p = 0 → w ≠ 0 → ∀ l, q.mlatch = some (ch, l) →
        exec (.mbdataRead p priv) s = .next (reads { q with mbsel := next } (l.getD w 0)))
    ∧ (may 0x18 false → exec (.refcntAccess p priv none) s = .next (reads { q with refidx := (q.refidx + 1) % 16 } (refEntry s q.refidx)))
    ∧ (may 0x18 true → exec (.refcntAccess p priv (some i)) s = .next (sel { q with refidx := i.toNat }))
    ∧ (EngMay s e 0x1813 true → exec (.rfclr e) s = .next { s with dct := { s.dct with refcnt := #v[0, 0, 0, 0, 0, 0, 0, 0, 0, 0] } })
    ∧ (EngMay s e 0x3400 true → Does (.hpsvcWrite e b) s (fun t => ∀ n : Port, t.hsh.svc.testBit n.val = b.getLsbD n.val
        ∧ t.hp[n].sel.hints = if b.getLsbD n.val = s.hsh.svc.testBit n.val then s.hp[n].sel.hints else s.hp[n].sel.hints ||| 0x4000#16))
    ∧ (∀ k : Fin 8, adr.toNat % 64 = 0x30 + k.val → may (0x30 + k.val) false → exec (.registerRead (.hp p priv) adr) s =
        .next (reads q (if k = 7 ∧ s.hsh.testctl.testBit 0 = true then 65535 - s.hsh.scratch[k] else s.hsh.scratch[k])))
    ∧ (∀ k : Fin 8, adr.toNat % 64 = 0x30 + k.val → may (0x30 + k.val) true → s.rst.recovery = false ∨ (if k = 0 then v.toNat else s.hsh.scratch[0]) ≠ 0x4B5A →
        exec (.registerWrite (.hp p priv) adr v) s = .next { sel q with hsh := { s.hsh with scratch := s.hsh.scratch.set k v.toNat } })
    ∧ (EngMay s e 0x02 true → v.toNat % 256 < 8 → exec (.registerWrite (.ce e) 0x02 v) s = .next (putEng e { s.eng[e] with dsb := v.toNat % 256 } s))
    ∧ (EngMay s e 0x02 true → 8 ≤ v.toNat % 256 → exec (.registerWrite (.ce e) 0x02 v) s = .next (putEng e { s.eng[e] with err := true } s))
    ∧ (EngMay s e 0x02 false → ∃ y, exec (.registerRead (.ce e) 0x02) s = .next (withIo y s) ∧ y.rd[e] = s.eng[e].dsb % 256)
    ∧ (engRuns s e = true → ∀ (a n x : Nat) (f : State → State), engWrite e a (n + 1) x s = engWrite e a (n + 1) x (govPast e s)
        ∧ engRead e a (n + 1) s = engRead e a (n + 1) (govPast e s) ∧ engAct e a x f s = engAct e a x f (govPast e s)))
  ∧ (∀ (p : Port) (priv : Bool) (v : Half) (s : State), fld s.hp[p].sel.winsel 11 10 = 2 →
    let h := s.hp[p]
    let q := h.sel
    let a := fld q.winsel 8 8 * 65536 + q.winadr
    let b := (a + 1) % 131072
    let next (n : Nat) : PortSel := if q.winsel.testBit 15 then { q with winadr := (q.winadr + n) % 65536 } else q
    let rd (x : Nat) : Nat := (spGet 0 s.shm (x % 131072)).toNat
    let put (m : List Host.Cell) (x d : Nat) : List Host.Cell := spSet 0 m (x % 131072) (BitVec.ofNat 8 d)
    (PortMay s p priv 0x3A false → winCheck s p false = 0 →
      (q.winsel.testBit 9 = true → exec (.windatRead p priv) s = .next (putPort p { h with driven := true, rdyLow := false, wbuf := 0, sel := next 1, dOut := BitVec.ofNat 16 (rd a) } s))
      ∧ (q.winsel.testBit 9 = false → exec (.windatRead p priv) s =
          .next (putPort p { h with driven := true, rdyLow := false, wbuf := 0, sel := next 2, dOut := BitVec.ofNat 16 (rd a + 256 * rd b) } s)))
    ∧ (PortMay s p priv 0x3A true → winCheck s p true = 0 →
      (q.winsel.testBit 9 = true → exec (.windatWrite p priv v) s = .next { putPort p { h with driven := false, rdyLow := false, wbuf := 0, sel := next 1 } s with
          shm := put s.shm a (v.toNat % 256) })
      ∧ (q.winsel.testBit 9 = false → exec (.windatWrite p priv v) s = .next { putPort p { h with driven := false, rdyLow := false, wbuf := 0, sel := next 2 } s with
          shm := put (put s.shm a (v.toNat % 256)) b (v.toNat / 256) })))

/-- R281, R297, R300 to R302, R306: the host side of mailboxes and doorbells. That a release clears STAMP is the
model's reading: log entry 8. Where it else goes beyond the rules it is the model's choice or reading: log entry 2. -/
def Obligations.HostMailboxes : Prop :=
  ∀ (p : Port) (priv : Bool) (len : BitVec 5) (k : BitVec 6) (s : State),
    let h := s.hp[p]
    let c := h.sel.mbsel % 1024
    let x := spGet {} s.mbx.chans c
    let s0 := putPort p { h with driven := false, rdyLow := false, wbuf := 0 } s
    let rest (t : State) : Prop := (∀ d, d ≠ c → spGet {} t.mbx.chans d = spGet {} s.mbx.chans d)
      ∧ t.mbx.dbE = s.mbx.dbE ∧ t.mbx.dbH = s.mbx.dbH ∧ t.mbx.eng = s.mbx.eng ∧ t.eng = s.eng ∧ t.lck = s.lck ∧ t.hp[p].err = h.err
    (PortMay s p priv 0x0F true → mbAccess s p = 0 → 1 ≤ len.toNat → len.toNat ≤ 16 → chanDir s c = false → (x.full = false ∨ chanLatest s c = true) →
      Does (.mailboxSend p priv len) s (fun t => rest t ∧
        spGet {} t.mbx.chans c = { full := true, coll := x.coll || x.full, epend := true, len := len.toNat, seq := x.seq + 1
                                   stamp := 6 + p.val + (if priv then 2 else 0)
                                   slot := (List.range 16).map (fun w => if w < len.toNat then spGet 0 h.sel.mbuf w % 65536 else 0) }))
    ∧ (PortMay s p priv 0x0F true → mbAccess s p = 0 → 1 ≤ len.toNat → len.toNat ≤ 16 → chanDir s c = false → x.full = true → chanLatest s c = false →
      Does (.mailboxSend p priv len) s (fun t => spGet {} t.mbx.chans c = { x with coll := true } ∧ t.hp[p].err.code = 0x0D ∧ t.hp[p].err.valid = true))
    ∧ (PortMay s p priv 0x0F true → mbAccess s p = 0 → chanDir s c = true → x.full = true →
      Does (.mailboxRelease p priv false) s (fun t => rest t ∧
        spGet {} t.mbx.chans c = { x with full := false, len := 0, stamp := 0, slot := [], epend := true }))
    ∧ (PortMay s p priv 0x0F true → mbAccess s p = 0 → Does (.mailboxRelease p priv true) s (fun t =>
        t.mbx = s.mbx ∧ t.hp[p].err.code = 0x0D ∧ t.hp[p].err.valid = true))
    ∧ (PortMay s p priv 0x10 true → dbRoute s p k.toNat ≠ 7 → s.dct.mode = .run → exec (.dbset p priv k) s =
        .next { s0 with mbx := { s.mbx with dbE := s.mbx.dbE.set p (s.mbx.dbE[p] ||| (1#64 <<< k.toNat)) } })
    ∧ (PortMay s p priv 0x10 true → dbRoute s p k.toNat ≠ 7 → Does (.dbset p priv k) s (fun t =>
        t.mbx = { s.mbx with dbE := s.mbx.dbE.set p (s.mbx.dbE[p] ||| (1#64 <<< k.toNat)) }))
    ∧ (PortMay s p priv 0x12 true → exec (.dbclr p priv k) s =
        .next { s0 with mbx := { s.mbx with dbH := s.mbx.dbH.set p (s.mbx.dbH[p] &&& ~~~(1#64 <<< k.toNat)) } }
      ∧ exec (.dbclrAll p priv) s = .next { s0 with mbx := { s.mbx with dbH := s.mbx.dbH.set p 0 } })

/-- R309, R310, R315: the locks. Where it goes beyond the rules it is the model's choice or reading: log entry 2. -/
def Obligations.Locks : Prop :=
  ∀ (e : Eng) (p : Port) (priv : Bool) (l : BitVec 5) (s : State),
    let h := s.hp[p]
    let le := s.lck.lksel[e]
    let lp := h.sel.locksel
    let take (k m : Nat) : State := { s with lck := { s.lck with held := spSet 0 s.lck.held k (m + 1) } }
    let shows (d : Nat) (t : State) : State := putPort p { h with driven := true, rdyLow := false, wbuf := 0, dOut := BitVec.ofNat 16 d } t
    let freed (t : State) : Prop := lockOwner t l.toNat = none ∧ ∀ k, k ≠ l.toNat → lockOwner t k = lockOwner s k
    let code (m : Mst) : Nat := match m with | .ce e => e.val | .hp p _ => 6 + p.val
    (EngMay s e 0x305 false → (lockOwner s le = none → ∃ y, exec (.lockAcquire (.ce e) []) s = .next (withIo y (take le e.val)) ∧ y.rd[e] = 0x80 + e.val)
      ∧ (∀ o, lockOwner s le = some o → o < 8 → ∃ y, exec (.lockAcquire (.ce e) []) s = .next (withIo y s) ∧ y.rd[e] = (if o = e.val then 0x80 else 0x40) + o))
    ∧ (PortMay s p priv 0x14 false → (lockOwner s lp = none → exec (.lockAcquire (.hp p priv) []) s = .next (shows (0x8000 + 6 + p.val) (take lp (6 + p.val))))
      ∧ (∀ o, lockOwner s lp = some o → exec (.lockAcquire (.hp p priv) []) s = .next (shows ((if o = 6 + p.val then 0x8000 else 0x4000) + o) s)))
    ∧ (∀ (m : Mst) (ms : List Mst) (k : Nat), ms ≠ [] → lockOwner s k = none → (∀ n ∈ m :: ms, match n with
          | .ce e => EngMay s e 0x305 false ∧ s.lck.lksel[e] = k
          | .hp p priv => PortMay s p priv 0x14 false ∧ s.hp[p].sel.locksel = k) →
        Does (.lockAcquire m ms) s (fun t => ∃ w ∈ (m :: ms).map code, lockOwner t k = some w ∧ spGet 0 t.lck.ptr k = (w + 1) % 8
          ∧ (∀ n ∈ (m :: ms).map code, (w + 8 - spGet 0 s.lck.ptr k) % 8 ≤ (n + 8 - spGet 0 s.lck.ptr k) % 8)
          ∧ ∀ (p : Port) (priv : Bool), .hp p priv ∈ m :: ms →
              t.hp[p].dOut = BitVec.ofNat 16 ((if 6 + p.val = w then 0x8000 else 0x4000) + w)))
    ∧ (EngMay s e 0x306 true → lockOwner s l.toNat = some e.val → Does (.lockRelease (.ce e) l) s freed)
    ∧ (EngMay s e 0x306 true → lockOwner s l.toNat ≠ some e.val → exec (.lockRelease (.ce e) l) s =
        .next { s with lck := { s.lck with stat := s.lck.stat.set e (s.lck.stat[e] ||| 2) } })
    ∧ (PortMay s p priv 0x15 true → lockOwner s l.toNat = some (6 + p.val) → Does (.lockRelease (.hp p priv) l) s (fun t => freed t ∧ t.hp[p].err = h.err))
    ∧ (PortMay s p priv 0x15 true → lockOwner s l.toNat ≠ some (6 + p.val) → Does (.lockRelease (.hp p priv) l) s (fun t =>
        t.lck = s.lck ∧ t.hp[p].err.code = 0x0E ∧ t.hp[p].err.valid = true))
    ∧ (EngMay s e 0x311 true → s.prt.eflags[e].testBit 0 = true → Does (.lkforce e l) s freed)

/-- R447, R450 to R452, R457 to R460: what enters the Field Book and what leaves it. R450, R461 (frame): a record
changes the Field Book, the Survey and HINTS, and nothing else. The model's reading: what a double verify failure
loses and where the slot pointer then stands (log entry 40), that the command says whether a clear is the later of two
of one edge (log entry 2), and 0xFFFF for a clear with no record held (log entry 23). Where it else goes beyond the
rules it is the model's choice or reading: log entry 27. -/
def Obligations.FieldBookRecords : Prop :=
  (∀ (e : Eng) (p : Port) (priv floor : Bool) (src typ : Byte) (pay : List Half) (s : State),
    let q := s.fbk
    let who := 6 + p.val + (if priv then 2 else 0)
    let cut (k : Nat) (l : List (Nat × FbRec)) := l.filter (fun y => y.1 ≠ k)
    let k := q.nvmSlot
    let k' := (q.nvmSlot + 1) % 2040
    let rec_ (src typ : Nat) (p : List Nat) : FbRec :=
      { src := src, typ := typ, seq := q.newest + 1, bootno := q.bootno, time := s.clk.time.toNat, p := p }
    let enters (i : Instr) (ring : List RingRec) (src typ : Nat) (p : List Nat) : Prop := Does i s (fun t =>
      t.fbk.ring = ring ++ [{ r := rec_ src typ p, written := false }] ∧ t.fbk.newest = q.newest + 1 ∧ t.fbk.fbis = q.fbis ||| 1 ∧ t.fbk.drops = 0
      ∧ ∀ n : Port, domOn s 7 = true → t.hp[n].sel.hints.getLsbD 12 = true)
    (∀ n same, recWords src.toNat typ.toNat = some n → ckRuns s = true → q.ring.length < 256 → q.drops = 0 → s.svy.svfsel = 0 →
      enters (.fieldBookRecord src typ pay same) q.ring src.toNat typ.toNat ((pay.map BitVec.toNat).take n))
    ∧ (recWords src.toNat typ.toNat = none → exec (.fieldBookRecord src typ pay) s = .next s)
    ∧ ((recWords src.toNat typ.toNat).isSome → ckRuns s = true → 256 ≤ q.ring.length → (∀ r ∈ q.ring, r.written = false) → Does (.fieldBookRecord src typ pay) s (fun t =>
        t.fbk = { q with drops := q.drops + 1, fedrop := min 65535 (q.fedrop + 1), stOvf := true, fbis := q.fbis ||| 2 }))
    ∧ (ckRuns s = true → q.ring.length < 256 → q.drops ≠ 0 → enters .fbkOverflow q.ring 0 2 [q.drops])
    ∧ (EngMay s e 0x1C27 true → q.ring.length < 256 → q.drops = 0 → s.svy.svfsel = 0 →
        enters (.firmwareRecord e) q.ring (0x10 + e.val) q.fertype ((List.range 9).map (fun i => spGet 0 q.ferbuf (2 * i) + 256 * spGet 0 q.ferbuf (2 * i + 1))))
    ∧ (PortMay s p priv 0x28 true → q.drops = 0 → fbHeld s ≠ [] →
        enters (.fieldBookClear (.hp p priv) q.nonce false) [] 0 1 [who, (fbHeld s).length, (fbOldest s).toNat]
        ∧ Does (.fieldBookClear (.hp p priv) q.nonce false) s (fun t => t.fbk.nvm = [] ∧ t.fbk.shadow = q.shadow ++ q.nvm))
    ∧ (EngMay s e 0x1C28 true → EngMay s e 0x1C29 true → s.prt.eflags[e].testBit 1 = true → q.drops = 0 → fbHeld s = [] →
        enters (.fieldBookClear (.ce e) q.nonce false) [] 0 1 [e.val, 0, 0xFFFF])
    ∧ (PortMay s p priv 0x28 true → q.drops = 0 → q.ring.length < 256 →
        enters (.fieldBookClear (.hp p priv) q.nonce true) q.ring 0 1 [who, 0, 0xFFFF])
    ∧ (∀ v, PortMay s p priv 0x28 true → v ≠ q.nonce → Does (.fieldBookClear (.hp p priv) v false) s (fun t =>
        t.fbk = q ∧ t.hp[p].err.code = 0x0C ∧ t.hp[p].err.valid = true))
    ∧ (∀ x l, ckRuns s = true → q.ring = x :: l → x.written = false → q.drops = 0 → q.raise = none →
        let marked (t : State) : Prop := t.fbk.ring.map RingRec.r = q.ring.map RingRec.r ∧ t.fbk.newest = q.newest
          ∧ (∀ r ∈ t.fbk.ring, if r.r.seq = x.r.seq then r.written = true else r ∈ q.ring)
        ((x.r.src ≠ 0 ∨ x.r.typ ≠ 1) →
          Does (.writeThrough true false floor) s (fun t => t.fbk.nvm = cut k q.nvm ++ [(k, x.r)] ∧ t.fbk.shadow = cut k q.shadow
            ∧ t.fbk.nvmSlot = k' ∧ marked t)
          ∧ Does (.writeThrough false true floor) s (fun t => t.fbk.nvm = cut k' (cut k q.nvm) ++ [(k', x.r)]
            ∧ t.fbk.shadow = cut k' (cut k q.shadow) ∧ t.fbk.nvmSlot = (k' + 1) % 2040 ∧ marked t))
        ∧ (q.ring.length < 256 → s.svy.svfsel = 0 → Does (.writeThrough false false floor) s (fun t => t.fbk.nvm = cut k' (cut k q.nvm) ∧ t.fbk.nvmSlot = (k + 2) % 2040
            ∧ (t.fbk.ring.getLast?).map (fun r => (r.r.src, r.r.typ, r.r.p)) = some (0, 4, [k', x.r.seq.toNat])))
        ∧ (x.r.src = 0 → x.r.typ = 1 → Does (.writeThrough true false floor) s (fun t => t.fbk.nvm = cut k q.nvm ++ [(k, x.r)]
            ∧ t.fbk.shadow = if floor then (cut k q.shadow).filter (fun y => !seqNewer x.r.seq y.2.seq) else cut k q.shadow))))
  ∧ (∀ (src typ : Byte) (pay : List Half) (s : State), Does (.fieldBookRecord src typ pay) s (fun t =>
    t = { s with fbk := t.fbk, svy := t.svy, hp := t.hp }
    ∧ ∀ p : Port, ∃ x : BitVec 16, t.hp[p] = { s.hp[p] with sel := { s.hp[p].sel with hints := s.hp[p].sel.hints ||| x } }))

/-- R38, R284, R285, R454, R456: the cursors. The model's reading: the bytes of GONE that an engine latches at byte 0 and
the flag that keeps them (log entry 40). Where it else goes beyond the rules it is the model's choice or reading: log
entries 2, 23. -/
def Obligations.FieldBookReaders : Prop :=
  (∀ (p : Port) (priv : Bool) (s : State), PortMay s p priv 0x25 false →
    let h := s.hp[p]
    let c := h.sel.fbcur
    let reads (x : FbCursor) (d : Nat) : Prop := exec (.fbwinRead p priv) s =
      .next (putPort p { h with driven := true, rdyLow := false, wbuf := 0, sel := { h.sel with fbcur := x }, dOut := BitVec.ofNat 16 d } s)
    (c.ptr = 0 → c.gone = false → seqNewer c.seq s.fbk.newest = true → reads c 0xFFFF)
    ∧ (c.ptr = 0 → c.gone = false → seqNewer c.seq s.fbk.newest = false → seqNewer (fbOldest s) c.seq = true → reads { c with gone := true } 0xFFFE)
    ∧ (c.ptr = 0 → c.gone = true → reads { c with gone := false, seq := fbOldShown s } (fbOldShown s).toNat)
    ∧ (∀ r, c.ptr = 0 → c.gone = false → seqNewer c.seq s.fbk.newest = false → seqNewer (fbOldest s) c.seq = false → fbFind s c.seq = some r →
        reads { c with latch := fbRecord r, ptr := 1 } ((fbRecord r).headD 0))
    ∧ (c.ptr ≠ 0 → c.ptr < 15 → reads { c with ptr := c.ptr + 1 } (c.latch.getD c.ptr 0))
    ∧ (c.ptr = 15 → reads { c with ptr := 0, seq := c.seq + 1 } (c.latch.getD 15 0)))
  ∧ (∀ (e : Eng) (s : State), EngMay s e 0x1C10 false →
    let c := s.fbk.ecur[e]
    let reads (x : FbCursor) (d : Nat) : Prop := ReadBoth (.fewinRead · ·) e e (d % 256) s { s with fbk := { s.fbk with ecur := s.fbk.ecur.set e x } }
    (c.ptr = 0 → seqNewer c.seq s.fbk.newest = true → reads c 0xFF)
    ∧ (c.ptr = 0 → seqNewer c.seq s.fbk.newest = false → seqNewer (fbOldest s) c.seq = true →
        reads { c with latch := [0xFE, 0xFF, (fbOldShown s).toNat % 256, (fbOldShown s).toNat / 256], ptr := 1, gone := true } 0xFE)
    ∧ (c.gone = true → 1 ≤ c.ptr → c.ptr ≤ 2 → reads { c with ptr := c.ptr + 1 } (c.latch.getD c.ptr 0))
    ∧ (c.gone = true → c.ptr = 3 → reads { c with ptr := 0, gone := false, seq := BitVec.ofNat 16 (c.latch.getD 2 0 + 256 * c.latch.getD 3 0) }
        (c.latch.getD 3 0))
    ∧ (c.ptr ≠ 0 → c.ptr < 31 → c.gone = false → reads { c with ptr := c.ptr + 1 } (c.latch.getD c.ptr 0))
    ∧ (c.ptr = 31 → c.gone = false → reads { c with ptr := 0, seq := c.seq + 1 } (c.latch.getD 31 0))
    ∧ (∀ r, c.ptr = 0 → seqNewer c.seq s.fbk.newest = false → seqNewer (fbOldest s) c.seq = false → fbFind s c.seq = some r →
        reads { c with latch := (fbRecord r).flatMap (fun w => [w % 256, w / 256]), ptr := 1, gone := false } ((fbRecord r).headD 0 % 256)))

/-- R38, R287, R461, R463, R466: the Survey. That the word of SNAPSEL and SVWORD go on from 0xFF to 0 is the model's choice: log entry
51 (DESIGN CHOICE). Where it else goes beyond the rules it is the model's choice or reading: log entries 2, 39. -/
def Obligations.SurveySnapshots : Prop :=
  ∀ (e n : Eng) (p : Port) (priv : Bool) (w : IWord) (s : State),
    let q := s.svy
    let takes (i : Instr) (src : Nat) : Prop :=
      (q.held = false → Does i s (fun t => t.svy.count = q.count + 1 ∧ t.svy.src = src ∧ t.svy.held = false ∧ t.svy.latched = true ∧ t.svy.svis = q.svis ||| 1 ∧ t.svy.miss = q.miss
        ∧ (s.fbk.ring.length < 256 → s.fbk.drops = 0 → ∃ r : FbRec, t.fbk.ring = s.fbk.ring ++ [{ r := r, written := false }]
            ∧ r.src = 1 ∧ r.typ = 1 ∧ r.p = [src, (q.count + 1).toNat, 0xFFFF])))
      ∧ (q.held = true → Does i s (fun t => t.svy = { q with miss := min 255 (q.miss + 1), svis := q.svis ||| 2, latched := false } ∧ t.fbk = s.fbk))
    (EngMay s e 0x1E04 true → takes (.snapshotTrigger (.ce e) false) 4)
    ∧ (PortMay s p priv 0x29 true → takes (.snapshotTrigger (.hp p priv) false) (2 + p.val))
    ∧ (ckRuns s = true → s.gpio.viom = true → takes (.snapPin false) 1)
    ∧ (q.latched = true → q.src ≠ 0 → let one (i : Instr) (src : Nat) : Prop := Does i s (fun t => t.svy.count = q.count ∧ t.svy.src = min src q.src ∧ t.svy.miss = q.miss
          ∧ t.fbk.ring.length = s.fbk.ring.length)
        (EngMay s e 0x1E04 true → one (.snapshotTrigger (.ce e) true) 4 ∧ one (.registerWrite (.ce e) 0x1E04 1 true) 4)
        ∧ (PortMay s p priv 0x29 true → one (.snapshotTrigger (.hp p priv) true) (2 + p.val))
        ∧ (ckRuns s = true → s.gpio.viom = true → one (.snapPin true) 1))
    ∧ (q.latched = false → (EngMay s e 0x1E04 true → takes (.snapshotTrigger (.ce e) true) 4)
        ∧ (PortMay s p priv 0x29 true → takes (.snapshotTrigger (.hp p priv) true) (2 + p.val))
        ∧ (ckRuns s = true → s.gpio.viom = true → takes (.snapPin true) 1))
    ∧ (∀ src typ pay c, q.join = none → snapClass src.toNat typ.toNat = some c → q.svfsel.testBit c = true → ckRuns s = true → s.fbk.ring.length < 255 → s.fbk.drops = 0 →
        (recWords src.toNat typ.toNat).isSome = true →
        (∀ same, q.held = false → (same = true → q.latched = false) → Does (.fieldBookRecord src typ pay same) s (fun t => t.svy.count = q.count + 1 ∧ t.svy.src = 5
          ∧ t.svy.held = q.holdflt ∧ t.fbk.ring.length = s.fbk.ring.length + 2
          ∧ (same = false → (t.fbk.ring.getLast?).map (fun r => r.r.p) = some [5, (q.count + 1).toNat, (s.fbk.newest + 1).toNat])))
        ∧ (q.held = true → Does (.fieldBookRecord src typ pay) s (fun t => t.svy = { q with miss := min 255 (q.miss + 1), svis := q.svis ||| 2, latched := false }
          ∧ t.fbk.ring.length = s.fbk.ring.length + 1))
        ∧ (q.latched = true → q.src ≠ 0 → Does (.fieldBookRecord src typ pay true) s (fun t => t.svy.count = q.count ∧ t.svy.src = min 5 q.src
          ∧ t.svy.held = (q.held && decide (q.src ≥ 5)) ∧ t.fbk.ring.length = s.fbk.ring.length + 1)))
    ∧ (CxReady s e → s.eng[e].intrap = true → Cx.decode w = none → q.svfsel.testBit 3 = true → q.held = false → q.join = none → s.fbk.ring.length < 255 → s.fbk.drops = 0 →
        Does (.undefinedOpcode e w) s (fun t => if q.fresh = true ∧ q.latched = true
          then t.svy.count = q.count ∧ t.svy.src = min 5 q.src ∧ t.fbk.ring.length = s.fbk.ring.length + 1
          else t.svy.count = q.count + 1 ∧ t.svy.src = 5 ∧ t.fbk.ring.length = s.fbk.ring.length + 2))
    ∧ (CxReady s e → ∀ same, (same = true → q.latched = false) → exec (.cxSnap e same) s = .next (takeSnap 4 0xFFFF (cxAfter e id s)))
    ∧ (EngMay s e 0x1E03 true → exec (.svrel e) s = .next { s with svy := { q with held := false } })
    ∧ (PortMay s p priv 0x2B false →
        let h := s.hp[p]
        let w := h.sel.snapsel
        exec (.snapwinRead p priv) s = .next (putPort p { h with driven := true, rdyLow := false, wbuf := 0, sel := { h.sel with snapsel := w - w % 256 + (w + 1) % 256 }
                                                                 dOut := BitVec.ofNat 16 ((spGet [] q.words (w / 256)).getD (w % 256) 0) } s))
    ∧ (EngMay s e 0x1E0C false → EngMay s e 0x1E0D false → EngMay s n 0x1E0C false → EngMay s n 0x1E0D false →
        ReadBoth (.svdatRead · ·) e n ((spGet [] q.words q.svblk).getD q.svword 0 % 65536) s { s with svy := { q with svword := (q.svword + 1) % 256 } })
    ∧ (EngMay s e 0x1E09 false → EngMay s n 0x1E09 false → ReadBoth (.svmissRead · ·) e n (q.miss % 256) s { s with svy := { q with miss := 0 } })

/-- R401 to R404, R409: reset sources and the reset sequence. Where it goes beyond the rules it is the model's choice
or reading: log entry 22. -/
def Obligations.Resets : Prop :=
  (∀ (e : Eng) (s : State),
    let stops (i : Instr) (k : Nat) (hist : Nat) : Prop := Does i s (fun t =>
      t.rst = { s.rst with active := setBit s.rst.active k true, hist := hist, drst := t.rst.drst, step := 0 } ∧ t.dct.on = 0
      ∧ (∀ (p : Port) (n : Nat), t.hp[p].driven = false ∧ rdyPin t p = .hiZ ∧ intPin t p = .hiZ ∧ errPin t p = .hiZ ∧ ∀ rd, dPin t p n rd = .hiZ)
      ∧ (∀ n x y : Nat, psPin t n = .hiZ ∧ cgPin t n x y = .hiZ ∧ kdPin t n = .hiZ ∧ lsgPin t n x = .hiZ ∧ sinkCode t n x = 0)
      ∧ (∀ (n : Fin 4) (b : Bool), gpioPin t n = .hiZ ∧ smbPin t n b = .hiZ ∧ tdoPin t b = .hiZ ∧ ∀ x, fanPin t n x = .hiZ ∧ lsyncPin t x = .hiZ)
      ∧ acgPin t = .hiZ ∧ batgPin t = .hiZ ∧ ltdoPin t = .hiZ ∧ (∀ (c : Fin 3) (n : Fin 8) (x : Nat) (b : Bool), railGate t c b = .hiZ ∧ esGate t n x b = .hiZ ∧ esDimPin t n x = .hiZ)
      ∧ t.rtc = s.rtc ∧ t.fbk = s.fbk ∧ t.fls = s.fls)
    stops .powerOnReset 0 (s.rst.active ||| 1) ∧ stops .resetPin 2 (if s.dct.mode = .ship ∧ 2 ≤ s.rst.step then s.rst.active ||| 4 else s.rst.hist ||| 4)
    ∧ (s.dct.mode ≠ .ship → stops .brownout 3 (s.rst.hist ||| 8) ∧ stops .xfail 4 (s.rst.hist ||| 16))
    ∧ (s.dct.mode = .ship → (s.rst.step = 1 → stops .xfail 4 (s.rst.hist ||| 16)) ∧ (s.rst.step ≠ 1 → exec .xfail s = .next s) ∧ exec .brownout s = .next s)
    ∧ (s.dct.mode ≠ .ship → EngMay s e 0x182C true → s.prt.eflags[e].testBit 0 = true → stops (.deviceResetCommand e) 5 (s.rst.hist ||| 32)))
  ∧ (∀ (s : State) (c : Nat), lowestBit 6 s.rst.active = some c → s.fls.cmd = none →
    let full : Prop := s.rst.active.testBit 0 = true ∨ s.rst.active.testBit 1 = true ∨ s.dct.mode = .ship ∨ s.rst.por = true
    Does (.resetSequence 5 [] []) s (fun t => t.rst.active = 0 ∧ t.rst.step = 6 ∧ t.rst.cause = c + 1 ∧ t.rst.hist = s.rst.hist ∧ t.rst.bootPhase = true
      ∧ t.rst.sealed = false ∧ t.dct = {} ∧ t.clk = {} ∧ t.prt = {} ∧ t.mbx = {} ∧ t.lck = {} ∧ t.cpy = {} ∧ t.shm = [] ∧ t.lgt = {} ∧ t.chg = {}
      ∧ t.tha = { anaIn := s.tha.anaIn } ∧ t.bmk = {} ∧ t.seq = { pg := s.seq.pg, wk := s.seq.wk } ∧ t.svy = {}
      ∧ t.eng = #v[{ run := .running, rom := true, role := 0 }, {}, {}, {}, {}, {}] ∧ (∀ e : Eng, t.emem[e] = {})
      ∧ (∀ n : Fin 4, gpioPin t n = .hiZ ∧ t.gpio.pin = 0 ∧ t.ksc.enc[n].count = 0) ∧ (∀ n, psPin t n = .hiZ) ∧ t.trst = s.trst
      ∧ t.fls.mem = s.fls.mem ∧ t.fls.otpSvn = s.fls.otpSvn ∧ t.fbk.bootno = s.fbk.bootno + 1 ∧ t.pending = s.pending
      ∧ (¬ full → t.rtc = { s.rtc with eng := {}, err := false }) ∧ (full → t.rtc = {} ∧ t.fbk.ring = [])))
  ∧ (∀ (a b : Fin 6) (ring : List Half) (nvm : List (BitVec 11)) (s : State), a ≤ b → s.rst.active ≠ 0 →
    Does (.resetSequence a ring nvm) s (fun t => exec (.resetSequence b ring nvm) t = exec (.resetSequence b ring nvm) s
      ∧ t.rst.active = 0 ∧ t.rst.step = a.val + 1
      ∧ (a.val = 0 → s.rst.active.testBit 0 = true ∨ s.rst.active.testBit 1 = true ∨ s.dct.mode = .ship ∨ s.rst.por = true → t.rst.por = true) ∧ (a.val < 5 → hstatMode t = 2) ∧ (a.val = 5 → hstatMode t = 0)
      ∧ (1 ≤ a.val → t.dct.on = if a.val = 1 then 0x01#8 else if a.val < 5 then 0x89#8 else 0xFF#8)
      ∧ (1 ≤ a.val → t.eng[(0 : Fin 6)].run = if a.val < 4 then .held else .running)
      ∧ (1 ≤ a.val → (∀ x ∈ t.fbk.nvm, ∀ k ∈ nvm, x.1 ≠ k.toNat)
          ∧ (∀ x ∈ t.fbk.ring, ∀ k ∈ ring, x.r.seq ≠ k)))
    ∧ ∀ k, exec (.resetSequence b ring nvm) { s with rst := { s.rst with step := k } } = exec (.resetSequence b ring nvm) s)
  ∧ (∀ (b : Fin 6) (ring : List Half) (nvm : List (BitVec 11)) (s : State), s.rst.active = 0 → b.val < s.rst.step →
    exec (.resetSequence b ring nvm) s = .next s)

/-- R83, R397 to R400, R405: the PLL and the CK source, and KSC around a change of it. Where it goes beyond the rules it is the
model's choice or reading: log entries 2, 3, 30, 31. -/
def Obligations.ClockSource : Prop :=
  ∀ (e : Eng) (failed : Bool) (s : State), ckRuns s = true →
    let c := s.clk
    let clk (x : Clk) : State := { s with clk := x }
    let holds : Prop := s.dct.phase = .gather ∧ s.dct.mode = .run ∧ (s.dct.dom = some 5 ∨ (s.dct.dom = none ∧ s.dct.cur.map DctReq.tgt = some 2))
    let starts : Prop := s.ksc.scanning = true ∧ s.ksc.scanen = true ∧ s.ksc.fr = .idle ∧ s.dct.mode = .run ∧ ¬ holds
    (c.pllOn = true → c.lock = false → wakeReady s = false → exec .pllLock s = .next (clk { c with lock := true }))
    ∧ (c.pllOn = true → c.lock = true → c.ckPll = true → Does .pllLoss s (fun t =>
        t.clk = { c with lock := false, ckPll := false, fallback := true, prep := false, sub := 0 } ∧ t.chg.gates = 0 ∧ t.dct = s.dct
        ∧ (s.fbk.ring.length < 256 → s.fbk.drops = 0 → s.svy.svfsel = 0 → ∃ r : FbRec, t.fbk.ring = s.fbk.ring ++ [{ r := r, written := false }] ∧ r.src = 2 ∧ r.typ = 9 ∧ r.p = [c.retry])))
    ∧ (c.fallback = true → c.retry < 3 → s.dct.mode = .run → exec (.pllRestart failed) s =
        .next (clk { c with pllOn := true, retry := if failed then c.retry + 1 else c.retry }))
    ∧ (c.fallback = true → c.lock = true → c.ckPll = false → s.dct.mode = .run → exec .fallbackReturn s = .next (clk { c with prep := true }))
    ∧ (c.pllOn = true → c.lock = true → c.ckPll = false → (c.prep = true → ¬ starts) →
        exec .pllLoss s = .next (clk { c with lock := false, prep := false }))
    ∧ (c.pllOn = true → c.lock = true → c.ckPll = false → c.prep = true → starts →
        exec .pllLoss s = .next { clk { c with lock := false, prep := false } with ksc := { s.ksc with fr := .start, slow := false, resolving := false } })
    ∧ (EngMay s e 0x1829 true → c.fallback = true → exec (.relock e) s = .next (clk { c with retry := 0, pllOn := true }))
    ∧ (c.prep = true → kscIdle s = true → gatesOff s = true → (c.ckPll = true ∨ c.lock = true) → Does .ckSourceChange s (fun t =>
        t.clk = { c with ckPll := !c.ckPll, prep := c.fallback && s.dct.phase = .committed && s.dct.dom = none && s.dct.cur.map DctReq.tgt = some 1
                         fallback := false, sub := 0 }
        ∧ (s.ksc.scanning = false → t.ksc.fr = s.ksc.fr) ∧ (s.ksc.scanning = true → (t.ksc.fr = .start ↔ c.ckPll = false ∧ s.ksc.scanen = true ∧ ¬ holds)
          ∧ (t.ksc.fr = .start ∨ t.ksc.fr = .idle))
        ∧ t.chg = s.chg ∧ t.eng = s.eng ∧ t.ksc.plane = s.ksc.plane ∧ t.lgt = s.lgt))
    ∧ (c.prep = true → (kscIdle s = false ∨ gatesOff s = false ∨ (c.ckPll = false ∧ c.lock = false)) → exec .ckSourceChange s = .next s)

/-- R30, R288, R292, R483, R500, R501: RTC, GPIO, bank supplies and the test port. R292: a second of the RTC, with
every carry. Where it goes beyond the rules it is the model's choice or reading: log entries 4, 41, 42. -/
def Obligations.BoardCommands : Prop :=
  (∀ (e : Eng) (p : Port) (priv up tms tdi low : Bool) (ir : TapIr) (n : Fin 7) (v : Byte) (g : BitVec 4) (b : Fin 6) (s : State),
    let h := s.hp[p]
    let c := s.rtc.eng
    let q := h.sel
    let sel (x : PortSel) : State := putPort p { h with driven := false, rdyLow := false, wbuf := 0, sel := x } s
    (EngMay s e 0x2C08 true → exec (.rtcHold (.ce e)) s = .next { s with rtc := { s.rtc with eng := { hold := true, copy := s.rtc.f } } })
    ∧ (PortMay s p priv 0x2D true → q.rtcsel % 8 < 7 → exec (.rtcHold (.hp p priv)) s =
        .next (sel { q with rtc := { hold := true, copy := s.rtc.f }, rtcsel := q.rtcsel % 8 + bAt (q.rtcsel.testBit 6) 6 }))
    ∧ (EngMay s e 0x2C08 true → c.hold = true → c.written = true → dateOk c.copy = true → exec (.rtcLoad (.ce e)) s =
        .next { s with rtc := { s.rtc with f := c.copy, lost := false, eng := { c with hold := false, written := false } } })
    ∧ (PortMay s p priv 0x2D true → q.rtcsel % 8 < 7 → q.rtc.hold = true → q.rtc.written = true → dateOk q.rtc.copy = true →
        exec (.rtcLoad (.hp p priv)) s = .next { sel { q with rtc := { q.rtc with hold := false, written := false }, rtcsel := q.rtcsel % 8 + bAt (q.rtcsel.testBit 6) 6 }
          with rtc := { s.rtc with f := q.rtc.copy, lost := false } })
    ∧ (EngMay s e (0x2C09 + n.val) true → rtcOk n.val v.toNat = true → c.hold = true → exec (.rtcWrite (.ce e) n v) s =
        .next { s with rtc := { s.rtc with eng := { c with copy := c.copy.set n v.toNat, written := true } } })
    ∧ (EngMay s e (0x2C09 + n.val) true → rtcOk n.val v.toNat = true → c.hold = false → dateOk (s.rtc.f.set n v.toNat) = true → exec (.rtcWrite (.ce e) n v) s =
        .next { s with rtc := { s.rtc with f := s.rtc.f.set n v.toNat, lost := false } })
    ∧ (EngMay s e (0x2C09 + n.val) true → rtcOk n.val v.toNat = false → exec (.rtcWrite (.ce e) n v) s = .next { s with rtc := { s.rtc with err := true } })
    ∧ (PortMay s p priv 0x2E true → q.rtcsel % 8 = n.val → rtcOk n.val v.toNat = true → q.rtc.hold = true → exec (.rtcWrite (.hp p priv) n v) s =
        .next (sel { q with rtc := { q.rtc with copy := q.rtc.copy.set n v.toNat, written := true }, rtcsel := rtcNext q.rtcsel }))
    ∧ (ckRuns s = true → exec (.gpioInputChange g) s = .next { s with gpio := { s.gpio with
        pin := g.toNat, is_ := s.gpio.is_ ||| (if s.gpio.viom then (g ^^^ BitVec.ofNat 4 s.gpio.pin).toNat else 0) } })
    ∧ (Does (.bankSupplyChange b up) s (fun t => t = { s with gpio := t.gpio, seq := t.seq, smb := t.smb, tap := t.tap }
        ∧ (t.tap = if b = 2 ∧ up = true ∧ s.trst = true then {} else s.tap)
        ∧ (t.seq = if b = 1 ∧ (up = false ∨ s.gpio.vios = false) then { s.seq with wk := BitVec.ofNat 4 (seqLive s 0x33) } else s.seq)
        ∧ (∀ k : Fin 4, t.smb[k] = if b = 2 ∧ up = false then { s.smb[k] with lost := s.smb[k].lost || s.smb[k].busy, busbusy := false } else s.smb[k])
        ∧ (∀ n, s.gpio.vios = false ∧ b.val ≠ 1 ∨ b = 1 ∧ up = false → psPin t n = .hiZ)
        ∧ t.gpio.pin = s.gpio.pin ∧ t.gpio.out = s.gpio.out
        ∧ t.gpio.viok = (if b = 0 then up else s.gpio.viok) ∧ t.gpio.vios = (if b = 1 then up else s.gpio.vios) ∧ t.gpio.viom = (if b = 2 then up else s.gpio.viom)
        ∧ t.gpio.lsgv = (if b = 3 then up else s.gpio.lsgv) ∧ t.gpio.drvv = (if b = 4 then up else s.gpio.drvv) ∧ t.gpio.vdrvl = (if b = 5 then up else s.gpio.vdrvl)))
    ∧ (let st := tapNext tms s.tap.st
       let may : Prop := s.hsh.testctl.testBit 1 = true ∧ (s.rst.sealed = false ∨ s.prt.gflags.testBit 1 = true)
       ckRuns s = true → s.gpio.viom = true → s.trst = false → exec (.testPortClock tms tdi ir) s = .next { s with tap := {
         st := st, ir := if st = .reset then .idcode else if st = .updIr then (if ir = .other ∧ ¬ may then .bypass else ir) else s.tap.ir } })
    ∧ (s.trst = true → exec (.testPortClock tms tdi ir) s = .next s)
    ∧ exec (.testPortReset low) s = .next { s with trst := low, tap := if low && s.gpio.viom then {} else s.tap })
  ∧ (∀ s : State, s.dct.mode ≠ .ship → s.rst.active.testBit 0 = false → s.rst.active.testBit 1 = false → (∀ n : Fin 7, rtcOk n.val s.rtc.f[n] = true) → dateOk s.rtc.f = true →
    (∀ n : Fin 7, s.rtc.f[n] < 256) →
    Does .rtcTick s (fun t =>
      let old (n : Fin 7) : Nat := bcd s.rtc.f[n]
      let new (n : Fin 7) : Nat := bcd t.rtc.f[n]
      let midnight : Prop := old 0 = 59 ∧ old 1 = 59 ∧ old 2 = 23
      let monthEnd : Prop := old 4 = monthDays (old 5) (old 6)
      t = { s with rtc := { s.rtc with f := t.rtc.f } } ∧ (∀ n : Fin 7, rtcOk n.val t.rtc.f[n] = true) ∧ dateOk t.rtc.f = true
      ∧ new 0 = (old 0 + 1) % 60 ∧ (new 1 = if old 0 = 59 then (old 1 + 1) % 60 else old 1) ∧ (new 2 = if old 0 = 59 ∧ old 1 = 59 then (old 2 + 1) % 24 else old 2)
      ∧ (midnight → new 3 = old 3 % 7 + 1 ∧ (¬ monthEnd → new 4 = old 4 + 1 ∧ new 5 = old 5 ∧ new 6 = old 6)
          ∧ (monthEnd → new 4 = 1 ∧ new 5 = old 5 % 12 + 1 ∧ new 6 = (if old 5 = 12 then (old 6 + 1) % 100 else old 6)))
      ∧ (¬ midnight → ∀ n : Fin 7, 3 ≤ n.val → t.rtc.f[n] = s.rtc.f[n])))

/-- R38, R388, R389, R415 to R417, R419, R421: engine resets, PRT, the flash. That ADDR goes on from 0x1FFFFF to 0 is the model's
choice: log entry 51 (DESIGN CHOICE). Where it else goes beyond the rules it is the model's choice or reading: log entries 2, 9,
28. -/
def Obligations.ResetProtectFlash : Prop :=
  ∀ (e : Eng) (n : Eng) (role : Fin 6) (v : Byte) (ok : Bool) (s : State),
    let f := s.fls
    let fls (x : Fls) : State := { s with fls := x }
    let mayFlash : Prop := EngMay s e 0x2C85 true ∧ s.prt.eflags[e].testBit 2 = true
    (EngMay s e 0x1820 true → s.prt.eflags[e].testBit 0 = true → domOn s (engDom n.val) = true →
      Does (.erst e (BitVec.ofNat 8 (32 * n.val + 2 * role.val + 1))) s (fun t =>
        t.eng[n] = { run := .loading, rom := true, role := role.val, cause := 1 } ∧ (∀ l, lockOwner t l ≠ some n.val) ∧ (∀ m : Eng, m ≠ n → t.eng[m] = s.eng[m]) ∧ t.emem = s.emem)
      ∧ Does (.erst e (BitVec.ofNat 8 (32 * n.val + 16 + 2 * role.val + 1))) s (fun t =>
        t.eng[n] = { failed := s.eng[n].failed } ∧ (∀ l, lockOwner t l ≠ some n.val) ∧ (∀ m : Eng, m ≠ n → t.eng[m] = s.eng[m]) ∧ t.emem = s.emem))
    ∧ (EngMay s e 0x1820 true → s.prt.eflags[e].testBit 0 = false → exec (.erst e (BitVec.ofNat 8 (32 * n.val + 2 * role.val + 1))) s =
        .next { s with dct := { s.dct with erflt := s.dct.erflt ||| 1 } })
    ∧ (EngMay s 0 0x2801 true → Does .prtseal s (fun t => t.rst = { s.rst with bootPhase := false, sealed := true } ∧ t.prt = s.prt ∧ t.eng = s.eng))
    ∧ (EngMay s e 0x28A3 false → EngMay s n 0x28A3 false → ReadBoth (.prtixdatAccess · none ·) e n (prtEntry s % 256) s { s with prt := { s.prt with ixidx := (s.prt.ixidx + 1) % 1024 } })
    ∧ (EngMay s e 0x28A3 true → v.toNat % 8 ≠ 6 → s.prt.ixsel = 0 → exec (.prtixdatAccess e (some v)) s = .next { s with prt := { s.prt with
        chan := spSet 7 s.prt.chan s.prt.ixidx (v.toNat - v.toNat / 8 % 2 * 8), ixidx := (s.prt.ixidx + 1) % 1024 } })
    ∧ (mayFlash → f.cmd = none → flashRefused s 1 = false → exec (.flashErase e) s = .next (fls { f with cmd := some (1, f.adr) }))
    ∧ (mayFlash → f.cmd = none → flashRefused s 2 = false → exec (.flashProgram e) s = .next (fls { f with cmd := some (2, f.adr) }))
    ∧ (mayFlash → f.cmd = none → flashRefused s 3 = false → f.otpSvn < f.dat → f.dat ≤ 63 → exec (.svnAdvance e) s = .next (fls { f with cmd := some (3, f.dat) }))
    ∧ (mayFlash → f.cmd ≠ none → exec (.flashErase e) s = .next (fls { f with prot := true }) ∧ exec (.flashProgram e) s = .next (fls { f with prot := true })
        ∧ exec (.svnAdvance e) s = .next (fls { f with prot := true }))
    ∧ (EngMay s e 0x2C84 true → exec (.fldatAccess e (some v)) s = .next (fls { f with
        dat := v.toNat, page := spSet 0xFF f.page (f.adr % 64) v.toNat, adr := (f.adr + 1) % 2097152 }))
    ∧ (EngMay s e 0x2C84 false → EngMay s n 0x2C84 false → ReadBoth (.fldatAccess · none ·) e n (if f.cmd = none then (spGet 0xFF f.mem f.adr).toNat else 0xFF) s
        (fls { f with adr := (f.adr + 1) % 2097152 }))
    ∧ (∀ a, ckRuns s = true → f.cmd = some (1, a) → Does (.flashCommandDone ok) s (fun t => t.fls.cmd = none ∧ t.fls.fail = (f.fail || !ok)
        ∧ ∀ x, (x / 4096 ≠ a / 4096 → spGet 0xFF t.fls.mem x = spGet 0xFF f.mem x) ∧ (x / 4096 = a / 4096 → ok = true → spGet 0xFF t.fls.mem x = 0xFF)))
    ∧ (∀ a, ckRuns s = true → f.cmd = some (2, a) → Does (.flashCommandDone ok) s (fun t => t.fls.cmd = none ∧ t.fls.fail = (f.fail || !ok)
        ∧ ∀ x, (x / 64 ≠ a / 64 → spGet 0xFF t.fls.mem x = spGet 0xFF f.mem x)
          ∧ (x / 64 = a / 64 → ok = true → spGet 0xFF t.fls.mem x = spGet 0xFF f.mem x &&& BitVec.ofNat 8 (spGet 0xFF f.page (x % 64)))))
    ∧ (∀ a, ckRuns s = true → f.cmd = some (3, a) → exec (.flashCommandDone ok) s = .next { fls { f with cmd := none, fail := f.fail || !ok, otpSvn := if ok then a else f.otpSvn } with free := s.free + 1 })

/-- R388, R407, R412, R414: the role loader, the device boot and the recovery wait. Whether a container is valid rests
on the OTP key hashes, which the device is made with, so it stands in the conclusions. Where it goes beyond the rules
it is the model's choice or reading: log entries 25, 26. -/
def Obligations.BootAndRoles : Prop :=
  (∀ (e : Eng) (x : Sec) (s : State),
    let q := s.eng[e]
    let slot := s.rst.bootstat / 64
    domOn s (engDom e.val) = true → q.run = .loading →
    ((roleSecs s slot q.role).find? (fun x => x.typ = 1) = some x → slot ≠ 3 → (roleSecs s slot q.role).all (digestOk s slot) = true →
      Does (.roleLoadComplete e) s (fun t => t.eng[e].run = .running ∧ t.eng[e].pc = x.entry ∧ t.eng[e].role = q.role
        ∧ gRead t.eng[e] 0 = q.role % 256 ∧ gRead t.eng[e] 1 = q.cause % 256 ∧ gRead t.eng[e] 2 = 0 ∧ (t.eng[e].rom = true ↔ x.entry < 0x0800) ∧ ∀ m : Eng, m ≠ e → t.eng[m] = s.eng[m]))
    ∧ ((roleSecs s slot q.role).all (digestOk s slot) = false → Does (.roleLoadComplete e) s (fun t =>
        t.eng[e] = { failed := true } ∧ t.dct = { s.dct with erflt := s.dct.erflt ||| 2 } ∧ (∀ m : Eng, m ≠ e → t.eng[m] = s.eng[m])
        ∧ (∀ l, lockOwner t l ≠ some e.val) ∧ (∀ l, lockOwner s l ≠ some e.val → lockOwner t l = lockOwner s l)
        ∧ t.mbx = { s.mbx with eng := s.mbx.eng.set e { s.mbx.eng[e] with buf := [] } })))
  ∧ (∀ s : State, romRuns s = true → s.rst.recovery = false → (brCurrent s).1.st = (0, 0) → Does .deviceBoot s (fun t =>
      t.rst = { s.rst with bootstat := 0xD0, recovery := true } ∧ t.fls = s.fls ∧ t.eng = s.eng
      ∧ ∀ p : Port, s.hp[p].powered = true → fld t.prt.pright[p] 29 28 = 2 ∧ t.prt.wreg[4 * p.val]'(by omega) = { b0 := 0xD0, start := 0x10000, stop := 0x1FFFF }))
  ∧ (∀ (p : Port) (priv : Bool) (s : State), PortMay s p priv 0x30 true →
      Does (.recoveryCheck p priv) s (fun t =>
        (romRuns s = false ∨ s.rst.recovery = false → t.hsh.scratch[0] = 0x4B5A ∧ t.rst = s.rst)
        ∧ (romRuns s = true → s.rst.recovery = true → containerOk s 2 = false → t.hsh.scratch[0] = 0xBAD0 ∧ t.rst = s.rst ∧ t.eng = s.eng)
        ∧ (∀ x, romRuns s = true → s.rst.recovery = true → (∀ y ∈ imgSecs s 2, y.typ ≠ 3 ∧ y.typ ≠ 4) → s.prt.err = false →
            (imgSecs s 2).find? (fun x => x.typ = 1 && x.role = 0) = some x →
            t.rst.handed = (s.rst.handed || containerOk s 2) ∧ t.rst.recovery = !containerOk s 2
            ∧ (containerOk s 2 = true → t.rst.sealed = true ∧ t.rst.bootstat = 0x90 ∧ t.eng[0].run = .running ∧ t.eng[0].pc = x.entry
                ∧ ∀ q : Port, t.prt.pright[q] = 0 ∧ ∀ k : Fin 8, t.prt.wreg[k] = {}))))
  ∧ (∀ (k : Nat) (s : State), romRuns s = true → s.rst.recovery = false → s.prt.err = false → (brCurrent s).1.active = k →
      let st (j : Nat) (u : State) : Nat := brState (brCurrent u).1 j
      let tries (j : Nat) (u : State) : Nat := brTries (brCurrent u).1 j
      let bad (j : Nat) (u : State) : State := brUpdate (brBad j (brCurrent u).1) u
      let try_ (j : Nat) (u : State) : State := brUpdate (brTry j (brCurrent u).1) u
      let hands (j : Nat) (u t : State) : Prop := ∀ x, (imgSecs u j).find? (fun x => x.typ = 4) = none → (imgSecs u j).find? (fun x => x.typ = 1 && x.role = 0) = some x →
        t.rst.handed = true ∧ t.rst.recovery = false ∧ t.rst.bootPhase = false ∧ t.rst.sealed = true ∧ t.fls = u.fls
        ∧ t.rst.bootstat = 64 * j + (if j = k then 0 else 32) + triesField (tries j u) ∧ t.rst.bootver = imgNat u j 0x08 4 ∧ t.rst.svn = imgNat u j 0x0C 4
        ∧ t.eng[0].run = .running ∧ t.eng[0].pc = x.entry ∧ gRead t.eng[0] 2 = t.rst.bootstat % 256
      let noImage (u t : State) : Prop := t.rst = { s.rst with bootstat := 0xD0, recovery := true } ∧ t.eng = s.eng ∧ t.fls = u.fls
      let second (u : State) : Prop :=
        (st (1 - k) u = 0 → Does .deviceBoot s (noImage u))
        ∧ (st (1 - k) u = 0x5A → Does .deviceBoot s (if containerOk u (1 - k) = true then hands (1 - k) u else noImage (bad (1 - k) u)))
        ∧ (st (1 - k) u = 0xFF → 3 ≤ tries (1 - k) u → Does .deviceBoot s (noImage (bad (1 - k) u)))
        ∧ (st (1 - k) u = 0xFF → tries (1 - k) u < 3 → let v := try_ (1 - k) u
            Does .deviceBoot s (if containerOk v (1 - k) = true then hands (1 - k) v else noImage (bad (1 - k) v)))
      (st k s = 0 → second s)
      ∧ (st k s = 0x5A → if containerOk s k = true then Does .deviceBoot s (hands k s) else second (bad k s))
      ∧ (st k s = 0xFF → 3 ≤ tries k s → second (bad k s))
      ∧ (st k s = 0xFF → tries k s < 3 → let v := try_ k s
          if containerOk v k = true then Does .deviceBoot s (hands k v) else second (bad k v)))

/-- R427, R428, R432, R433, R437, R439: requests to DCT, with nothing in progress and during a change. Where it goes
beyond the rules it is the model's choice or reading: log entries 3, 30. -/
def Obligations.ModeRequests : Prop :=
  (∀ (e : Eng) (p : Port) (priv : Bool) (s : State), s.dct.mode ≠ .ship →
    let q := s.dct
    let s0 := putPort p { s.hp[p] with driven := false, rdyLow := false, wbuf := 0 } s
    let hp := (if priv then 8 else 6) + p.val
    let holds (pwr : Bool) (tgt by_ : Nat) (t : State) : State := { t with dct := { q with held := some { tgt := tgt, by_ := by_, pwr := pwr }, heldWakes := 0 } }
    let gives (by_ : Nat) (t : State) : Prop := t.dct.phase = .idle ∧ t.dct.cur = none ∧ t.dct.mode = .run ∧ t.dct.on = q.on ∧ t.dct.dis = q.dis ||| 8
      ∧ (s.fbk.ring.length < 256 → s.fbk.drops = 0 → s.svy.svfsel = 0 → ∃ r : FbRec, t.fbk.ring = s.fbk.ring ++ [{ r := r, written := false }] ∧ r.src = 2 ∧ r.typ = 4 ∧ r.p = [by_])
    (q.phase = .committed ∨ q.phase = .waking →
      (EngMay s e 0x1804 true → exec (.modeRequestRun (.ce e) false) s = .next (holds false 0 e.val s) ∧ exec (.modeRequestWatch (.ce e) false) s = .next (holds false 1 e.val s)
        ∧ exec (.modeRequestShip (.ce e) false) s = .next (holds false 2 e.val s))
      ∧ (PortMay s p priv 0x16 true → exec (.modeRequestRun (.hp p priv) false) s = .next (holds true 0 hp s0) ∧ exec (.modeRequestWatch (.hp p priv) false) s = .next (holds true 1 hp s0)
        ∧ exec (.modeRequestShip (.hp p priv) false) s = .next (holds true 2 hp s0)))
    ∧ (q.phase = .notice ∨ q.phase = .gather → q.mode = .run → q.heldDom = none →
      (EngMay s e 0x1804 true → Does (.modeRequestRun (.ce e) false) s (gives e.val))
      ∧ (PortMay s p priv 0x16 true → Does (.modeRequestRun (.hp p priv) false) s (gives hp))))
  ∧ ∀ (e : Eng) (p : Port) (priv : Bool) (d : BitVec 3) (s : State), s.dct.phase = .idle →
    let q := s.dct
    let s0 := putPort p { s.hp[p] with driven := false, rdyLow := false, wbuf := 0 } s
    let hp := (if priv then 8 else 6) + p.val
    let accepted (pwr : Bool) (tgt by_ : Nat) (t : State) : State := { t with dct := { q with
      phase := .notice, cur := some { tgt := tgt, by_ := by_, pwr := pwr }, dom := none, req := tgt, refused := false, dis := q.dis ||| 1 } }
    let wakes (by_ : Nat) (t : State) : Prop := t.dct.phase = .waking ∧ t.dct.cur = some { tgt := 0, by_ := by_ } ∧ t.dct.dom = none
      ∧ t.clk.pllOn = true ∧ t.dct.mode = .watch ∧ t.dct.refused = false ∧ t.dct.req = 0 ∧ ∀ k, k ∈ t.dct.up ↔ (k = 7 ∨ k = 3 ∨ k = 4 ∨ k = 6) ∧ q.runset.testBit k = true ∧ domOn s k = false
    (EngMay s e 0x1804 true → (q.mode = .run → exec (.modeRequestWatch (.ce e) false) s = .next (accepted false 1 e.val s))
      ∧ (q.mode = .run ∨ q.mode = .watch → exec (.modeRequestShip (.ce e) false) s = .next (accepted false 2 e.val s))
      ∧ (q.mode = .watch → q.wakes = 0 → Does (.modeRequestRun (.ce e) false) s (wakes 0x100))
      ∧ (q.mode = .run → exec (.modeRequestRun (.ce e) false) s = .next s)
      ∧ exec (.modeRequestWatch (.ce e) true) s = .next s ∧ exec (.modeRequestShip (.ce e) true) s = .next s ∧ exec (.modeRequestRun (.ce e) true) s = .next s)
    ∧ (PortMay s p priv 0x16 true → (q.mode = .run → exec (.modeRequestWatch (.hp p priv) false) s = .next (accepted true 1 hp s0))
      ∧ (q.mode = .run ∨ q.mode = .watch → exec (.modeRequestShip (.hp p priv) false) s = .next (accepted true 2 hp s0))
      ∧ (q.mode = .watch → q.wakes = 0 → Does (.modeRequestRun (.hp p priv) false) s (wakes (0x100 + (if p = 1 then 1 else 0))))
      ∧ exec (.modeRequestWatch (.hp p priv) true) s = .next s0 ∧ exec (.modeRequestShip (.hp p priv) true) s = .next s0
      ∧ exec (.modeRequestRun (.hp p priv) true) s = .next s0)
    ∧ (EngMay s e 0x1807 true → q.mode = .run → 4 ≤ d.toNat → d.toNat ≤ 6 →
      (domOn s d.toNat = false → exec (.domainRequestOn e d) s = .next { s with dct := { q with
        phase := .waking, cur := some { tgt := d.toNat, by_ := e.val }, dom := some d.toNat, up := [d.toNat], stage := 0 } })
      ∧ (domOn s d.toNat = true → exec (.domainRequestOff e d) s = .next { s with dct := { q with
        phase := .notice, cur := some { tgt := d.toNat, by_ := e.val }, dom := some d.toNat, dis := q.dis ||| 1 } }))
    ∧ (EngMay s e 0x1807 true → ¬ (4 ≤ d.toNat ∧ d.toNat ≤ 6) →
        exec (.domainRequestOn e d) s = .next { s with dct := { q with cfg := { q.cfg with err := true } } }
        ∧ exec (.domainRequestOff e d) s = .next { s with dct := { q with cfg := { q.cfg with err := true } } })

/-- R429 to R438: notice, gather, refusal, commit and the modes entered. Of R435 it states no loss of the RTC, which the model takes
at the reset sequence that ends SHIP (log entry 22). Where it goes beyond the rules it is the
model's choice or reading: log entries 30, 31. -/
def Obligations.ModeEntries : Prop :=
  ∀ (rdy drain : Bool) (n : Fin 3) (s : State),
    let q := s.dct
    let logs (t : State) (typ : Nat) (p : List Nat) : Prop := s.fbk.ring.length < 256 → s.fbk.drops = 0 → s.svy.svfsel = 0 →
      ∃ r : FbRec, t.fbk.ring = s.fbk.ring ++ [{ r := r, written := false }] ∧ r.src = 2 ∧ r.typ = typ ∧ r.p = p
    (ckRuns s = true → q.phase = .notice → Does .gatherStart s (fun t => t.dct.phase = .gather ∧ t.dct.cur = q.cur ∧ t.dct.dom = q.dom ∧ t.dct.on = q.on ∧ t.dct.mode = q.mode
        ∧ (domOn s 6 = true → 6 ∈ entryList s → t.dct.lgtPrep = true ∧ t.dct.lgtWas = s.lgt.blanked)
        ∧ (q.dom = none → q.cur.map DctReq.tgt = some 2 → logs t 2 [dctLive s 0x1D])))
    ∧ (∀ (r : DctReq) (d cls ch : Nat), ckRuns s = true → q.phase = .notice ∨ q.phase = .gather → q.cur = some r → q.held = none → q.heldDom = none →
        entryFails s rdy drain = some (d, cls, ch) → d < 8 → Does (.modeRefused rdy drain) s (fun t =>
          t.dct.phase = .idle ∧ t.dct.cur = none ∧ t.dct.dom = none ∧ t.dct.refused = true ∧ t.dct.mode = q.mode ∧ t.dct.on = q.on
          ∧ t.dct.refcnt[finOf 10 d] = min 65535 (q.refcnt[finOf 10 d] + 1) ∧ t.dct.refcnt[8] = d * 8192 + cls * 1024 + ch
          ∧ (q.dom = none → t.dct.dis = q.dis ||| 4 ∧ logs t 3 [r.tgt, d * 8192 + cls * 1024 + ch, r.by_]
            ∧ (t.dct.refcnt[9] = if r.pwr then min 65535 (q.refcnt[9] + 1) else q.refcnt[9])
            ∧ (r.pwr = true → domOn s 7 = true → ∀ p : Port, t.hp[p].sel.hints.getLsbD 8 = true))
          ∧ (q.dom ≠ none → t.dct.dis = q.dis ||| 0x24 ∧ t.dct.refcnt[9] = q.refcnt[9] ∧ logs t 3 [modeCode q.mode, d * 8192 + cls * 1024 + ch, r.by_])
          ∧ (r.pwr = false → ∀ p : Port, t.hp[p].sel.hints.getLsbD 8 = s.hp[p].sel.hints.getLsbD 8)))
    ∧ (∀ r, ckRuns s = true → q.phase = .gather → q.cur = some r → q.dom = none → entryFails s true true = none →
        Does .modeCommit s (fun t => t.dct.phase = .committed ∧ t.dct.cur = some r ∧ t.dct.mode = q.mode ∧ t.dct.runset = q.on.toNat
          ∧ (∀ d, 1 ≤ d → d < 8 → domOn t d = (domOn s d && !(entryList s).contains d)) ∧ domOn t 0 = domOn s 0 ∧ t.clk.prep = (r.tgt = 1 && s.clk.ckPll)
          ∧ (domOn t 2 = false → ∀ n, psPin t n = .hiZ) ∧ (domOn t 1 = false → acgPin t = .hiZ ∧ batgPin t = .hiZ) ∧ (domOn t 6 = false → ∀ j x, lsgPin t j x = .hiZ)
          ∧ ∀ e : Eng, engDom e.val ∈ entryList s → t.eng[e].run = .held ∧ ∀ l, lockOwner t l ≠ some e.val))
    ∧ (∀ (r : DctReq) (k : Nat), ckRuns s = true → q.mode = .run → q.phase = .gather → q.cur = some r → q.dom = some k → entryFails s true true = none → q.held = none →
        q.heldDom = none → Does .modeCommit s (fun t => t.dct.phase = .idle ∧ t.dct.cur = none ∧ t.dct.dom = none ∧ t.dct.mode = .run ∧ t.dct.runset = q.runset
          ∧ t.dct.dis = q.dis ||| 0x20 ∧ t.clk = s.clk ∧ (∀ d, 1 ≤ d → d < 8 → domOn t d = (domOn s d && d != k))
          ∧ ∀ e : Eng, engDom e.val = k → domOn s k = true → t.eng[e].run = .held ∧ ∀ l, lockOwner t l ≠ some e.val))
    ∧ (ckRuns s = true → q.phase = .committed → q.dom = none → q.cur.map DctReq.tgt = some 1 → s.clk.ckPll = false → q.held = none → q.heldDom = none →
        Does .watchEntryComplete s (fun t => t.dct.mode = .watch ∧ t.dct.on = q.on ∧ t.dct.dis = q.dis ||| 2 ∧ logs t 1 [1, q.runset]
          ∧ t.clk.pllOn = false ∧ t.clk.lock = false ∧ t.clk.ckPll = false ∧ t.clk.fallback = false ∧ t.eng = s.eng
          ∧ t.dct.phase = .idle ∧ t.dct.cur = none
          ∧ t.dct.d7 = if domOn s 7 = false ∧ portUp s = true ∧ q.d7 = none then some 0 else q.d7))
    ∧ (fbPend s ≠ 0 → exec .shipEnter s = .next s)
    ∧ (ckRuns s = true → q.phase = .committed → q.dom = none → q.cur.map DctReq.tgt = some 2 → fbPend s = 0 → Does .shipEnter s (fun t =>
        t.dct.mode = .ship ∧ t.dct.on = (if portUp s then 0x80#8 else 0) ∧ t.dct.held = none ∧ t.dct.heldDom = none ∧ t.clk.pllOn = false ∧ t.rst.shipsrc = 0
        ∧ ckRuns t = false ∧ t.fbk = s.fbk ∧ t.fls = s.fls
        ∧ (∀ p : Port, t.hp[p].driven = false ∧ rdyPin t p = .hiZ ∧ intPin t p = .hiZ ∧ errPin t p = .hiZ) ∧ (∀ n, psPin t n = .hiZ) ∧ acgPin t = .hiZ ∧ batgPin t = .hiZ))
    ∧ (q.mode = .ship → s.rst.step ≠ 1 → (dctLive s 0x1D).testBit n.val = true → Does (.shipWake n) s (fun t =>
        t.rst.active = setBit s.rst.active 1 true ∧ t.rst.shipsrc = setBit s.rst.shipsrc n.val true ∧ t.rst.hist = s.rst.active ||| 2))
    ∧ (q.mode ≠ .ship ∨ s.rst.step = 1 ∨ (dctLive s 0x1D).testBit n.val = false → exec (.shipWake n) s = .next s)

/-- R423, R432, R433, R437 to R441: domains coming up, D7 with the ports in WATCH, and wakes. That D7 comes up for a port beside the
change in progress, with a wake that wants it, is log entry 30. Where it else goes beyond the rules it is the model's choice or
reading: log entries 3, 30, 31. -/
def Obligations.Wakes : Prop :=
  ∀ (s : State) (own : Bool), ckRuns s = true →
    let q := s.dct
    let logs (t : State) (typ : Nat) (p : List Nat) : Prop := s.fbk.ring.length < 256 → s.fbk.drops = 0 → s.svy.svfsel = 0 →
      ∃ r : FbRec, t.fbk.ring = s.fbk.ring ++ [{ r := r, written := false }] ∧ r.src = 2 ∧ r.typ = typ ∧ r.p = p
    let ofWake : Prop := q.phase = .waking ∧ (own = false ∨ 7 ∈ q.up ∨ q.d7 = none)
    (∀ d l, ofWake → q.up = d :: l → q.stage < 3 → exec (.domainStageReady own) s = .next { s with dct := { q with stage := q.stage + 1 } })
    ∧ (∀ d l, ofWake → q.up = d :: l → q.stage = 3 → q.dom = none → d < 8 → Does (.domainStageReady own) s (fun t =>
        t.dct.on = q.on ||| (1#8 <<< d) ∧ t.dct.up = l ∧ t.dct.stage = 0 ∧ t.dct.phase = .waking ∧ t.dct.d7 = (if d = 7 then none else q.d7)
        ∧ (d = 7 → q.d7.isSome = true → t.dct.dis = q.dis ||| 0x10 ∧ logs t 6 [7, 0xFF]) ∧ (d = 7 → q.d7 = none → t.fbk = s.fbk ∧ t.dct.dis = q.dis)
        ∧ (∀ e : Eng, engDom e.val = d → t.eng[e] = {} ∧ t.emem[e] = {}) ∧ (d = 7 → t.shm = [] ∧ t.mbx = {} ∧ t.lck = {} ∧ t.cpy = {}) ∧ (d = 6 → t.lgt = {} ∧ t.lgb = {})))
    ∧ (∀ d r l, ofWake → q.up = d :: l → q.stage = 3 → q.dom = some d → d < 8 → q.cur = some r → q.held = none → q.heldDom = none → q.mode = .run →
        Does (.domainStageReady own) s (fun t => t.dct.on = q.on ||| (1#8 <<< d) ∧ t.dct.phase = .idle ∧ t.dct.cur = none ∧ t.dct.dom = none
          ∧ (d ≠ 7 → t.dct.dis = q.dis ||| 0x20 ∧ logs t 6 [d, r.by_])))
    ∧ (∀ k, q.d7 = some k → q.phase ≠ .waking ∨ (own = true ∧ 7 ∉ q.up) →
        (k < 3 → exec (.domainStageReady own) s = .next { s with dct := { q with d7 := some (k + 1) } })
        ∧ (3 ≤ k → Does (.domainStageReady own) s (fun t => t.dct = { q with on := q.on ||| 0x80#8, d7 := none, dis := q.dis ||| 0x10 } ∧ logs t 6 [7, 0xFF]
            ∧ t.shm = [] ∧ t.mbx = {} ∧ t.lck = {} ∧ t.cpy = {} ∧ t.eng = s.eng)))
    ∧ (∀ (p : Port) (v18 : Bool), s.hp[p].powered = false → s.rst.recovery = false → q.mode = .watch → domOn s 7 = false → q.d7 = none → ¬ (q.phase = .waking ∧ 7 ∈ q.up) →
        exec (.portPowered p v18) s = .next (putPort p { s.hp[p] with powered := true, vio18 := v18 } { s with dct := { q with d7 := some 0 } }))
    ∧ (q.mode = .watch → q.wakes ≠ 0 → q.phase = .idle → Does .wakeDecision s (fun t =>
        t.dct.phase = .waking ∧ t.dct.wakesrc = wakeCode q.wakes ∧ t.dct.wakeBits = q.wakes ∧ t.dct.wakes = 0 ∧ t.clk.pllOn = true ∧ t.dct.mode = .watch ∧ t.dct.refused = false
        ∧ t.dct.d7 = q.d7 ∧ t.dct.stage = if 7 ∈ t.dct.up then q.d7.getD 0 else 0))
    ∧ (q.mode = .watch → q.wakes ≠ 0 → q.phase = .notice ∨ q.phase = .gather → Does .wakeDecision s (fun t =>
        t.dct.phase = .waking ∧ t.dct.wakesrc = wakeCode q.wakes ∧ t.dct.wakeBits = q.wakes ∧ t.dct.wakes = 0 ∧ t.dct.mode = .watch ∧ t.dct.on = q.on
        ∧ t.dct.dis = q.dis ||| 8 ∧ logs t 4 [0x100 + wakeCode q.wakes]))
    ∧ (q.mode = .watch → q.wakes ≠ 0 → q.phase = .committed ∨ q.phase = .waking → exec .wakeDecision s = .next { s with dct := { q with
        held := some { tgt := 0, by_ := 0x100 + wakeCode (q.wakes ||| q.heldWakes) }, heldWakes := q.wakes ||| q.heldWakes, wakes := 0 } })
    ∧ (q.mode = .watch → (dctLive s 0x34).testBit 10 = true → exec .wakeTimer s = .next { s with dct := { q with wakes := setBit q.wakes 0xC true } })
    ∧ (q.mode ≠ .watch → exec .wakeTimer s = .next s)
    ∧ (∀ (e : Eng), wakeReady s = true → s.clk.ckPll = true → s.clk.prep = false → q.held = none → q.heldDom = none →
        Does .wakeComplete s (fun t => t.dct.mode = .run ∧ t.dct.phase = .idle ∧ t.dct.cur = none ∧ t.dct.dis = q.dis ||| 2 ∧ t.clk = s.clk ∧ logs t 5 [q.wakesrc, q.wakeBits]
          ∧ (fld (dctLive s 0x38) (3 * e.val + 2) (3 * e.val) < 6 → domOn s (engDom e.val) = true →
              t.eng[e] = { run := .loading, rom := true, role := fld (dctLive s 0x38) (3 * e.val + 2) (3 * e.val), cause := 2 })
          ∧ (6 ≤ fld (dctLive s 0x38) (3 * e.val + 2) (3 * e.val) → t.eng[e] = s.eng[e])))
    ∧ (wakeReady s = true → s.clk.lock = false → q.held = none → q.heldDom = none → Does .wakeFallback s (fun t =>
        t.dct.mode = .run ∧ t.dct.phase = .idle ∧ t.clk = { s.clk with fallback := true, prep := false }
        ∧ t.ksc.fr = (if s.ksc.scanning = true ∧ s.ksc.scanen = true ∧ s.ksc.fr = .idle then .start else s.ksc.fr)))
    ∧ (q.mode = .watch → q.phase ≠ .waking → domOn s 7 = true → portUp s = false → (∀ r, s.cpy.run = some r → r.j < 8) → Does .d7Forced s (fun t =>
        t.dct.on = q.on &&& ~~~(1#8 <<< 7) ∧ t.cpy.run = none ∧ (∀ j : Fin 8, t.cpy.queued.testBit j.val = false) ∧ t.dct.mode = .watch ∧ t.dct.phase = q.phase
        ∧ (if cpyBusy s = 0 then logs t 7 [7, 0xFF] else logs t 8 [cpyBusy s])))
    ∧ (q.phase = .waking → exec .d7Forced s = .next s)

/-- R467 to R474: the benchmark block. Where it goes beyond the rules it is the model's choice or reading: log
entries 2, 15. -/
def Obligations.BenchmarkBlock : Prop :=
  ∀ (e : Eng) (n : Fin 11) (v : Byte) (sl : Vector Half 4) (mv tj : Half) (s : State),
    let q := s.bmk
    let bmk (x : Bmk) : State := { s with bmk := x }
    let steps (i : Instr) (nw : Int) : Prop :=
      (planCode s n nw = 0 → Does i s (fun t => t.bmk = { q with resItem := n.val, resCode := 0, bis := q.bis ||| 1, step := q.step.set n (ofSigned 8 nw), age := q.age.set n 0 }
        ∧ t.dct = s.dct ∧ t.eng = s.eng ∧ (s.fbk.ring.length < 256 → s.fbk.drops = 0 → s.svy.svfsel = 0 → ∃ r : FbRec, t.fbk.ring = s.fbk.ring ++ [{ r := r, written := false }]
          ∧ r.src = 9 ∧ r.typ = 1 ∧ r.p = [n.val, ofSigned 16 (itemStep s n), ofSigned 16 nw])))
      ∧ (∀ c, planCode s n nw = c → c ≠ 0 → exec i s = .next (bmk { q with resItem := n.val, resCode := c, bis := q.bis ||| 2 }))
    (EngMay s e 0x2008 true → steps (.planStepUp e (BitVec.ofNat 4 n.val)) (itemStep s n + 1) ∧ steps (.planStepDown e (BitVec.ofNat 4 n.val)) (itemStep s n - 1))
    ∧ (EngMay s e 0x2004 true → exec (.restoreClose e) s = .next (bmk { q with restore := false }))
    ∧ (EngMay s e 0x200C true → Does (.bboundWrite e v) s (fun t => t.bmk.bbound = v.toNat % 8
        ∧ t.bmk.bis = (if ∀ i : Fin 3, v.getLsbD i.val = true → q.bbound.testBit i.val = true then q.bis else q.bis ||| 4) ∧ t.bmk.step = q.step))
    ∧ (ckRuns s = true → domOn s 2 = true → q.monen = true → Does (.monitorUpdate sl mv tj) s (fun t => t = bmk { q with slack := t.bmk.slack, vcorem := mv.toNat, tjb := tj.toNat }
        ∧ ∀ k : Fin 4, t.bmk.slack[k] = if s.dct.mode = .run ∧ s.clk.ckPll ∧ domOn s (if k = 0 then 3 else if k = 1 then 4 else if k = 2 then 6 else 7) then sl[k].toNat else q.slack[k]))
    ∧ (ckRuns s = true → domOn s 2 = true → Does .stressUpdate s (fun t => t = bmk { q with stress := t.bmk.stress, frac := t.bmk.frac, age := t.bmk.age } ∧ (q.stress ≤ 65535 → q.stress ≤ t.bmk.stress)
        ∧ (∀ k : Fin 11, t.bmk.age[k] = if s.dct.mode = .run then min 65535 (q.age[k] + 1) else q.age[k])
        ∧ (q.monen = true → q.tjb = 1360 → q.stress < 65535 → q.frac < 2 ^ 40 → t.bmk.stress * 2 ^ 40 + t.bmk.frac = q.stress * 2 ^ 40 + q.frac + 2 ^ 40 / 240)
        ∧ (q.monen = false → q.frac < 2 ^ 40 → q.stress ≤ 65535 → t.bmk.stress = q.stress)))
    ∧ (∀ r : Fin 60001, ckRuns s = true → domOn s 2 = true → q.runMs < 60000 → Does (.stressUpdate (some r)) s (fun t =>
        t = bmk { q with stress := t.bmk.stress, frac := t.bmk.frac, age := t.bmk.age, runMs := (q.runMs + r.val) % 60000 }
        ∧ ∀ k : Fin 11, t.bmk.age[k] = if q.runMs + r.val < 60000 then q.age[k] else min 65535 (q.age[k] + 1)))
    ∧ (domOn s 2 = true → s.dct.mode = .run → q.monen = true → exec .runhUpdate s = .next (bmk { q with runh := (q.runh + 1) % 65536 }))

/-- R41 to R45: COMMIT and its application. Where it goes beyond the rules it is the model's choice or reading: log
entry 32. -/
def Obligations.CommitAndApply : Prop :=
  (∀ (e : Eng) (b : SBlk) (s : State), EngMay s e (blkBase b + 1) true →
    let c := stgOf b s
    (commitCheck b s = 0 → Does (.commit e b) s (fun t => stgOf b t = { c with pnd := some c.stg, dirty := false }
      ∧ t.dct.mode = s.dct.mode ∧ t.eng = s.eng ∧ t.fbk = s.fbk))
    ∧ (∀ k, commitCheck b s = k → k ≠ 0 → Does (.commit e b) s (fun t => stgOf b t = { c with mism := true, chk := k }
      ∧ (s.fbk.ring.length < 256 → s.fbk.drops = 0 → s.svy.svfsel = 0 → ∃ r : FbRec, t.fbk.ring = s.fbk.ring ++ [{ r := r, written := false }]
          ∧ r.src = blkCode b ∧ r.typ = 0x0F ∧ r.p = [k]))))
  ∧ (∀ (b : SBlk) (g : Regs) (s : State), ckRuns s = true → (stgOf b s).pnd = some g → domOn s (blkDom b) = true →
    (b = .dct ∨ b = .bmk ∨ (b = .ksc ∧ s.ksc.fr = .start) ∨ (b = .lgt ∧ s.lgt.atB = true) ∨ (b = .seq ∧ s.seq.kind = .idle)
      ∨ (b = .chg ∧ s.dct.mode = .watch ∧ s.chg.mode = 0) ∨ (b = .tha ∧ s.tha.en = true ∧ s.tha.anOn = 0 ∧ s.tha.sensor = none)) →
    Does (.commitApply b) s (fun t => (stgOf b t).live = g ∧ (stgOf b t).pnd = none ∧ (stgOf b t).stg = (stgOf b s).stg ∧ t.eng = s.eng ∧ t.dct.mode = s.dct.mode))
  ∧ (∀ (m : ChgMeas) (d : ChgDemand) (on : Half) (g : Regs) (s : State), domOn s 1 = true → (stgOf .chg s).pnd = some g →
    Does (.periodStart m d on) s (fun t => (stgOf .chg t).live = g ∧ (stgOf .chg t).pnd = none ∧ (stgOf .chg t).stg = (stgOf .chg s).stg))
  ∧ (∀ (g : Regs) (s : State), domOn s 2 = true → s.tha.en = true → (stgOf .tha s).pnd = some g →
    Does .conversionRound s (fun t => (stgOf .tha t).live = g ∧ (stgOf .tha t).pnd = none ∧ t.tha.rcfg = g ∧ (stgOf .tha t).stg = (stgOf .tha s).stg))
  ∧ (∀ (g : Regs) (s : State), ckRuns s = true → (stgOf .cpy s).pnd = some g → domOn s 7 = true →
    let busy (k : Nat) : Bool := 0x20 ≤ k && k < 0x60 && (cpyBusy s).testBit ((k - 0x20) / 8)
    Does (.commitApply .cpy) s (fun t => (stgOf .cpy t).stg = (stgOf .cpy s).stg ∧ t.eng = s.eng
      ∧ ((stgOf .cpy t).pnd = if cpyBusy s = 0 then none else some g)
      ∧ ∀ k, (busy k = false → spGet 0 (stgOf .cpy t).live k = spGet 0 g k)
        ∧ (busy k = true → spGet 0 (stgOf .cpy t).live k = spGet 0 (stgOf .cpy s).live k)))

/-- R52 to R55, R63, R65, R67, R68, R71: a sample of a drive line. R128, R131: what its records do to the key lights, and their end
when D5 goes down. That a frame ends, with its image, at the last line it scans is log entry 47 (DESIGN CHOICE), that a sample with
the block off or the scanner idle changes nothing log entries 3 and 4, and the hold of a gather log entry 31. -/
def Obligations.KeySamples : Prop :=
  (∀ (sense : BitVec 20) (rise : Vector Nat 20) (low : BitVec 20) (s : State),
    (domOn s 5 = false ∨ sampleLine s = none → exec (.keySample sense rise low) s = .next s)
    ∧ ∀ k, domOn s 5 = true → sampleLine s = some k →
    let o := s.ksc.plane
    let deb := kscLive s 0x08
    let ps := ((bitsOf 20 (kscLive s 0x0C)).map (fun c => 20 * k + c)).filter (kscPresent s)
    Does (.keySample sense rise low) s (fun t =>
      let n := t.ksc.plane
      let down (p : Nat) : Bool := kscPresent s p && n.seen.getLsbD p
      let iso (p : Nat) : Bool := (kscLive s 0x0F).testBit (p / 20) || (kscLive s 0x12).testBit (p % 20)
      ∃ recs : Nat → List Nat,
      (∀ p, p < 480 → p ∉ ps → n.conf.getLsbD p = o.conf.getLsbD p ∧ n.seen.getLsbD p = o.seen.getLsbD p
        ∧ n.pending.getLsbD p = o.pending.getLsbD p ∧ n.out.getLsbD p = o.out.getLsbD p ∧ n.withheld.getLsbD p = o.withheld.getLsbD p)
      ∧ (∀ p, p < 480 → p ∈ ps →
        let x := s.gpio.viok && !sense.getLsbD (p % 20)
        let c := o.conf.getLsbD p
        let out := o.out.getLsbD p
        let cnt := spGet 0 o.cnt p
        let prov := kscProvEn s p
        let corner : Prop := x = true ∧ c = false ∧ ∃ (r : Fin 24) (y : Fin 20), r.val ≠ k ∧ y.val ≠ p % 20
          ∧ down (20 * k + y) = true ∧ down (20 * r + p % 20) = true ∧ down (20 * r + y) = true
          ∧ (iso p && iso (20 * k + y) && iso (20 * r + p % 20) && iso (20 * r + y)) = false
        let stable (v : Bool) : Prop := n.conf.getLsbD p = v ∧ n.pending.getLsbD p = false ∧ n.out.getLsbD p = false ∧ n.withheld.getLsbD p = false
        let counts (out' : Bool) (v : Nat) : Prop := n.conf.getLsbD p = c ∧ n.pending.getLsbD p = true ∧ n.out.getLsbD p = out' ∧ n.withheld.getLsbD p = false
          ∧ spGet 0 n.cnt p = v
        let held (w : Bool) : Prop := n.conf.getLsbD p = c ∧ n.pending.getLsbD p = false ∧ n.out.getLsbD p = (out && !o.pending.getLsbD p) ∧ n.withheld.getLsbD p = w
        let start (first : List Nat) : Prop := (deb ≤ 1 → stable x ∧ recs p = first ++ [if x then 4 else 5])
          ∧ (2 ≤ deb → counts prov 1 ∧ recs p = first ++ if prov then [if x then 1 else 2] else [])
        let cancels : List Nat := if out then [3] else []
        n.seen.getLsbD p = x
        ∧ (o.withheld.getLsbD p = false → o.pending.getLsbD p = false →
            (x = c → held false ∧ recs p = []) ∧ (x ≠ c → ¬ corner → start []) ∧ (x ≠ c → corner → held true ∧ recs p = [6]))
        ∧ (o.withheld.getLsbD p = false → o.pending.getLsbD p = true →
            (x ≠ c → ¬ corner → deb ≤ cnt + 1 → stable x ∧ recs p = [if x then 4 else 5])
            ∧ (x ≠ c → ¬ corner → cnt + 1 < deb → counts out (cnt + 1) ∧ recs p = [])
            ∧ (x ≠ c → corner → held true ∧ recs p = cancels ++ [6]) ∧ (x = c → stable c ∧ recs p = cancels))
        ∧ (o.withheld.getLsbD p = true → o.pending.getLsbD p = false →
            (x = false → held false ∧ recs p = [7]) ∧ (x = true → corner → held true ∧ recs p = []) ∧ (x = true → ¬ corner → start [7])))
      ∧ let made := ps.flatMap (fun p => (recs p).map (fun y => ({ seq := s.ksc.image.seq.toNat % 16, typ := y, pos := p } : KeyRec)))
      (s.ksc.fifo.length ≤ 16 →
        t.ksc.fifo = (s.ksc.fifo ++ made).take 16 ∧ t.ksc.ovf = (s.ksc.ovf || decide (16 < s.ksc.fifo.length + made.length))
        ∧ ((∃ r ∈ made, r.typ = 4 ∨ r.typ = 5) → t.ksc.kis.testBit 0 = true ∧ (domOn s 7 = true → ∀ q : Port, t.hp[q].sel.hints.getLsbD 0 = true))
        ∧ ((∃ r ∈ made, r.typ = 1 ∨ r.typ = 2 ∨ r.typ = 3) → t.ksc.kis.testBit 1 = true ∧ (domOn s 7 = true → ∀ q : Port, t.hp[q].sel.hints.getLsbD 1 = true))
        ∧ (16 < s.ksc.fifo.length + made.length → t.ksc.kis.testBit 5 = true)
        ∧ (s.dct.mode = .run → s.fbk.ring.length < 256 → s.fbk.drops = 0 → s.svy.svfsel = 0 →
          if s.ksc.ovf = false ∧ 16 < s.ksc.fifo.length + made.length then
            ∃ r : FbRec, t.fbk.ring = s.fbk.ring ++ [{ r := r, written := false }] ∧ r.src = 4 ∧ r.typ = 2 ∧ r.p = []
          else t.fbk = s.fbk))
      ∧ (domOn s 6 = true → ∀ i, i < 384 →
        let a := s.lgb.keys
        let b := t.lgb.keys
        let mine := made.filter (fun r => decide (1 ≤ r.typ ∧ r.typ ≤ 5 ∧ lgtLive s (0x20000 + r.pos) = i))
        let shows (r : KeyRec) : Bool := r.typ = 1 || r.typ = 4 || (r.typ = 3 && o.conf.getLsbD r.pos)
        let falls (r : KeyRec) : Bool := r.typ = 2 || r.typ = 5
        (mine = [] → b.lit.getLsbD i = a.lit.getLsbD i ∧ b.provLit.getLsbD i = a.provLit.getLsbD i ∧ spGet 0 b.fade i = spGet 0 a.fade i)
        ∧ (∀ l r, mine = l ++ [r] → b.lit.getLsbD i = shows r ∧ b.provLit.getLsbD i = decide (r.typ = 1) ∧ (falls r = false → spGet 0 b.fade i = 0))
        ∧ (∀ r, mine = [r] → falls r = true → spGet 0 b.fade i = if a.lit.getLsbD i then (if lgtLive s 0x3B = 0 then 0 else 1) else spGet 0 a.fade i))
      ∧ (domOn s 6 = false → t.lgb = s.lgb)
      ∧ t.ksc.whcnt = popcount 480 n.withheld.toNat
      ∧ (t.ksc.whcnt ≠ s.ksc.whcnt ∨ t.ksc.rects.length ≠ s.ksc.rects.length → t.ksc.kis.testBit 2 = true)
      ∧ (∀ j, (scanLines s).find? (fun j => decide (k < j)) = some j → t.ksc.fr = .line j ∧ t.ksc.image = s.ksc.image)
      ∧ ((scanLines s).find? (fun j => decide (k < j)) = none → t.ksc.image.seq = s.ksc.image.seq + 1 ∧ t.ksc.image.win = n.conf
        ∧ t.ksc.image.prov = n.conf ^^^ (n.pending &&& n.out)
        ∧ t.ksc.fr = if s.dct.mode = .run ∧ s.ksc.scanen = true ∧ s.clk.prep = false
            ∧ ¬ (s.dct.phase = .gather ∧ (s.dct.dom = some 5 ∨ (s.dct.dom = none ∧ s.dct.cur.map DctReq.tgt = some 2))) then .start else .idle)))
  ∧ (∀ (r : DctReq) (s : State), ckRuns s = true → s.dct.mode = .run → s.dct.phase = .gather → s.dct.cur = some r → s.dct.dom = some 5 → domOn s 5 = true →
    domOn s 6 = true → entryFails s true true = none → s.dct.held = none → s.dct.heldDom = none → Does .modeCommit s (fun t => domOn t 5 = false ∧ ∀ i, i < 384 →
      let a := s.lgb.keys
      t.lgb.keys.lit.getLsbD i = false ∧ t.lgb.keys.provLit.getLsbD i = false
      ∧ spGet 0 t.lgb.keys.fade i = if a.provLit.getLsbD i then 0 else if a.lit.getLsbD i then (if lgtLive s 0x3B = 0 then 0 else 1) else spGet 0 a.fade i))

/-- R58, R59, R81, R90: the scan and the sounding runs. That a stop abandons a run in progress is the model's choice
(log entry 47). Where it goes beyond the rules it is the model's choice or reading: log entries 31, 47. -/
def Obligations.ScanAndSounding : Prop :=
  ∀ (e : Eng) (s : State),
    let q := s.ksc
    let ksc (x : Ksc) : State := { s with ksc := x }
    let on : Prop := domOn s 5 = true
    (EngMay s e 0x404 true → (q.scanen = true → q.scanning = true) → q.run = none → exec (.sndgo e) s =
        .next (ksc { q with sndReq := true, resolving := q.resolving && (q.fr ≠ .idle || !q.scanen) }))
    ∧ (EngMay s e 0x404 true →
      let u : Ksc := { q with scanen := true, scanning := true, slow := q.slow && q.scanning, resolving := q.resolving && (q.fr ≠ .idle || !q.scanen) }
      let goes : Prop := (q.scanning = false ∨ q.scanen = false) ∧ q.fr = .idle ∧ s.dct.mode = .run ∧ s.clk.prep = false
        ∧ ¬ (s.dct.phase = .gather ∧ (s.dct.dom = some 5 ∨ (s.dct.dom = none ∧ s.dct.cur.map DctReq.tgt = some 2)))
      (¬ goes → exec (.scanStart e) s = .next (ksc u))
      ∧ (goes → exec (.scanStart e) s = .next (ksc { u with fr := .start, slow := false, resolving := false })))
    ∧ (EngMay s e 0x404 true → exec (.scanStopRequest e) s = .next (ksc { q with scanen := false, resolving := q.resolving && (q.fr ≠ .idle || !q.scanen) }))
    ∧ (on → s.dct.mode = .run → kscLive s 0x18 ≠ 0 → q.run = none → exec .soundingPeriodExpiry s = .next (ksc { q with sndReq := true }))
    ∧ (on → q.fr = .start → q.slow = false → q.scanen = true → s.dct.mode = .run → s.clk.ckPll = true → s.clk.prep = false → q.run = none → (q.sndReq = true ∨ q.sndFirst = true) → Does .soundingRunStart s (fun t =>
        t = ksc { q with run := some { first := q.sndFirst, left := kscLive s 0x16 }, snd := t.ksc.snd, sndReq := false, sndFirst := false }
        ∧ ∀ k, k < 24 → spGet {} t.ksc.snd k = { spGet {} q.snd k with m := none, overRun := false }))
    ∧ (∀ r, on → (q.fr = .start ∨ q.fr = .idle ∧ q.resolving = true) → q.run = some r → r.left = 0 → s.dct.mode = .run → Does .soundingRunEnd s (fun t =>
        t.ksc.run = none ∧ t.ksc.ranSince = true ∧ t.ksc.kis = q.kis ||| 0x10 ∧ t.ksc.plane = q.plane ∧ ∀ k, k < 24 → (kscLive s 0x09).testBit k = true →
          let x := spGet {} t.ksc.snd k
          let old := spGet {} q.snd k
          x.valid = true ∧ x.unset = false ∧ (x.held = true ↔ old.m = none) ∧ (∀ m, old.m = some m → x.s = m + kscLive s 0x17)
          ∧ (old.m = none → x.s = if old.hasS then old.s else kscLive s 0x06) ∧ (x.isOver = true ↔ kscLive s 0x06 < x.s ∨ old.overRun = true)))
    ∧ (on → q.scanning = true → q.scanen = false → (q.fr = .start ∧ scanLines s ≠ [] ∨ ∃ k, q.fr = .line k) → exec .scanStop s = .next s)
    ∧ (on → q.scanning = true → q.scanen = false → (q.fr = .idle ∨ q.fr = .start ∧ scanLines s = []) → Does .scanStop s (fun t =>
        t.ksc.scanning = false ∧ t.ksc.fr = .idle ∧ t.ksc.plane = { q.plane with pending := 0, out := 0, cnt := [] } ∧ t.ksc.run = none
        ∧ (q.resolving = true → t.ksc.image.prov = q.plane.conf ∧ t.ksc.image.win = q.plane.conf) ∧ (q.resolving = false → t.ksc.image = q.image)))
    ∧ (on → s.dct.mode = .watch → q.scanen = true → q.scanning = true → q.fr = .idle → s.clk.prep = false → exec .slowFrameStart s = .next (ksc { q with fr := .start, slow := true, resolving := false }))

/-- R38, R72 to R78, R84 to R87, R96, R98, R99: the encoders and what KSC's registers show. Where it goes beyond the rules
it is the model's choice or reading: log entries 2, 18. -/
def Obligations.EncodersAndKeyReads : Prop :=
  ∀ (e e' : Eng) (n : Fin 4) (p : Port) (priv a b : Bool) (mask : BitVec 4) (s : State),
    let q := s.ksc
    let c := q.enc[n]
    let h := s.hp[p]
    let ksc (x : Ksc) : State := { s with ksc := x }
    let key := h.sel.keysel
    let shows (d : Nat) (x : PortSel) (t : State) : State := putPort p { h with driven := true, rdyLow := false, wbuf := 0, sel := x, dOut := BitVec.ofNat 16 d } t
    let nextWord : PortSel := { h.sel with keysel := if key.testBit 5 then key - key % 32 + (key % 32 + 1) % 30 else key }
    (s.gpio.viok = true → domOn s 5 = true → q.encctl.testBit n.val = true →
      (∀ d, quadStep c.a c.b a b = some d → Does (.encoderEdge n a b) s (fun t =>
        t.ksc.enc[n] = { c with a := a, b := b, count := c.count + BitVec.ofInt 16 (if q.encctl.testBit (4 + n.val) then -d else d) }
        ∧ (∀ m : Fin 4, m ≠ n → t.ksc.enc[m] = q.enc[m]) ∧ t.ksc.encerr = q.encerr))
      ∧ (quadStep c.a c.b a b = none → exec (.encoderEdge n a b) s = .next (ksc { q with enc := q.enc.set n { c with a := a, b := b }, encerr := min 255 (q.encerr + 1) })))
    ∧ (s.gpio.viok = true → domOn s 5 = true → q.encctl.testBit n.val = false → exec (.encoderEdge n a b) s = .next (ksc { q with enc := q.enc.set n { c with a := a, b := b } }))
    ∧ (EngMay s e 0x43C true → Does (.enczero e mask) s (fun t => t = ksc { q with enc := t.ksc.enc } ∧ ∀ m : Fin 4,
        t.ksc.enc[m] = if mask.getLsbD m.val then { q.enc[m] with count := 0, refH := #v[0, 0], refE := 0 } else q.enc[m]))
    ∧ (PortMay s p priv 0x0B false → ∀ m : Fin 4, m.val = fld key 11 10 → exec (.encposRead p priv) s =
        .next (shows q.enc[m].count.toNat h.sel (ksc { q with enc := q.enc.set m { q.enc[m] with refH := q.enc[m].refH.set p q.enc[m].count } })))
    ∧ (EngMay s e (0x430 + 2 * n.val) false → EngMay s e (0x431 + 2 * n.val) false → ∃ y, exec (.enccntRead e n) s =
        .next (withIo y (ksc { q with enc := q.enc.set n { c with refE := c.count } })) ∧ y.rd[e] = c.count.toNat)
    ∧ (EngMay s e 0x439 false → EngMay s e' 0x439 false → ReadBoth (.encerrRead · ·) e e' (q.encerr % 256) s (ksc { q with encerr := 0 }))
    ∧ (PortMay s p priv 0x06 true → key < 4096 → key % 32 < 30 → fld key 9 8 ≠ 3 → key.testBit 7 = false → exec (.freeze p priv) s =
        .next { putPort p { h with driven := false, rdyLow := false, wbuf := 0 } s with ksc := { q with frozen := q.frozen.set p q.image } })
    ∧ (PortMay s p priv 0x07 false → exec (.keywinRead p priv) s =
        .next (shows (keyWord (if key.testBit 6 then q.frozen[p].win else q.plane.conf) (key % 32)) nextWord s))
    ∧ (PortMay s p priv 0x09 false → exec (.keyprovRead p priv) s =
        .next (shows (keyWord (if key.testBit 6 then q.frozen[p].prov else provPlane q.plane) (key % 32)) nextWord s))
    ∧ (∀ r l, EngMay s e 0x42B false → EngMay s e 0x42C false → EngMay s e' 0x42B false → EngMay s e' 0x42C false → q.fifo = r :: l →
        ReadBoth (.kevdatRead · ·) e e' ((r.seq * 4096 + r.typ * 512 + r.pos) % 65536) s (ksc { q with fifo := l }))
    ∧ (EngMay s e 0x41C false → EngMay s e' 0x41C false → q.katlsel < 480 → ReadBoth (.katldatAccess · none ·) e e'
        (spGet 0 (if q.viewlive then q.cfg.live else q.cfg.stg) (0x10000 + q.katlsel) % 256) s (ksc { q with katlsel := if q.katlsel = 479 then 0 else q.katlsel + 1 }))
    ∧ (∀ v : Byte, EngMay s e 0x41C true → q.katlsel < 480 → exec (.katldatAccess e (some v)) s = .next (ksc { q with
        katlsel := if q.katlsel = 479 then 0 else q.katlsel + 1, cfg := { q.cfg with stg := spSet 0 q.cfg.stg (0x10000 + q.katlsel) (v.toNat % 8), dirty := true } }))

/-- R103 to R106, R111, R114, R115, R117, R120 to R123, R129, R483: frames with the fall of the key lights, the pins of the matrix, of
the rails and of the accent stages, the banks and the commands of LITECMD and LCMD. What a waiting BLANK does at a stop is the model's
choice (log entry 48). Where it goes beyond the rules it is the model's choice or reading: log entries 2, 33, 48. -/
def Obligations.LightingFrames : Prop :=
  ∀ (low high opens shorts : BitVec 72) (gap : Half) (m : Fin 1161) (e : Eng) (p : Port) (priv : Bool) (s : State), domOn s 6 = true →
    let q := s.lgt
    let b := s.lgb
    let lgt (x : Lgt) : State := { s with lgt := x }
    let dark (t : State) : State := { t with lgt := if q.run = false ∧ q.running = false then { q with blanked := true, blankReq := false, unblankReq := false } else { q with blankReq := true } }
    let light (t : State) : State := { t with lgt := if q.run = false ∧ q.running = false then { q with blanked := false, blankReq := false, unblankReq := false } else { q with unblankReq := true } }
    let due (pulse : Bool) (t : State) : State := { t with lgb := { b with swap := some { atOnce := !q.run, taken := false, pulse := pulse } } }
    let s0 := putPort p { s.hp[p] with driven := false, rdyLow := false, wbuf := 0 } s
    (q.running = true → q.atB = false → Does (.lineSlotStart low high opens shorts gap) s (fun t =>
        t.lgt.line = q.next ∧ t.lgt.next = q.next + 1 ∧ (t.lgt.atB = true ↔ lgtLive s 0x10 ≤ q.next + 1) ∧ t.lgt.blanked = (q.blanked || q.blankReq)
        ∧ t.lgb.front = b.front ∧ t.lgb.back = b.back ∧ t.eng = s.eng
        ∧ ∀ k, k < 72 → t.lgt.blanked = true ∨ (lgtLive s 0x17).testBit k = false → spGet (0, 0) t.lgt.pulses k = (0, 0) ∧ t.lgt.probe.getLsbD k = false))
    ∧ (∀ j x k : Nat, padsOn s = true → slotRuns s = true → k < 72 →
        let pre := lgtLive s 0x11
        let w := spGet (0, 0) q.pulses k
        (s.gpio.lsgv = true → lgtLive s 0x13 ≤ pre → lsgPin s j x = if j = q.line ∧ pre ≤ x ∧ (x < lgtSlot s ∨ probesLine s q.line = true) then .low else .high)
        ∧ (preSwitch s k x = true ↔ (lgtLive s 0x17).testBit k = true ∧ lgtLive s 0x13 ≤ x ∧ x < pre)
        ∧ (preMv s k : Int) = max 0 (1600 + 15 * (q.rails[finOf 3 (k / 24)].rset : Int) - 1200)
        ∧ (x < pre → sinkCode s k x = 0)
        ∧ (w.2 ≤ 4095 → pre ≤ x → lgtLive s 0x13 ≤ pre → x < lgtSlot s → sinkCode s k x = if x < pre + w.2 * lgtStep s then w.1 else 0))
    ∧ (∀ (n : Fin 8) (x : Nat), stageRuns s n x = true ↔ padsOn s = true ∧ s.gpio.vdrvl = true ∧ q.esPulse[n] ≠ (0, 0)
        ∧ 8192 * (x + 1) ≤ 2 * q.esPulse[n].2 * lgtFper s + 4096)
    ∧ (∀ (c : Fin 3) (n : Fin 8) (x : Nat) (on : Bool),
        (padsOn s = false ∨ s.gpio.vdrvl = false → railGate s c on = .hiZ ∧ esGate s n x on = .hiZ ∧ esDimPin s n x = .hiZ)
        ∧ (padsOn s = true → s.gpio.vdrvl = true → railGate s c on = (if on = true ∧ q.rails[c].st ≠ .off then .high else .low)
          ∧ esGate s n x on = (if on = true ∧ stageRuns s n x = true then .high else .low) ∧ esDimPin s n x = (if stageRuns s n x then .high else .low)))
    ∧ (q.running = true → q.atB = true → q.run = true → lgtRole s ≠ 2 ∨ b.synclost = true ∨ q.begins = true → Does .lgtFrameBoundary s (fun t =>
        t.lgt.lframe = q.lframe + 1 ∧ t.lgt.next = 0 ∧ t.lgt.atB = false ∧ t.lgt.lis = q.lis ||| 1
        ∧ t.lgt.blanked = (if q.blankReq then true else if q.unblankReq then false else q.blanked) ∧ t.lgb.front = b.front ∧ t.lgb.back = b.back ∧ t.dct = s.dct
        ∧ t.lgb.keys.lit = b.keys.lit ∧ t.lgb.keys.provLit = b.keys.provLit
        ∧ (∀ i, b.keys.lit.getLsbD i = false → spGet 0 t.lgb.keys.fade i = if lgtLive s 0x3B = 0 then 0 else max 0 (spGet 0 b.keys.fade i - 1 / (lgtLive s 0x3B : Rat)))
        ∧ (s.gpio.viom = false ∨ lgtRole s ≠ 1 → ∀ y, lsyncPin t y = .hiZ)))
    ∧ (EngMay s e 0x804 true → q.running = false → q.run = false → lgtRole s ≠ 2 → exec (.lightingRun e) s = .next (lgt { q with
        run := true, running := true, atB := true, blankReq := false, unblankReq := false }))
    ∧ (EngMay s e 0x804 true → q.running = true → Does (.lightingStopRequest e) s (fun t =>
        t = lgt t.lgt ∧ t.lgt.run = false ∧ t.lgt.running = true ∧ t.lgt.blanked = q.blanked ∧ t.lgt.atB = q.atB))
    ∧ (q.running = true → q.atB = true → q.run = false → Does .lightingStop s (fun t => t = lgt t.lgt ∧ t.lgt.running = false ∧ t.lgt.pulses = []
        ∧ (∀ n : Fin 8, t.lgt.esPulse[n] = (0, 0)) ∧ t.lgt.blanked = (q.blankReq || (q.blanked && !q.unblankReq)) ∧ t.lgt.lframe = q.lframe))
    ∧ (EngMay s e 0x805 true → exec (.liteNone (.ce e)) s = .next s ∧ exec (.blank (.ce e)) s = .next (dark s) ∧ exec (.unblank (.ce e)) s = .next (light s)
        ∧ (b.swap = none → exec (.liteCommit (.ce e)) s = .next (due true s) ∧ exec (.commitLocal (.ce e)) s = .next (due false s))
        ∧ (b.swap ≠ none → exec (.liteCommit (.ce e)) s = .next s ∧ exec (.commitLocal (.ce e)) s = .next s))
    ∧ (PortMay s p priv 0x22 true → exec (.liteNone (.hp p priv)) s = .next s0 ∧ exec (.blank (.hp p priv)) s = .next (dark s0) ∧ exec (.unblank (.hp p priv)) s = .next (light s0)
        ∧ (b.swap = none → exec (.liteCommit (.hp p priv)) s = .next (due true s0) ∧ exec (.commitLocal (.hp p priv)) s = .next (due false s0)))
    ∧ (swapDue s = true → Does .swap s (fun t => t.lgb = { b with front := b.back, back := b.front, swap := none, backrdy := !q.copyback, copying := q.copyback, copied := 0, written := [] }
        ∧ t.lgt = { q with lis := q.lis ||| (if q.copyback then 2 else 6) } ∧ ∀ n : Port, domOn s 7 = true → t.hp[n].sel.hints.getLsbD 11 = true))
    ∧ (b.copying = true → b.copied ≤ m.val → Does (.copybackComplete m) s (fun t =>
        t.lgb.copying = decide (m.val < 1160) ∧ t.lgb.front = b.front
        ∧ (m.val = 1160 → t.lgb.backrdy = true ∧ t.lgt = { q with lis := q.lis ||| 4 }) ∧ (m.val < 1160 → t.lgb.backrdy = b.backrdy ∧ t.lgb.copied = m.val ∧ t.lgt = q)
        ∧ ∀ k, k < 1160 → spGet 0 t.lgb.back k = if b.copied ≤ k ∧ k < m.val ∧ k ∉ b.written then spGet 0 b.front k else spGet 0 b.back k))

/-- R107, R112, R113, R116, R119, R125 to R127, R142: faults, temperature, LSYNC and the indirect tables of LGT. That
HEADROOM restarts its count is the model's choice (log entry 48), and that LIXIDX goes on from 0x7FF to 0: log entry 51 (DESIGN
CHOICE). R132 to R134: the lighting chain. Where it goes beyond the rules it is the model's choice or reading: log entries 2, 33,
48. -/
def Obligations.LightingChainAndFaults : Prop :=
  (∀ (e e' : Eng) (c : Fin 3) (n : Fin 8) (i : BitVec 11) (v low : Half) (off : Int) (mask : Byte) (s : State), domOn s 6 = true →
    let q := s.lgt
    let b := s.lgb
    let lgb (x : LgtBank) : State := { s with lgb := x }
    let logs (t : State) (typ : Nat) (p : List Nat) : Prop := s.fbk.ring.length < 256 → s.fbk.drops = 0 → s.svy.svfsel = 0 →
      ∃ r : FbRec, t.fbk.ring = s.fbk.ring ++ [{ r := r, written := false }] ∧ r.src = 5 ∧ r.typ = typ ∧ r.p = p
    let stage : Prop := (lgtLive s (0x50 + 8 * n.val)).testBit 0 = true ∧ (q.run = true ∨ q.running = true) ∧ q.blanked = false ∧ (q.esopen ||| q.esshort ||| q.esOff).testBit n.val = false
    (∀ x m, i.toNat < 1152 → spGet (0, 0) b.verdict i.toNat = (x, m) → x = 1 ∨ x = 2 → lgtLive s 0x16 ≤ m → spGet 0 b.fault i.toNat = 0 → Does (.ledFault i) s (fun t =>
        spGet 0 t.lgb.fault i.toNat = x ∧ t.lgt.flt = q.flt ||| 4 ∧ logs t (x + 2) [i.toNat]))
    ∧ (64 ≤ q.rails[c].lows → Does (.headroom c) s (fun t => t.lgt.flt = q.flt ||| 0x20 ∧ t.lgt.rails[c] = { q.rails[c] with lows := 0 } ∧ logs t 1 [c.val]))
    ∧ (q.rails[c].st = .on ∨ (∃ k, q.rails[c].st = .soft k) ∧ (q.running = false ∨ q.atB = true) → Does (.railFault c) s (fun t => t.lgt.flt = q.flt ||| 0x10 ∧ t.lgt.rails[c] = { q.rails[c] with st := .off } ∧ t.lgt.pulses = [] ∧ logs t 2 [c.val]))
    ∧ (EngMay s e 0x807 true → Does (.railFaultClear e) s (fun t => t = { s with lgt := { q with flt := t.lgt.flt } } ∧ ∀ k, k < 7 → t.lgt.flt.testBit k = (q.flt.testBit k && k != 4)))
    ∧ (stage → Does (.stringOpen n) s (fun t => t.lgt.esopen = q.esopen ||| 2 ^ n.val ∧ t.lgt.esshort = q.esshort ∧ t.lgt.esPulse[n] = (0, 0) ∧ t.lgt.flt = q.flt ||| 8 ∧ logs t 5 [n.val])
        ∧ Does (.stringShort n) s (fun t => t.lgt.esshort = q.esshort ||| 2 ^ n.val ∧ t.lgt.esopen = q.esopen ∧ t.lgt.esPulse[n] = (0, 0) ∧ t.lgt.flt = q.flt ||| 8 ∧ logs t 6 [n.val]))
    ∧ (EngMay s e 0x890 true → Does (.stageFaultClear e false mask) s (fun t => t = { s with lgt := { q with esopen := t.lgt.esopen } }
        ∧ ∀ k, k < 8 → t.lgt.esopen.testBit k = (q.esopen.testBit k && !mask.getLsbD k)))
    ∧ (EngMay s e 0x8A3 true → EngMay s e 0x8A4 true →
        (b.lixsel = 4 → b.lixidx < 1152 → ∃ y, exec (.faultMapClear e) s = .next (withIo y (lgb { b with
          fault := spSet 0 b.fault b.lixidx 0, lixidx := (b.lixidx + 1) % 2048 })))
        ∧ (b.lixsel = 0 → 1160 ≤ b.lixidx → ∃ y, exec (.lixdatWrite e v) s = .next (withIo y { s with lgt := { q with cfg := { q.cfg with err := true } } }))
        ∧ (b.lixsel = 0 → b.lixidx < 1160 → b.swap = none → b.copying = false → ∃ y, exec (.lixdatWrite e v) s = .next (withIo y (lgb { b with
          back := spSet 0 b.back b.lixidx v.toNat, lixidx := (b.lixidx + 1) % 2048 }))))
    ∧ (EngMay s e 0x8A3 false → EngMay s e 0x8A4 false → EngMay s e' 0x8A3 false → EngMay s e' 0x8A4 false →
        ReadBoth (.lixdatRead · ·) e e' (lixEntry s % 65536) s (lgb { b with lixidx := (b.lixidx + 1) % 2048 }))
    ∧ (EngMay s e 0x892 true → EngMay s e 0x893 true → fld (lgtLive s 0x2B) 1 0 = 2 → ∃ y, exec (.ltinWrite e v) s = .next (withIo y (lgb { b with ltin := v.toNat, tstale := false })))
    ∧ (ckRuns s = true → s.dct.mode = .run → fld (lgtLive s 0x2B) 1 0 ≠ 0 → lgtLive s 0x2B / 4 ≠ 0 → exec .tstale s =
        .next { s with lgb := { b with tstale := true }, lgt := { q with lis := q.lis ||| 8 } })
    ∧ (s.gpio.viom = true → lgtRole s = 2 → q.run = false → b.swap = none → exec (.lsyncPulse low off) s = .next
        (let b1 : LgtBank := { b with synclost := b.synclost && !(q.running && |off| ≤ 2) }
         if 16 ≤ low.toNat then lgb { b1 with swap := some { atOnce := true, taken := false, pulse := false } } else lgb b1))
    ∧ (s.gpio.viom = true → lgtRole s = 2 → q.run = true → q.running = false → b.swap = none → Does (.lsyncPulse low off) s (fun t =>
        t.lgb.synclost = false ∧ t.lgt.running = true ∧ t.lgt.lframe = q.lframe + 1 ∧ (t.lgb.swap.isSome = true ↔ 16 ≤ low.toNat)))
    ∧ (s.gpio.viom = true → lgtRole s = 2 → q.run = true → q.running = true → b.synclost = true → |off| ≤ 2 → Does (.lsyncPulse low off) s (fun t =>
        t.lgb.synclost = false ∧ t.lgt.running = true ∧ t.lgt.lframe = (if q.atB then q.lframe + 1 else q.lframe)))
    ∧ (lgtRole s = 2 → q.running = true → b.synclost = false → Does .lsyncLost s (fun t =>
        t.lgb = { b with synclost := true } ∧ t.lgt.lis = q.lis ||| 0x10 ∧ logs t 7 [q.lframe.toNat]))
    ∧ (s.gpio.viom = true → Does .syncflt s (fun t => t.lgt = { q with flt := q.flt ||| 1, lis := q.lis ||| 0x20 } ∧ t.lgb = b)))
  ∧ (∀ (d : Bool) (x : BitVec 40) (s : State), domOn s 6 = true → s.gpio.viom = true →
    let b := s.lgb
    let q := s.lgt
    let v := x.toNat
    let holds (code : Nat) : Prop := b.chain.toNat / 2 ^ 40 = code ∧ b.chain.toNat % 2 ^ 40 = v
    let may : Prop := s.rst.bootPhase = true ∨ s.prt.gflags.testBit 0 = true
    let ans (t : State) (code low : Nat) : Prop := t.lgb.chain = chainResponse false code low t
    exec (.chainShift d) s = .next { s with lgb := { b with chain := (b.chain <<< 1) ||| (if d then 1#48 else 0#48), ltdo := b.chain.getLsbD 46 } }
    ∧ (holds 0x00 → exec .chainNop s = .next { s with lgb := { b with chain := chainResponse false 0 0x4806 s } })
    ∧ (may → holds 0x10 → fld v 26 16 < 1160 → b.swap = none → Does .chainWrite s (fun t => t.lgt = q ∧ ans t 0x10 0 ∧ t.lgb.back = spSet 0 b.back (fld v 26 16) (v % 65536)))
    ∧ (may → holds 0x11 → b.swap = none → Does .chainFill s (fun t => t.lgt = q ∧ ans t 0x11 0 ∧ ∀ k, spGet 0 t.lgb.back k =
        if k < 72 * lgtLive s 0x10 ∧ (fld v 17 16 = 3 ∨ k % 72 / 24 = fld v 17 16) then v % 65536 else spGet 0 b.back k))
    ∧ (may → holds 0x20 → b.swap = none → Does .chainCommit s (fun t => t.lgt = q ∧ ans t 0x20 0 ∧ t.lgb.swap = some { atOnce := !q.run, taken := false, pulse := true } ∧ t.lgb.back = b.back))
    ∧ (may → holds 0x21 → Does .chainBlank s (fun t => ans t 0x21 0 ∧ (q.run = false → q.running = false → t.lgt.blanked = true) ∧ (q.running = true → t.lgt = { q with blankReq := true })))
    ∧ (may → holds 0x22 → Does .chainUnblank s (fun t => ans t 0x22 0 ∧ (q.run = false → q.running = false → t.lgt.blanked = false) ∧ (q.running = true → t.lgt = { q with unblankReq := true })))
    ∧ (may → holds 0x30 → q.running = false → Does .chainStart s (fun t => t.lgt.run = true ∧ t.lgt.unblankReq = true ∧ t.lgt.running = decide (lgtRole s ≠ 2)
        ∧ (∀ k, k < 72 → spGet 0 t.lgt.cfg.stg (0x10000 + k) = min (v % 256) 0x50) ∧ t.lgb.chain.toNat / 2 ^ 40 = 0x30))
    ∧ (may → holds 0x40 → exec .chainRead s = .next { s with lgb := { b with chain := chainResponse false 0x40 (lgtByte (v % 1024) s) s } })
    ∧ (∀ code, may → holds code → code ∉ chainCodes → Does .chainReserved s (fun t => t.lgt.flt = q.flt ||| 2 ∧ t.lgb.chain = chainResponse false code 0 t ∧ t.lgb.back = b.back))
    ∧ (¬ may → holds 0x10 → exec .chainWrite s = .next { s with lgb := { b with chain := chainResponse true 0x10 0 s } }))

/-- R146 to R155, R161, R182, R183: the switching period, the telemetry interval, the thermistor and the timer ticks.
The clamp of the input current limit to 650 is the model's choice: log entry 49 (DESIGN CHOICE). Where it else goes
beyond the rules it is the model's choice or reading: log entries 3, 10, 14, 34. -/
def Obligations.ChargerPeriods : Prop :=
  ∀ (m : ChgMeas) (d : ChgDemand) (on : Half) (tel : ChgTelem) (y : BitVec 14) (e : Eng) (en : Bool) (s : State), domOn s 1 = true →
    let q := s.chg
    let c := s.cht
    let p := s.chp
    let chg (x : Chg) : State := { s with chg := x }
    let enters (st : Nat) : Prop := Does (.periodStart m d on) s (fun t => t.chg.st = st ∧ t.chg.gates = 0 ∧ t.chg.mode = 0 ∧ t.chg.onCk = 0
      ∧ t.chp.mpLive = (p.mpvdn, p.mpdt, p.mpilk) ∧ t.cht.nPer = c.nPer + 1 ∧ t.cht.last = m ∧ t.eng = s.eng ∧ t.dct = s.dct)
    (q.rb = 0 → q.rbStop = 0 →
      (q.en = false → enters 0x0)
      ∧ (q.en = true → q.flt.testBit 0 = true ∨ s.tha.chgTrip = true → enters 0xC)
      ∧ (q.en = true → q.flt.testBit 0 = false → s.tha.chgTrip = false → m.vin < 3300 ∨ 20 * (chgLive (chgTakeSet s) 0x2E : Int) < m.vin ∨ p.blocked = true → enters 0x1))
    ∧ (q.rbStop = 0 → q.rb = 0 ∨ q.en = true →
      let u0 := chgTakeSet s
      let vin : Bool := if q.rb = 0 then decide (m.vin ≤ 20 * (chgLive u0 0x2E : Int)) && decide ((if p.vinOk then 3300 else 3500) ≤ m.vin) else p.vinOk
      let u : State := { u0 with chp := { p with mpLive := (p.mpvdn, p.mpdt, p.mpilk), vinOk := vin } }
      let z := q.zone
      let hc := maxInt (cellsOf u m)
      let lc := minInt (cellsOf u m)
      let again := decide (1 ≤ zoneSteps u z) && !zoneDerate u z && decide (hc < veffFinal u z - chgLive u 0x23)
      let pre := decide (lc < (chgLive u 0x21 : Int)) || (q.st = 4 && decide (lc < (chgLive u 0x21 : Int) + 100))
      let hold := decide (veffFinal u z ≤ hc) && (q.st = 6 || (q.st = 5 && q.zoneP ≠ z) || (q.st ≠ 5 && !pre))
      let rows : List (Bool × Nat) := [(!q.en, 0x0), (q.flt.testBit 0 || s.tha.chgTrip, 0xC), (q.rb = 2, 0xD), (!(vin && !p.blocked), 0x1), (!p.attached, 0x2), (p.isol, 0x3),
        (q.flt.testBit 2 || q.flt.testBit 3, 0xB), (q.expKind.isSome && !again, if q.expKind = some true then 0xA else 0x9), (z = 7 || zoneSteps u z = 0, 0x7),
        (q.termHeld, 0x8), (hold, 0x6), (pre, 0x4), (true, 0x5)]
      let lt (a b n : Int) : Prop := 100 * a < n * b
      let goal : Int := 20 * (min (chgLive u 0x45) s.prt.ceilrbv : Nat)
      Does (.periodStart m d on) s (fun t =>
        let n := t.chg.st
        let k := t.chg.step
        let a := if q.rb = 0 then m.vsys else m.vin
        let b := if q.rb = 0 then m.vchg else m.vsys
        let runs : Prop := s.clk.prep = false ∧ (n = 3 ∨ (4 ≤ n ∧ n ≤ 0xB) ∨ n = 0xD ∨ (q.rb ≠ 0 ∧ n ≠ 0xC))
        let charging : Prop := n = 4 ∨ n = 5
        let raw := min (if n = 4 then min (10 * (chgLive u 0x1F : Int)) (ichg u z 0) else ichg u z k) (10 * s.prt.ceili)
        let ct := veff u z (if n = 5 then k else 0)
        let dem (j : Nat) : Int := if j = 0 then d.primary else if j = 1 then d.cell else if j = 2 then d.pack else if j = 3 then d.iin else if j = 4 then d.vin else d.tj
        let near (j : Nat) : Prop := j = 0 ∨ (j = 1 ∧ charging ∧ ct - 10 ≤ hc) ∨ (j = 2 ∧ charging ∧ (chgLive u 0x10 : Int) * ct - (chgLive u 0x10 : Int) * 10 ≤ m.pack)
          ∨ (j = 3 ∧ p.acg = true ∧ q.rb = 0 ∧ 98 * (10 * (min 650 (chgLive u 0x2A) : Nat) : Int) ≤ 100 * m.iin)
          ∨ (j = 4 ∧ p.acg = true ∧ q.rb = 0 ∧ 100 * m.vin ≤ 102 * 20 * (chgLive u 0x2C : Int)) ∨ (j = 5 ∧ 16 * ((chgLive u 0x40 : Int) - 2) ≤ m.tj)
        rows.find? Prod.fst = some (true, n) ∧ t.chg.cfg = u0.chg.cfg ∧ t.chg.rb = q.rb ∧ t.chg.zoneP = z ∧ t.chg.stepNext = none
        ∧ (n = 5 → q.st = 5 → q.zoneP = z → k = q.stepNext.getD q.step)
        ∧ (n = 5 → q.st ≠ 5 ∨ q.zoneP ≠ z → k < zoneSteps u z ∧ hc < veff u z k ∧ ∀ j, j < k → veff u z j ≤ hc)
        ∧ (¬ runs → t.chg.mode = 0 ∧ t.chg.modeNext = 0 ∧ t.chg.gates = 0 ∧ t.chg.onCk = 0 ∧ t.chg.dith = q.dith)
        ∧ (runs → t.chg.mode = if q.mode ≠ 0 then q.modeNext else if lt a b 86 then 1 else if lt (-a) b (-114) then 3 else 2)
        ∧ (t.chg.mode = 1 → t.chg.modeNext = (if lt (-a) b (-114) then 3 else if lt (-a) b (-90) then 2 else 1) ∧ t.chg.gates = 0b1001)
        ∧ (t.chg.mode = 2 → t.chg.modeNext = (if lt a b 86 then 1 else if lt (-a) b (-114) then 3 else 2) ∧ t.chg.gates = if q.rb = 0 then 0b1010 else 0b0101)
        ∧ (t.chg.mode = 3 → t.chg.modeNext = (if lt a b 86 then 1 else if lt a b 110 then 2 else 3) ∧ t.chg.gates = if q.rb = 0 then 0b1010 else 0b0101)
        ∧ (t.chg.mode ≠ 0 → t.chg.onCk = (on.toNat + q.dith) / 16 ∧ t.chg.dith = (on.toNat + q.dith) % 16)
        ∧ (charging → t.cht.target = min raw (10 * p.ithlim)) ∧ (¬ charging → t.cht.target = 0)
        ∧ near t.cht.binding ∧ t.cht.demand = dem t.cht.binding ∧ (∀ j, j < 6 → near j → t.cht.demand ≤ dem j)
        ∧ t.cht.nPer = c.nPer + 1 ∧ t.cht.nIn = c.nIn + (if t.chg.mode ≠ 0 ∧ (t.cht.binding = 3 ∨ t.cht.binding = 4) then 1 else 0)
        ∧ t.cht.nTj = c.nTj + (if t.chg.mode ≠ 0 ∧ t.cht.binding = 5 then 1 else 0) ∧ (t.cht.ithAll = true ↔ c.ithAll = true ∧ charging ∧ 10 * (p.ithlim : Int) < raw)
        ∧ t.chp.batg = (n = 0 || !p.isol) ∧ t.chp.attached = (p.attached && n ≠ 0)
        ∧ t.chp.acg = ((p.acg || (q.rb = 1 && decide (50 * |m.vchg - goal| ≤ goal))) && n ≠ 0)
        ∧ (q.rb ≠ 0 → t.chp.rbLim = min ((50 * min (chgLive u 0x47) s.prt.ceilrbi : Nat) : Rat) (65000000 / (20 * (chgLive u 0x45 : Rat))))
        ∧ (n ≠ q.st → t.chg.cis.testBit 0 = true ∧ (n = 0 ∨ n = 1 ∨ n = 3 ∨ n = 8 ∨ n = 0xD → t.chg.timer = 0 ∧ t.chg.pre = 0))
        ∧ (q.inProg = true → 4 ≤ q.st → q.st ≤ 7 → t.chg.inProg = decide (n = 2 ∨ (4 ≤ n ∧ n ≤ 7) ∨ n = 0xD)
          ∧ t.chg.cend = if n = 0 then 9 else if n = 1 then (if p.isol then 4 else 5) else if n = 3 then 4 else if n = 8 then 1 else if n = 9 then 2 else if n = 0xA then 3
            else if n = 0xB then (if q.flt.testBit 3 then 7 else 0xA) else if n = 0xC then (if q.flt.testBit 0 then 6 else 8) else q.cend)
        ∧ (q.inProg = false → t.chg.cend = q.cend ∧ (n ≠ q.st → t.chg.inProg = decide charging))
        ∧ t.chp.insDue = none ∧ (∀ pack, p.insDue = some pack → s.fbk.ring.length < 256 → s.fbk.drops = 0 → s.svy.svfsel = 0 →
            ∃ r : FbRec, t.fbk.ring = s.fbk.ring ++ [{ r := r, written := false }] ∧ r.src = 6 ∧ r.typ = 8 ∧ r.p = [pack])))
    ∧ (q.mode ≠ 0 → q.rb = 0 → q.gates = (if q.mode = 1 then 0b1001 else 0b1010) → exec .peakCurrentLimit s =
        .next (chg { q with gates := (if q.mode = 1 ∨ q.mode = 2 then 0b0101 else 0b1001), gatesWas := q.gates }))
    ∧ (q.mode ≠ 0 → q.rb ≠ 0 → q.gates = (if q.mode = 1 then 0b1001 else 0b0101) → exec .peakCurrentLimit s =
        .next (chg { q with gates := (if q.mode = 1 ∨ q.mode = 2 then 0b1010 else 0b1001), gatesWas := q.gates }))
    ∧ (q.mode = 0 ∨ q.gates ≠ startGates (q.rb ≠ 0) q.mode → exec .peakCurrentLimit s = .next s)
    ∧ exec (.peakCurrentLimit true) s = .next s
    ∧ Does (.telemetryInterval tel) s (fun t => t.cht.rcq = max 0 (min (3600000 * (p.fcc : Int)) (c.rcq + tel.m.ibat))
        ∧ (t.cht.inreg = true ↔ c.nPer < 2 * c.nIn) ∧ t.cht.nPer = 0 ∧ t.cht.nIn = 0 ∧ t.cht.nTj = 0 ∧ t.cht.nV = 0 ∧ t.chg.cis = q.cis ||| 0x20
        ∧ t.chg.st = q.st ∧ t.chg.gates = q.gates ∧ t.cht.ibPrev = tel.m.ibat ∧ t.eng = s.eng ∧ t.fbk = s.fbk
        ∧ (t.cht.threg = true ↔ c.nPer < 2 * c.nTj ∨ (c.ithAll = true ∧ c.nPer ≠ 0))
        ∧ t.chg.stepNext = (if q.st = 5 ∧ q.step + 1 < zoneSteps s q.zone ∧ veff s q.zone q.step ≤ maxInt (cellsOf s tel.m) then some (q.step + 1) else q.stepNext)
        ∧ (q.rb ≠ 0 → let g : Int := 20 * (min (chgLive s 0x45) s.prt.ceilrbv : Nat)
            let r : Int := if q.rb = 1 then 5000 else 1000
            t.chp.rbTgt = if p.rbTgt < g then min g (p.rbTgt + r) else max g (p.rbTgt - r)))
    ∧ (EngMay s e 0xC04 true → exec (.chargerEnable e en) s = .next (chg { q with en := en }))
    ∧ Does .safetyTimerTick s (fun t =>
        let n := if 250 ≤ c.slowCnt then 1 else 2
        t.cht = { c with slowCnt := 0 } ∧ t.chg.timer = (if q.st = 4 ∨ q.st = 5 then q.timer + n else q.timer) ∧ t.chg.pre = (if q.st = 4 then q.pre + n else q.pre)
        ∧ t.chg.st = q.st ∧ t.chp = p)
    ∧ (y.toNat < 256 ∨ 16128 < y.toNat → exec (.tbatConversion y) s = .next { s with chp := { p with ntcBad := p.ntcBad + 1, ntcGood := 0 } })
    ∧ (let t := ntcTemp (chgLive s 0x41) (chgLive s 0x43) 1000 y.toNat
       256 ≤ y.toNat → y.toNat ≤ 16128 → -640 ≤ t → t ≤ 2000 → exec (.tbatConversion y) s = .next { s with
         chp := { p with tbat := t, ntcBad := 0, ntcGood := p.ntcGood + 1 }, chg := { q with zone := if q.zone = 7 then 7 else zoneHyst s t q.zone } })

/-- R155, R159, R160, R162 to R168: what ends or faults a charge, and what clears it. Where it goes beyond the rules
it is the model's choice or reading: log entry 34. -/
def Obligations.ChargerFaults : Prop :=
  ∀ (e : Eng) (k : Fin 6) (v : Half) (cells : Vector Int 5) (s : State), domOn s 1 = true →
    let q := s.chg
    let p := s.chp
    let logs (t : State) (typ : Nat) (pay : List Nat) : Prop := s.fbk.ring.length < 256 → s.fbk.drops = 0 → s.svy.svfsel = 0 →
      ∃ r : FbRec, t.fbk.ring = s.fbk.ring ++ [{ r := r, written := false }] ∧ r.src = 6 ∧ r.typ = typ ∧ r.p = pay
    let clears (i : Instr) (P : State → Prop) : Prop := EngMay s e 0xC07 true → EngMay s e 0xC08 true → Does i s P
    (3 ≤ p.ntcBad → q.zone ≠ 7 → Does .ntcFault s (fun t => t.chg.zone = 7 ∧ t.chg.flt = q.flt ||| 0x20 ∧ logs t 0x11 [1]))
    ∧ (3 ≤ p.ntcGood → q.zone = 7 → Does .ntcRecovery s (fun t => t.chg = { q with zone := zoneRaw s p.tbat } ∧ logs t 0x11 [0]))
    ∧ (q.st = 5 → 16 ≤ s.cht.termCnt → Does .chargeDone s (fun t => t.chg.st = 8 ∧ t.chg.termHeld = true ∧ t.chg.exp1 = false ∧ t.chg.timer = 0
        ∧ t.cht.rcq = 3600000 * (p.fcc : Int) ∧ ∃ x y, logs t 0x0C [x, y]))
    ∧ (q.st = 8 → exec .recharge s = .next { s with chg := { q with termHeld := false, timer := 0, pre := 0 } })
    ∧ (q.st = 4 ∨ q.st = 5 → 240 * chgLive s 0x37 ≤ q.timer → preExpired s = false →
        (q.exp1 = false → Does .safetyTimerExpiry s (fun t => t.chg.exp1 = true
          ∧ (t.chg.st = if s.cht.threg = true ∨ zoneDerate s q.zone = true then 0xA else 0x9)
          ∧ logs t (if s.cht.threg = true ∨ zoneDerate s q.zone = true then 0x04 else 0x03) [q.zone, q.step, q.st]))
        ∧ (q.exp1 = true → Does .safetyTimerExpiry s (fun t => t.chg.st = 0xB ∧ t.chg.flt = q.flt ||| 0x04 ∧ logs t 0x05 [q.zone, q.step, q.st])))
    ∧ (q.st = 4 → 240 * chgLive s 0x39 ≤ q.pre → Does .preTimeout s (fun t => t.chg.st = 0xB ∧ t.chg.flt = q.flt ||| 0x08 ∧ logs t 0x06 [q.zone, q.step, 4]))
    ∧ clears (.tmrlatchClear e) (fun t => t.chg = { q with flt := t.chg.flt, exp1 := false, expKind := none } ∧ t.eng = s.eng
        ∧ ∀ n, n < 10 → t.chg.flt.testBit n = (q.flt.testBit n && n != 2))
    ∧ clears (.ovpClear e cells) (fun t => t.chg.exp1 = q.exp1 ∧ t.chg.st = q.st ∧ ∀ n, n < 10 → t.chg.flt.testBit n = (q.flt.testBit n
        && !(n == 0 && (cells.toList.take (chgLive s 0x10)).all (fun c => decide (c < (chgLive s 0x25 : Int) - chgLive s 0x27)))))
    ∧ (1 ≤ k.val → k.val ≤ chgLive s 0x10 → q.rb = 0 → Does (.cellOv k v) s (fun t => t.chg.flt = q.flt ||| 1 ∧ t.chg.gates = 0 ∧ t.chg.mode = 0 ∧ logs t 0x01 [k.val, v.toNat]))
    ∧ (1 ≤ k.val → k.val ≤ chgLive s 0x10 → q.rb ≠ 0 → Does (.cellOv k v) s (fun t => t.chg.flt = q.flt ||| 1 ∧ t.chg.gates = 0 ∧ t.chg.mode = 0 ∧ t.chg.rb = 0 ∧ t.chp.acg = false))
    ∧ (inputValid s = false → Does (.cellUv k v) s (fun t => t.chg.flt = q.flt ||| 0x100 ∧ t.chg.rbStop = (if q.rb = 0 then q.rbStop else 3) ∧ logs t 0x02 [k.val, v.toNat]))

/-- R171 to R181: the input port, the battery connection and reverse boost. That P2 of more CK than 16 bits hold is a free value is
the model's choice: log entry 14 (DESIGN CHOICE). Where it else goes beyond the rules it is the model's choice or reading: log
entries 3, 34. -/
def Obligations.PowerPath : Prop :=
  ∀ (e : Eng) (v : Half) (rev rise bid ended : Bool) (ck : Nat) (s : State), domOn s 1 = true →
    let q := s.chg
    let p := s.chp
    let logs (t : State) (typ : Nat) (pay : List Nat) : Prop := s.fbk.ring.length < 256 → s.fbk.drops = 0 → s.svy.svfsel = 0 →
      ∃ r : FbRec, t.fbk.ring = s.fbk.ring ++ [{ r := r, written := false }] ∧ r.src = 6 ∧ r.typ = typ ∧ r.p = pay
    let off (t : State) : Prop := t.chg.gates = 0 ∧ t.chg.mode = 0 ∧ t.chp.acg = false ∧ t.chp.attached = false ∧ t.chp.blocked = true
    let joined (t : State) (pack : Nat) : Prop := t.chp = { p with batg := true, isol := false, insPack := none, insDue := (if q.st = 3 then some pack else none), remSecond := false }
      ∧ t.chg.timer = 0 ∧ t.chg.pre = 0 ∧ (q.st = 3 → t.fbk = s.fbk) ∧ (q.st ≠ 3 → logs t 0x08 [pack])
    let stopsAt (i : Instr) (cause : Nat) : Prop := Does i s (fun t => t.chg.rbStop = cause ∧ t.chg.rb = q.rb ∧ t.chg.gates = q.gates)
    (q.rb = 0 → 3300 ≤ v.toNat → v.toNat ≤ 20 * chgLive s 0x2E → exec (.acgOn v) s = .next { s with chp := { p with vinOk := true, blocked := false, acg := p.acg || q.en } })
    ∧ (p.acg = true → p.attached = false → q.rb = 0 → Does (.inputAttach v) s (fun t => t.chp = { p with attached := true } ∧ t.chg = { q with cis := t.chg.cis } ∧ logs t 0x09 [v.toNat]))
    ∧ (q.rb = 0 → p.acg = true ∨ p.vinOk = true → Does (.inputLost rev) s (fun t => off t ∧ t.chp.vinOk = rev ∧ t.chg.st = q.st ∧ logs t 0x0A [if rev then 2 else 1]))
    ∧ (q.rb = 0 → Does (.inputOv v) s (fun t => off t ∧ t.chp.vinOk = false ∧ t.chg.flt = q.flt ||| 0x10 ∧ logs t 0x0B [v.toNat]))
    ∧ (p.isol = false ∨ p.insPack.isSome = true → (bid = true ∧ (chgLive s 0x3A).testBit 0 = true) ∨ (rise = true ∧ chgLive s 0x3D ≠ 0 ∧ (q.st = 4 ∨ q.st = 5)) → Does (.battRemoved rise bid v false ended) s (fun t =>
        t.chp.isol = true ∧ t.chp.batg = false ∧ t.chp.insPack = none ∧ t.chg.gates = (if q.mode ≠ 0 ∧ ended = false ∧ q.gates = startGates (q.rb ≠ 0) q.mode then endGates (q.rb ≠ 0) q.mode else q.gates) ∧ t.chg.timer = 0 ∧ t.chg.exp1 = false ∧ t.chg.termHeld = false ∧ t.chp.vsysTgt = v.toNat ∧ t.chp.remVsys = v.toNat))
    ∧ (p.isol = true → p.remSecond = true → secondActive s = true → ck ≤ (if s.clk.ckPll = true then 240000 else 24000) → Does (.battRemovedSecond ck) s (fun t =>
        t.chp = { p with remSecond := false } ∧ t.chg = q ∧ logs t 0x07 [3 - p.remP0, p.remVsys, reg16 ck]))
    ∧ (p.isol = true → p.insPack = none → inputValid s = true → exec (.battInserted v) s = .next { s with chp := { p with insPack := some v.toNat } })
    ∧ (p.isol = true → p.insPack = none → inputValid s = false → Does (.battInserted v) s (fun t => joined t v.toNat))
    ∧ (∀ k, p.isol = true → p.insPack = some k → Does .batgReconnect s (fun t => joined t k))
    ∧ (EngMay s e 0xC04 true → rbFails s = 0 → q.rb = 0 → Does (.rbgo e) s (fun t => t.chg = { q with rb := 1, rbStop := 0 } ∧ t.chp.acg = false ∧ t.chp.attached = false
        ∧ t.chp.rbTgt = 0 ∧ t.fbk = s.fbk))
    ∧ (∀ f, EngMay s e 0xC04 true → rbFails s = f → f ≠ 0 → Does (.rbgo e) s (fun t => t.chg.rb = q.rb ∧ t.chg.flt = q.flt ||| 0x200 ∧ t.chp = p ∧ logs t 0x10 [f]))
    ∧ (q.rb = 1 → q.st ≠ 0xD → p.acg = true → Does .rbStart s (fun t => t.chg.rb = 2 ∧ t.chg.st = 0xD ∧ t.chp.acg = true ∧ logs t 0x0D [chgLive s 0x45]))
    ∧ (EngMay s e 0xC04 true → q.rb ≠ 0 → q.rbStop = 0 → stopsAt (.rbstop e) 1)
    ∧ (EngMay s e 0xC04 true → rbFails s = 0 → q.rb ≠ 0 → exec (.rbgo e) s = .next s)
    ∧ (q.rb ≠ 0 → q.rbStop = 0 → stopsAt .rbBackdrive 6 ∧ stopsAt .rbOverload 7 ∧ Does .rbOverload s (fun t => t.chg.flt = q.flt ||| 0x40))

/-- R186, R187, R191, R195: loss measurements, the held copies and the contour table. The rounding of RON and QG (log
entry 10), the free value of a result outside 0 to 65535 (log entry 14) and that CTSEL goes on from 127 to 0 (log entry 51, DESIGN
CHOICE) are the model's choice. Where it else goes beyond the rules it is the model's choice or reading: log entries 2, 34. -/
def Obligations.ChargerMeasurements : Prop :=
  ∀ (e : Eng) (p : Port) (priv : Bool) (v : Half) (ron : Vector (List (Int × Int)) 4) (qg : Vector (List Nat) 4) (s : State), domOn s 1 = true →
    let q := s.chg
    let c := s.cht
    let x := s.chs
    let i := x.ctsel
    let h := s.hp[p]
    let k := h.sel.chgsel
    (EngMay s e 0xC04 true → exec (.lfmgo e) s = .next { s with cht := { c with lfm := true } })
    ∧ (s.dct.mode = .run → q.st = 5 ∨ q.st = 3 → 2000 ≤ |c.last.il| → exec .lossFloorAuto s = .next { s with cht := { c with lfm := true } })
    ∧ (s.dct.mode = .run → c.lfm = true → Does (.lossFloorDone ron qg) s (fun t => t.cht = { c with lfm := false } ∧ t.chg = { q with cis := q.cis ||| 0x80 }
        ∧ ∀ n : Fin 4, let good := ron[n].filter (fun y => decide (2000 ≤ |y.2|))
          (good.length < 4096 → t.chs.ron[n] = x.ron[n])
          ∧ (4096 ≤ good.length → t.chs.ron[n] = reg16 (openRound (20 * ((good.take 4096).map (fun y => (y.1 : Rat) / (y.2 : Rat))).sum / 4096)))
          ∧ ((switchMask (q.rb ≠ 0) q.mode).testBit n.val = false ∨ qg[n].length < 16 → t.chs.qg[n] = x.qg[n])
          ∧ ((switchMask (q.rb ≠ 0) q.mode).testBit n.val = true → 16 ≤ qg[n].length →
            t.chs.qg[n] = reg16 (openRound (20 * 41667 / 1000000 * (((qg[n].take 16).sum : Nat) : Rat) / 16)))))
    ∧ (16 ≤ c.lossCnt → Does .lossBound s (fun t => t.chg.flt = q.flt ||| 0x80 ∧ t.cht = { c with lossCnt := 0 } ∧ t.chs = x))
    ∧ (PortMay s p priv 0x1C true → k % 64 < 0x1B → k.testBit 7 = false → k < 128 → exec (.chgselHold p priv) s =
        .next { putPort p { h with driven := false, rdyLow := false, wbuf := 0, sel := { h.sel with chgsel := k % 64 + 128 } } s with chs := { x with held := x.held.set p c.vals } })
    ∧ (∀ n : Eng, EngMay s e 0xC49 false → EngMay s e 0xC4A false → EngMay s n 0xC49 false → EngMay s n 0xC4A false →
        ReadBoth (.contourTableAccess · none ·) e n (ctEntry s % 65536) s { s with chs := { x with ctsel := (i + 1) % 128 } })
    ∧ (EngMay s e 0xC49 true → EngMay s e 0xC4A true →
      (i < 48 → ∃ y, exec (.contourTableAccess e (some v)) s = .next (withIo y { s with chs := { x with ctsel := (i + 1) % 128 }, chg := { q with cfg := { q.cfg with stg := spSet 0 q.cfg.stg (0x10000 + i) v.toNat, dirty := true } } }))
      ∧ (69 ≤ i → ∃ y, exec (.contourTableAccess e (some v)) s = .next (withIo y { s with chs := { x with ctsel := (i + 1) % 128 }, chg := { q with cfg := { q.cfg with err := true } } }))
      ∧ (48 ≤ i → i < 69 → ∃ y, exec (.contourTableAccess e (some v)) s = .next (withIo y { s with chs := { x with ctsel := (i + 1) % 128 }, chp := { s.chp with ocv := spSet 0 s.chp.ocv (i - 48) v.toNat } })))

/-- R205, R207, R213, R214, R216 to R220: platform requests, and the button, the lid and the wake inputs. Where it
goes beyond the rules it is the model's choice or reading: log entries 2, 3, 4, 35. -/
def Obligations.PlatformRequests : Prop :=
  (∀ (k : Fin 4) (high newer : Bool) (s : State), domOn s 2 = false → s.gpio.vios = true → exec (.wakeInput k high newer) s =
    .next { s with seq := { s.seq with wk := if high then s.seq.wk ||| (1#4 <<< k.val) else s.seq.wk &&& ~~~(1#4 <<< k.val) } })
  ∧ ∀ (src : PlatSrc) (tgt : BitVec 4) (n : Nat) (high : Bool) (k : Fin 4) (s : State), domOn s 2 = true →
    let q := s.seq
    let g := seqLive s
    let isOpen := s.gpio.vios && (high != (g 0x31).testBit 1)
    let lv (x : Bool) : Bool := x != (g 0x33).testBit k.val
    let qw : Seq := { q with wk := if high then q.wk ||| (1#4 <<< k.val) else q.wk &&& ~~~(1#4 <<< k.val) }
    let goal := thTo g q.trv
    let code : Nat := match src with | .mst (.ce e) => e.val | .mst (.hp p _) => 6 + p.val | .wake => 8 | .lid => 9 | .press => 0xA | .long => 0xB | .key => 0xD
    let may : Prop := match src with | .mst (.ce e) => EngMay s e 0x1007 true | .mst (.hp p priv) => PortMay s p priv 0x19 true | _ => True
    let s0 : State := match src with | .mst (.hp p _) => putPort p { s.hp[p] with driven := false, rdyLow := false, wbuf := 0 } s | _ => s
    let r : SeqReq := { tgt := tgt.toNat, src := code }
    let logs (t : State) (typ : Nat) (pay : List Nat) : Prop := s.fbk.ring.length < 256 → s.fbk.drops = 0 → s.svy.svfsel = 0 →
      ∃ r : FbRec, t.fbk.ring = s.fbk.ring ++ [{ r := r, written := false }] ∧ r.src = 7 ∧ r.typ = typ ∧ r.p = pay
    let rest (t : State) : Prop := t = { s with seq := t.seq, hp := t.hp, fbk := t.fbk, svy := t.svy, dct := { s.dct with wakes := t.dct.wakes } }
    let set (x : Seq) : State := { s0 with seq := x }
    let traverse (i : Instr) (m : Nat) (x : Seq) (by_ to_ : Nat) : Prop := Does i s (fun t => t.seq = { x with
      kind := .ordinary, trv := m, step := 0, waiting := false, pastcmt := false, undo := [], pend := none, sis := x.sis ||| 0x02 } ∧ logs t 0x01 [m, by_, to_] ∧ rest t)
    let turned : Prop :=
      Does (.platformRequest tgt src false) s (fun t => t.seq = { q with sflt := q.sflt ||| 0x04, sis := q.sis ||| 0x08 } ∧ logs t 0x07 [code, tgt.toNat, q.cur] ∧ rest t)
      ∧ Does (.platformRequest tgt src true) s (fun t => t.seq = q ∧ logs t 0x07 [code, tgt.toNat, q.cur] ∧ rest t)
    (may → seqCode tgt.toNat = true →
      (q.kind = .idle → tgt.toNat ≠ q.cur → q.en = false ∨ findTraverse s q.cur tgt.toNat = none → Does (.platformRequest tgt src true) s (fun t =>
          t.seq = q ∧ logs t 0x07 [code, tgt.toNat, q.cur] ∧ rest t))
      ∧ (q.kind = .idle → tgt.toNat = q.cur ∨ q.en = true ∧ findTraverse s q.cur tgt.toNat = some n → exec (.platformRequest tgt src true) s = .next s0)
      ∧ (q.kind ≠ .idle → q.en = true → exec (.platformRequest tgt src true) s = .next s0)
      ∧ (q.kind = .idle → tgt.toNat = q.cur → exec (.platformRequest tgt src false) s = .next s0)
      ∧ (q.kind = .idle → tgt.toNat ≠ q.cur → q.en = true → findTraverse s q.cur tgt.toNat = some n → traverse (.platformRequest tgt src false) n q code tgt.toNat)
      ∧ (q.kind = .idle → tgt.toNat ≠ q.cur → q.en = false ∨ findTraverse s q.cur tgt.toNat = none → Does (.platformRequest tgt src false) s (fun t =>
          t.seq = { q with sflt := q.sflt ||| 0x04, sis := q.sis ||| 0x08 } ∧ logs t 0x07 [code, tgt.toNat, q.cur] ∧ rest t))
      ∧ (q.kind = .ordinary → q.pastcmt = false → tgt.toNat ≠ goal → q.en = true → Does (.platformRequest tgt src false) s (fun t =>
          t.seq = { q with kind := .unwind, waiting := false, pend := some r } ∧ logs t 0x03 [q.trv, q.step, code, tgt.toNat] ∧ rest t))
      ∧ (q.kind = .ordinary → q.pastcmt = false → tgt.toNat = goal → exec (.platformRequest tgt src false) s = .next s0)
      ∧ (q.kind = .fault ∨ q.kind = .ordinary ∧ q.pastcmt = true →
          (tgt.toNat = goal → exec (.platformRequest tgt src false) s = .next (set { q with queue := none }))
          ∧ (tgt.toNat ≠ goal → q.en = true → exec (.platformRequest tgt src false) s = .next (set { q with queue := some r })))
      ∧ (q.kind = .unwind → q.en = true → exec (.platformRequest tgt src false) s = .next (set { q with pend := some r }))
      ∧ (q.en = false → (q.kind = .ordinary ∨ q.kind = .fault → tgt.toNat ≠ goal → turned) ∧ (q.kind = .unwind → q.pend.map SeqReq.tgt ≠ some tgt.toNat → turned)
        ∧ (q.kind = .ordinary ∨ q.kind = .fault → tgt.toNat = goal → exec (.platformRequest tgt src true) s = .next s0)
        ∧ (q.kind = .unwind → q.pend.map SeqReq.tgt = some tgt.toNat → exec (.platformRequest tgt src false) s = .next s0
            ∧ exec (.platformRequest tgt src true) s = .next s0)))
    ∧ (q.pressed = false → (g 0x30).testBit 3 = false → Does .powerButtonPress s (fun t =>
        t.seq = { q with pressed := true, longDone := false, hardDone := false, sis := q.sis ||| 0x10 } ∧ rest t))
    ∧ (q.pressed = false → (g 0x30).testBit 3 = true → q.kind = .idle → q.cur = 3 ∨ q.cur = 4 ∨ q.cur = 5 → q.en = true → findTraverse s q.cur 0 = some n →
        Does (.powerButtonPress true) s (fun t =>
          t.seq = { q with pressed := true, longDone := false, hardDone := false, sis := q.sis ||| 0x10 } ∧ t.fbk = s.fbk ∧ rest t)
        ∧ traverse .powerButtonPress n { q with pressed := true, longDone := false, hardDone := false, sis := q.sis ||| 0x10 } 0xA 0)
    ∧ exec .powerButtonRelease s = .next { s with seq := { q with pressed := false } }
    ∧ (q.pressed = true → q.longDone = false → (g 0x30).testBit 4 = true → q.kind = .idle → q.cur ≠ 5 → q.en = true → findTraverse s q.cur 5 = some n →
        traverse .longPress n { q with longDone := true } 0xB 5)
    ∧ (q.pressed = true → q.longDone = true → exec .longPress s = .next s)
    ∧ (q.pressed = true → q.hardDone = false → g 0x2F ≠ 0 → thValid g (fld (g 0x30) 2 0) = true → thFault g (fld (g 0x30) 2 0) = true → Does .hardOff s (fun t =>
        t.seq = { q with hardDone := true, sflt := q.sflt ||| 0x10, sis := q.sis ||| 0x08, watch := [], queue := none, pend := none, undo := [], waiting := false
                         pastcmt := false, step := 0, kind := .fault, trv := fld (g 0x30) 2 0 } ∧ logs t 0x08 [fld (g 0x30) 2 0] ∧ rest t))
    ∧ (isOpen ≠ q.lidOpen → isOpen = false ∨ (g 0x31).testBit 0 = false ∨ q.cur ≠ 3 ∨ q.kind ≠ .idle → Does (.lidDecision high) s (fun t =>
        t.seq = { q with lidOpen := isOpen, sis := q.sis ||| 0x20 } ∧ rest t ∧ t.fbk = s.fbk))
    ∧ (isOpen = true → q.lidOpen = false → (g 0x31).testBit 0 = true → q.cur = 3 → q.kind = .idle → q.en = true → findTraverse s 3 0 = some n →
        Does (.lidDecision high true) s (fun t => t.seq = { q with lidOpen := true, sis := q.sis ||| 0x20 } ∧ t.fbk = s.fbk ∧ rest t)
        ∧ traverse (.lidDecision high) n { q with lidOpen := true, sis := q.sis ||| 0x20 } 9 0)
    ∧ (isOpen = q.lidOpen → exec (.lidDecision high) s = .next s)
    ∧ (let asks := q.kind = .idle ∧ ((g 0x32).testBit k.val = true ∧ q.cur = 3 ∨ (g 0x32).testBit (4 + k.val) = true ∧ (q.cur = 4 ∨ q.cur = 5))
       let first : Prop := lv high = true ∧ lv (q.wk.getLsbD k.val) = false
       (s.gpio.vios = true → ¬ first → exec (.wakeInput k high) s = .next { s with seq := qw })
        ∧ (s.gpio.vios = true → first → ¬ asks → Does (.wakeInput k high) s (fun t => t.seq = { qw with sis := q.sis ||| 0x40 } ∧ rest t ∧ t.fbk = s.fbk))
        ∧ (s.gpio.vios = true → first → asks → q.en = true → findTraverse s q.cur 0 = some n →
            Does (.wakeInput k high true) s (fun t => t.seq = { qw with sis := q.sis ||| 0x40 } ∧ t.fbk = s.fbk ∧ rest t) ∧ traverse (.wakeInput k high) n { qw with sis := q.sis ||| 0x40 } 8 0)
        ∧ (s.gpio.vios = false → exec (.wakeInput k high) s = .next s))

/-- R203, R204, R206 to R208, R211 to R213, R224, R225: the steps of a traverse, its unwinding, and the registers. That
a PG pin change with nothing waiting comes as WAITPG_COMPLETE is the model's choice (log entry 46). Where it goes
beyond the rules it is the model's choice or reading: log entries 2, 35. -/
def Obligations.TraverseSteps : Prop :=
  ∀ (pins : BitVec 32) (m : Fin 32) (e : Eng) (v : Byte) (v4 : BitVec 32) (s : State), domOn s 2 = true →
    let q := s.seq
    let g := seqLive s
    let w := seqWord s
    let goal := thTo g q.trv
    let sp : State := { s with seq := { q with pg := pins } }
    let at_ (op : Nat) : Prop := (q.kind = .ordinary ∨ q.kind = .fault) ∧ q.waiting = false ∧ w / 2 ^ 28 = op
    let done (u : Undo) (x : Seq) : Seq := { x with step := q.step + 1, waiting := false, undo := u :: q.undo }
    let set (x : Seq) : State := { s with seq := x }
    let logs (t : State) (typ : Nat) (pay : List Nat) : Prop := s.fbk.ring.length < 256 → s.fbk.drops = 0 → s.svy.svfsel = 0 →
      ∃ r : FbRec, t.fbk.ring = s.fbk.ring ++ [{ r := r, written := false }] ∧ r.src = 7 ∧ r.typ = typ ∧ r.p = pay
    let rest (t : State) : Prop := t = { s with seq := t.seq, hp := t.hp, fbk := t.fbk, svy := t.svy, dct := { s.dct with wakes := t.dct.wakes } }
    let faults (x : Seq) (n : Nat) : Seq := { x with
      sis := q.sis ||| 0x08, watch := [], pend := none, undo := [], waiting := false, pastcmt := false, step := 0, kind := .fault, trv := n }
    let applied : Stg := match q.cfg.pnd with | none => q.cfg | some x => { q.cfg with live := x, pnd := none }
    let starts (x : Seq) (n : Nat) : Seq := { x with
      kind := .ordinary, trv := n, step := 0, waiting := false, pastcmt := false, undo := [], pend := none, sis := x.sis ||| 0x02 }
    let refuses (x : Seq) : Seq := { x with sflt := x.sflt ||| 0x04, sis := x.sis ||| 0x08 }
    let both (t : State) (t1 : Nat) (p1 : List Nat) (t2 : Nat) (p2 : List Nat) : Prop := s.fbk.ring.length < 255 → s.fbk.drops = 0 → s.svy.svfsel = 0 →
      ∃ r1 r2 : FbRec, t.fbk.ring = s.fbk.ring ++ [{ r := r1, written := false }, { r := r2, written := false }]
        ∧ r1.src = 7 ∧ r1.typ = t1 ∧ r1.p = p1 ∧ r2.src = 7 ∧ r2.typ = t2 ∧ r2.p = p2
    let uw (u : Undo) : Nat := g (0x10000 + 64 * q.trv + u.step)
    let skips (u : Undo) : Prop := uw u / 2 ^ 28 = 7 ∨ (uw u / 2 ^ 28 = 4 ∧ (uw u).testBit 26 = false)
    (at_ 1 → Does .stepSet s (fun t => t = set (done { step := q.step, mask := 2 ^ (w % 32), old := q.psout } { q with psout := t.seq.psout })
        ∧ ∀ i, i < 32 → t.seq.psout.testBit i = if i = w % 32 then w.testBit 8 else q.psout.testBit i))
    ∧ (at_ 2 → Does .stepSetg s (fun t => t = set (done { step := q.step, mask := fld w 15 8 * 2 ^ (8 * fld w 17 16), old := q.psout } { q with psout := t.seq.psout })
        ∧ ∀ i, i < 32 → t.seq.psout.testBit i = if i / 8 = fld w 17 16 ∧ w.testBit (8 + i % 8) = true then w.testBit (i % 8) else q.psout.testBit i))
    ∧ (at_ 3 → exec .stepDelay s = .next (set (done { step := q.step } q)))
    ∧ (at_ 4 → exec (.stepWaitpg pins) s = .next (set (if (pgin sp).testBit (fld w 20 16) = w.testBit 25 then done { step := q.step } { q with pg := pins }
        else { q with pg := pins, waiting := true })))
    ∧ ((q.kind = .idle ∨ q.kind = .unwind ∨ q.waiting = false ∨ (pgin sp).testBit (fld w 20 16) ≠ w.testBit 25) → exec (.waitpgComplete pins) s = .next sp)
    ∧ ((q.kind = .ordinary ∨ q.kind = .fault) → q.waiting = true → (pgin sp).testBit (fld w 20 16) = w.testBit 25 →
        exec (.waitpgComplete pins) s = .next (set (done { step := q.step } { q with pg := pins })))
    ∧ (at_ 5 → Does .stepWatch s (fun t => t = set (done { step := q.step, pg := w % 32, oldWatch := spGet 0 q.watch (w % 32) } { q with watch := t.seq.watch })
        ∧ ∀ i, spGet 0 t.seq.watch i = if i = w % 32 then (if w.testBit 8 then thFlt g q.trv + 1 else 0) else spGet 0 q.watch i))
    ∧ (at_ 6 → exec .stepCommit s = .next (set (done { step := q.step } { q with pastcmt := true, sis := q.sis ||| 0x04 })))
    ∧ (at_ 7 → Does .stepMark s (fun t => t.seq = done { step := q.step } { q with smark := w % 256, sis := q.sis ||| 0x80 } ∧ logs t 0x04 [q.trv, w % 256] ∧ rest t))
    ∧ (at_ 0 → q.queue = none ∨ q.queue.map SeqReq.tgt = some goal → Does .stepEnd s (fun t => t.seq = { q with
        cur := goal, kind := .idle, pastcmt := false, undo := [], sis := q.sis ||| 0x01, queue := none
        cfg := applied } ∧ logs t 0x02 [q.trv, goal] ∧ rest t))
    ∧ (∀ r, at_ 0 → q.queue = some r → r.tgt ≠ goal →
        let x : Seq := { q with cur := goal, kind := .idle, pastcmt := false, undo := [], sis := q.sis ||| 0x01, queue := none, cfg := applied }
        (q.en = false ∨ findTraverse (set x) goal r.tgt = none → Does .stepEnd s (fun t => t.seq = refuses x ∧ both t 0x02 [q.trv, goal] 0x07 [r.src, r.tgt, goal] ∧ rest t))
        ∧ (∀ n, q.en = true → findTraverse (set x) goal r.tgt = some n → Does .stepEnd s (fun t =>
            t.seq = starts x n ∧ both t 0x02 [q.trv, goal] 0x01 [n, r.src, r.tgt] ∧ rest t)))
    ∧ (q.waiting = true → q.kind = .unwind → thValid g (thFlt g q.trv) = true → thFault g (thFlt g q.trv) = true → Does .pgTimeout s (fun t =>
        t.seq = { faults { q with sflt := q.sflt ||| 0x08, fltTrv := q.trv, fltStep := q.step, fltPg := fld w 20 16 } (thFlt g q.trv) with
          queue := match q.pend with | some r => some r | none => q.queue }
        ∧ logs t 0x05 [q.trv, q.step, fld w 20 16] ∧ rest t))
    ∧ (q.waiting = true → q.kind = .ordinary ∨ q.kind = .unwind → q.pend = none → q.queue = none → thValid g (thFlt g q.trv) = false ∨ thFault g (thFlt g q.trv) = false →
        Does .pgTimeout s (fun t => t.seq = { faults { q with fltTrv := q.trv, fltStep := q.step, fltPg := fld w 20 16 } q.trv with
          sflt := q.sflt ||| (if q.kind = .unwind then 0x08 else 0x01), kind := .idle, cfg := applied } ∧ logs t 0x05 [q.trv, q.step, fld w 20 16] ∧ rest t))
    ∧ (q.waiting = true → q.kind = .ordinary → thValid g (thFlt g q.trv) = true → thFault g (thFlt g q.trv) = true → Does .pgTimeout s (fun t =>
        t.seq = faults { q with sflt := q.sflt ||| 0x01, fltTrv := q.trv, fltStep := q.step, fltPg := fld w 20 16 } (thFlt g q.trv)
        ∧ logs t 0x05 [q.trv, q.step, fld w 20 16] ∧ rest t))
    ∧ (q.waiting = true → q.kind = .fault → Does .pgTimeout s (fun t => t.seq = done { step := q.step } { q with
        sflt := q.sflt ||| 0x01, sis := q.sis ||| 0x08, fltTrv := q.trv, fltStep := q.step, fltPg := fld w 20 16 } ∧ logs t 0x05 [q.trv, q.step, fld w 20 16] ∧ rest t))
    ∧ (∀ n, spGet 0 q.watch m.val = n + 1 → q.kind = .idle ∨ q.kind = .ordinary → (pgin sp).testBit m.val = false → thValid g n = true → thFault g n = true →
        Does (.pgLost m pins) s (fun t => t.seq = faults { q with pg := pins, sflt := q.sflt ||| 0x02, fltPg := m.val } n ∧ logs t 0x06 [m.val, n] ∧ rest t))
    ∧ (∀ n x, spGet 0 q.watch m.val = n + 1 → q.kind = .idle ∨ q.kind = .ordinary → (pgin sp).testBit m.val = false → thValid g n = false ∨ thFault g n = false → q.queue = none →
        q.cfg.pnd = some x → Does (.pgLost m pins) s (fun t => t.seq.kind = .idle ∧ t.seq.cfg = { q.cfg with live := x, pnd := none } ∧ t.seq.watch = [] ∧ t.seq.sflt = q.sflt ||| 0x02
          ∧ t.seq.cur = q.cur ∧ rest t))
    ∧ (∀ pre u l, q.kind = .unwind → q.undo = pre ++ u :: l → (∀ y ∈ pre, skips y) →
        let op := uw u / 2 ^ 28
        let pops (x : Seq) : Seq := { x with pg := pins, undo := l, step := u.step, waiting := false }
        let lasts : Prop := (pgin sp).testBit (fld (uw u) 20 16) = (uw u).testBit 25
        (op = 1 ∨ op = 2 → Does (.unwindReverseStep pins) s (fun t => t = set (pops { q with psout := t.seq.psout })
          ∧ ∀ i, i < 32 → t.seq.psout.testBit i = if u.mask.testBit i then u.old.testBit i else q.psout.testBit i))
        ∧ (op = 3 → exec (.unwindReverseStep pins) s = .next (set (pops q)))
        ∧ (op = 4 → (uw u).testBit 26 = true → (¬ lasts → exec (.unwindReverseStep pins) s = .next (set (pops q)))
          ∧ (lasts → exec (.unwindReverseStep pins) s = .next (set { q with pg := pins, undo := u :: l, step := u.step, waiting := true })))
        ∧ (op = 5 → Does (.unwindReverseStep pins) s (fun t => t = set (pops { q with watch := t.seq.watch })
          ∧ ∀ i, spGet 0 t.seq.watch i = if i = u.pg then u.oldWatch else spGet 0 q.watch i)))
    ∧ (q.kind = .unwind → (∀ y ∈ q.undo, skips y) → exec (.unwindReverseStep pins) s = .next (set { q with pg := pins, undo := [], waiting := false }))
    ∧ (q.kind = .unwind → (∀ y ∈ q.undo, skips y) → q.waiting = false →
        let x : Seq := { q with kind := .idle, undo := [], pend := none, cfg := applied }
        (q.pend = none ∨ q.pend.map SeqReq.tgt = some q.cur → Does .unwindEnd s (fun t => t.seq = x ∧ rest t ∧ t.fbk = s.fbk))
        ∧ (∀ r, q.pend = some r → r.tgt ≠ q.cur →
          (q.en = false ∨ findTraverse (set x) q.cur r.tgt = none → Does .unwindEnd s (fun t => t.seq = refuses x ∧ logs t 0x07 [r.src, r.tgt, q.cur] ∧ rest t))
          ∧ (∀ n, q.en = true → findTraverse (set x) q.cur r.tgt = some n → Does .unwindEnd s (fun t => t.seq = starts x n ∧ logs t 0x01 [n, r.src, r.tgt] ∧ rest t))))
    ∧ (EngMay s e 0x1006 true → q.kind = .idle → seqCode (v.toNat % 16) = true → exec (.scurWrite e v) s = .next (set { q with cur := v.toNat % 16 }))
    ∧ (EngMay s e 0x1006 true → q.kind ≠ .idle ∨ seqCode (v.toNat % 16) = false → exec (.scurWrite e v) s = .next (set { q with cfg := { q.cfg with err := true } }))
    ∧ ((∀ k, k < 4 → EngMay s e (0x1010 + k) true) → ∃ y, exec (.psoutWrite e v4) s = .next (withIo y (set
        (if q.kind = .idle then { q with psout := v4.toNat } else { q with cfg := { q.cfg with err := true } }))))
    ∧ ((∀ k, k < 4 → EngMay s e (0x1062 + k) true) → ∃ y, exec (.sstdatAccess e (some v4)) s = .next (withIo y (set
        { q with cfg := { q.cfg with stg := spSet 0 q.cfg.stg (0x10000 + q.sstsel) v4.toNat, dirty := true }, sstsel := (q.sstsel + 1) % 512 })))
    ∧ (∀ n : Eng, (∀ k, k < 4 → EngMay s e (0x1062 + k) false ∧ EngMay s n (0x1062 + k) false) → ReadBoth (.sstdatAccess · none ·) e n
        (spGet 0 (if q.viewlive then q.cfg.live else q.cfg.stg) (0x10000 + q.sstsel) % 2 ^ 32) s (set { q with sstsel := (q.sstsel + 1) % 512 }))

/-- R229, R230, R232 to R234, R236: conversion rounds, analog readings, sensors and virtual sensors. Where it goes
beyond the rules it is the model's choice or reading: log entries 3, 10, 14, 36. -/
def Obligations.ThermalReadings : Prop :=
  ∀ (e : Eng) (src : Fin 9) (v1 v2 v3 : Nat) (die : Int) (uv : Vector Nat 16) (mm : Mst) (n : Fin 4) (v : Half) (s : State), domOn s 2 = true →
    let q := s.tha
    let d := s.thd
    let x := d.sens[src]
    let g := thaRound s
    let watch := s.dct.mode = .watch
    let logs (t : State) (typ : Nat) (pay : List Nat) : Prop := s.fbk.ring.length < 256 → s.fbk.drops = 0 → s.svy.svfsel = 0 →
      ∃ r : FbRec, t.fbk.ring = s.fbk.ring ++ [{ r := r, written := false }] ∧ r.src = 8 ∧ r.typ = typ ∧ r.p = pay
    let may : Prop := match mm with
      | .ce e => EngMay s e (0x1414 + 2 * n.val) true ∧ EngMay s e (0x1415 + 2 * n.val) true
      | .hp p priv => PortMay s p priv 0x1F true ∧ s.hp[p].sel.thermsel = 25 + n.val
    let bad : Prop := src.val < 8 ∧ (1000000000 < v1 ∨ v1 < 150000000)
    (EngMay s e 0x1404 true → exec (.thaEnable e) s = .next { s with tha := { q with en := true } })
    ∧ (q.en = true → q.cfg.pnd = none → Does .conversionRound s (fun t =>
        t = { s with tha := { q with rcfg := q.cfg.live, sensor := t.tha.sensor, rot := t.tha.rot, rcount := t.tha.rcount, tis := q.tis ||| 1, anOn := thaLive s (if watch then 0x46 else 0x42) } }
        ∧ (t.tha.rcount = if thaLive s (if watch then 0x46 else 0x42) = 0 then q.rcount + 1 else q.rcount)
        ∧ (∀ i, t.tha.sensor = some i → i ∈ rotation s ∧ t.tha.rot = i ∧ (∀ j ∈ rotation s, q.rot < j → q.rot < i ∧ i ≤ j)
            ∧ ((∀ j ∈ rotation s, j ≤ q.rot) → ∀ j ∈ rotation s, i ≤ j))
        ∧ (t.tha.sensor = none → rotation s = [] ∧ t.tha.rot = q.rot)))
    ∧ (q.en = false → exec .conversionRound s = .next s ∧ exec (.anResolve uv) s = .next s)
    ∧ (q.en = true → bitsOf 16 q.anOn ≠ [] → Does (.anResolve uv) s (fun t =>
        t.tha = { q with rcount := q.rcount + 1, anOn := 0 } ∧ t.thd = { d with an := t.thd.an, trips := t.thd.trips } ∧ t.chg = s.chg ∧ t.fbk = s.fbk ∧ ∀ m : Fin 16,
        let c := min 16383 (16384 * uv[m] / 1800000)
        let b := if anMode g m.val = 2 then 0x68 else 0x62
        (q.anOn.testBit m.val = false → t.thd.an[m] = d.an[m])
        ∧ (q.anOn.testBit m.val = true → fld (g (0x50 + m.val)) 5 3 = 0 →
            anRaw t.thd.an[m] = c ∧ t.thd.an[m].t = ntcTemp (g b) (g (b + 2)) (g (b + 4)) c
            ∧ (t.thd.an[m].valid = true ↔ (anMode g m.val = 1 ∨ anMode g m.val = 2) ∧ 256 ≤ c ∧ c ≤ 16128 ∧ -640 ≤ t.thd.an[m].t ∧ t.thd.an[m].t ≤ 2400))))
    ∧ (q.en = true → bitsOf 16 q.anOn = [] → exec (.anResolve uv) s = .next s)
    ∧ (q.en = true → q.sensor = some src.val → Does (.sensorReading src v1 v2 v3 die) s (fun t =>
        t = { s with tha := { q with sensor := none }, thd := { d with sens := t.thd.sens, trips := t.thd.trips } }
        ∧ (∀ k : Fin 9, k ≠ src → t.thd.sens[k] = d.sens[k])
        ∧ (bad → t.thd.sens[src] = { x with faults := x.faults + 1, verdict := if 1000000000 < v1 then 1 else 2 })
        ∧ (¬ bad → t.thd.sens[src] = { t := t.thd.sens[src].t, valid := true } ∧ (src.val = 8 → t.thd.sens[src].t = die)
            ∧ (src.val ≠ 8 → t.thd.sens[src].t = diodeTemp v1 v2 v3 (toSigned 8 (g (0x70 + 2 * src.val))) (toSigned 8 (g (0x71 + 2 * src.val)))))))
    ∧ (2 ≤ x.faults → x.fault = false → Does (.sensorFault src) s (fun t => t.thd = { d with sens := d.sens.set src { x with valid := false, fault := true } }
        ∧ t.tha = { q with tflt := q.tflt ||| 2, tis := q.tis ||| 8 } ∧ logs t 0x03 [src.val, x.verdict]))
    ∧ (may → Does (.vtWrite mm n v) s (fun t => t.tha = q ∧ t.thd = { d with vt := t.thd.vt, trips := t.thd.trips } ∧ t.fbk = s.fbk
        ∧ (∀ k : Fin 4, k ≠ n → t.thd.vt[k] = d.vt[k])
        ∧ (v = 0x8000 → t.thd.vt[n] = {} ∧ t.thd.trips = d.trips)
        ∧ (v ≠ 0x8000 → t.thd.vt[n] = { t := v.toNat, valid := true })))
    ∧ (thaLive s 0x4C ≠ 0 → d.vt[n].valid = true → Does (.vtStale n) s (fun t => t.thd = { d with vt := d.vt.set n { d.vt[n] with valid := false, stale := true }, trips := t.thd.trips }
        ∧ t.tha = { q with tflt := q.tflt ||| 8, tis := q.tis ||| 0x20 } ∧ logs t 0x05 [n.val]))

/-- R239 to R247, R250, R252: trip entries, fans and the fan registers. Where it goes beyond the rules it is the
model's choice or reading: log entries 2, 10, 14, 36. -/
def Obligations.TripsAndFans : Prop :=
  ∀ (k : Fin 8) (n : Fin 4) (e : Eng) (mask : Byte) (x : Int) (ins : Vector Int 4) (ck t0 : Nat) (p : Port) (priv : Bool) (v : Half) (s : State), domOn s 2 = true →
    let q := s.tha
    let d := s.thd
    let g := thaLive s
    let f := d.fans[n]
    let h := s.hp[p]
    let b := 16 * n.val
    let logs (t : State) (typ : Nat) (pay : List Nat) : Prop := s.fbk.ring.length < 256 → s.fbk.drops = 0 → s.svy.svfsel = 0 →
      ∃ r : FbRec, t.fbk.ring = s.fbk.ring ++ [{ r := r, written := false }] ∧ r.src = 8 ∧ r.typ = typ ∧ r.p = pay
    let fan (x : Fan) : State := { s with thd := { d with fans := d.fans.set n x } }
    let lines (t : State) : Prop := (t.tha.chgTrip = true ↔ ∃ j, j < 8 ∧ t.tha.tract.testBit j = true ∧ (g (0x81 + 6 * j)).testBit 0 = true)
      ∧ (t.tha.fanTrip = true ↔ ∃ j, j < 8 ∧ t.tha.tract.testBit j = true ∧ (g (0x81 + 6 * j)).testBit 1 = true)
    let acts (j : Fin 8) (hys : Nat) (y : Int) : Prop :=
      let th : Int := fld (g (0x82 + 6 * j.val)) 9 0
      let die : Bool := fld (g (0x80 + 6 * j.val)) 4 0 = 8
      if (g (0x80 + 6 * j.val)).testBit 6 then (if die then y < 16 * (th + hys) else 1024 * y < 1800000 * (th + hys))
      else (if die then 16 * (th - hys) < y else 1800000 * (th - hys) < 1024 * y)
    let clears (j : Fin 8) (y : Int) : Prop := if tripAna s j then ¬ acts j (g (0x84 + 6 * j.val)) y else tripTrn s j ≤ d.trips[j].rels
    let seen : Tha := if 4 ≤ k.val then { q with anaIn := q.anaIn.set (anaCmp k) x } else q
    let meets : Prop := if tripAna s k then 4 ≤ k.val ∧ acts k 0 x else tripTrn s k ≤ d.trips[k].acts
    let putsPort (x : ThaDat) : State := { putPort p { h with driven := false, rdyLow := false, wbuf := 0 } s with thd := x }
    (tripEn s k = true → q.tract.testBit k.val = false → meets → Does (.trip k x) s (fun t =>
        t.tha.tract = q.tract ||| 2 ^ k.val ∧ t.tha.tflt = q.tflt ||| 1 ∧ t.tha.tis = q.tis ||| 2 ∧ lines t ∧ t.thd.sens = d.sens ∧ t.thd.an = d.an
        ∧ (q.chgTrip = false → t.tha.chgTrip = true → domOn s 1 = true → t.chg.gates = 0 ∧ t.chg.mode = 0 ∧ t.chg.rb = 0)
        ∧ (t.tha.chgTrip = false ∨ q.chgTrip = true → t.chg = s.chg ∧ t.chp = s.chp ∧ ∀ m : Port, t.hp[m].sel.hints.getLsbD 9 = s.hp[m].sel.hints.getLsbD 9)
        ∧ (∀ m : Fin 4, t.thd.fans[m] = if t.tha.fanTrip = true ∧ fanTripDrv s m.val = true ∧ fanEn s m.val = true then { d.fans[m] with pwm := 255 } else d.fans[m])
        ∧ (t.tha.chgTrip = false ∨ q.chgTrip = true ∨ s.chg.rb = 0 → logs t 0x01 [k.val, if tripAna s k then g (0x82 + 6 * k.val) else ofSigned 16 d.trips[k].last, fld (g (0x81 + 6 * k.val)) 1 0])))
    ∧ (tripAna s k = true → 4 ≤ k.val → ¬ acts k 0 x → exec (.trip k x) s = .next { s with tha := seen })
    ∧ (q.tract.testBit k.val = true → (g (0x80 + 6 * k.val)).testBit 5 = false → (tripAna s k = true → 4 ≤ k.val) → clears k x → Does (.tripClear k x) s (fun t =>
        (∀ j, j < 8 → t.tha.tract.testBit j = (q.tract.testBit j && j != k.val)) ∧ t.tha.tis = q.tis ||| 4 ∧ t.tha.tflt = q.tflt ∧ lines t ∧ t.thd.fans = d.fans ∧ t.chg = s.chg
        ∧ logs t 0x02 [k.val]))
    ∧ (EngMay s e 0x1409 true → Does (.tractClear e mask ins) s (fun t => t.thd.fans = d.fans ∧ t.chg = s.chg ∧ t.tha.tflt = q.tflt
        ∧ ∀ j : Fin 8, (t.tha.tract.testBit j.val = true ↔ q.tract.testBit j.val = true ∧ ¬ (mask.getLsbD j.val = true ∧ clears j ins[anaCmp j]))))
    ∧ (fanEn s n.val = true →
        let temps := (upTo 4).filterMap (fun i => srcTemp s (fld (g (0xB1 + b + i)) 4 0))
        (temps = [] → exec (.fanCurveUpdate n) s = .next (fan { f with noSrc := true }))
        ∧ (∀ tin, tin ∈ temps → (∀ y ∈ temps, y ≤ tin) → Does (.fanCurveUpdate n) s (fun t =>
            let u := t.thd.fans[n]
            let hys : Int := 4 * (g (0xB5 + b) : Int)
            let te : Int := match f.teff with | none => tin | some y => if y < tin then tin else if tin + hys < y then tin + hys else y
            let tg : Int := curveTarget s n.val te * (256 + toSigned 8 d.fmptrim[n]) / 256
            let i2 : Int := if d.foven.testBit n.val then f.i else clampI (256 * (g (0xB6 + b) : Int)) 65535 (f.i + (g (0xB9 + b) : Int) * (tg - f.speed))
            t = fan u ∧ u = { f with teff := some te, noSrc := false, target := (if fanClosed s n.val = true then tg else min 255 tg).toNat, loop := u.loop, i := u.i } ∧ (tg ≤ 0 → u.loop = 0)
            ∧ (fanClosed s n.val = false → 0 < tg → u.loop = (max (g (0xB6 + b) : Int) (min 255 tg)).toNat ∧ u.i = f.i)
            ∧ (fanClosed s n.val = true → 0 < tg → u.i = i2.toNat ∧ u.loop = (clampI (g (0xB6 + b)) 255 (i2 / 256 + (g (0xB8 + b) : Int) * (tg - f.speed) / 256)).toNat))))
    ∧ (s.gpio.viom = true → 0 < ck → exec (.tachEdge n ck true) s = .next s
        ∧ let sp := reg16 (openRound ((60 * (if s.clk.ckPll = true then 240000000 else 24000000) : Rat) / ((ck * (fld (g (0xB0 + b)) 3 2 + 1) : Nat) : Rat)))
          exec (.tachEdge n ck false) s = .next (fan (if sp = 0 then { f with speed := 0 } else { f with speed := sp, stall := false, kicks := 0 })))
    ∧ exec (.fanSpeedZero n) s = .next (fan { f with speed := 0 })
    ∧ (fanEn s n.val = true → f.speed = 0 → f.kick = false → g (0xBC + b) ≤ f.pwm → Does (.fanStall n) s (fun t =>
        t.thd = { d with fans := d.fans.set n { f with stall := true, kick := decide (f.kicks < 3), kicks := if f.kicks < 3 then f.kicks + 1 else f.kicks } }
        ∧ t.tha = { q with tflt := q.tflt ||| 4, tis := q.tis ||| 0x10 } ∧ logs t 0x04 [n.val, f.kicks]))
    ∧ (padsOn s = true → s.gpio.viom = true → fanPin s n t0 = if fanEn s n.val = true ∧ (decide (t0 < (2 * f.pwm * (if s.clk.ckPll = true then 9600 else 960) + 255) / 510) ≠ !(g (0xB0 + b)).testBit 4)
        then .low else .hiZ)
    ∧ exec (.fanKickEnd n) s = .next (fan { f with kick := false })
    ∧ exec (.fanPwmPeriod n) s = .next (fan { f with pwm := (if fanEn s n.val = false then 0
        else if q.fanTrip = true ∧ fanTripDrv s n.val = true then 255 else if f.kick then 255
        else if d.foven.testBit n.val then d.fovr[n] else if f.noSrc then g (0xB7 + b) else f.loop) })
    ∧ (PortMay s p priv 0x21 true → h.sel.fansel % 4 = n.val → fld h.sel.fansel 5 3 = 4 →
        (v.toNat < 0x100 → exec (.fanvalWrite p priv v) s = .next (putsPort { d with fovr := d.fovr.set n v.toNat, foven := setBit d.foven n.val true }))
        ∧ (v = 0xFFFF → exec (.fanvalWrite p priv v) s = .next (putsPort { d with foven := setBit d.foven n.val false }))
        ∧ (0x100 ≤ v.toNat → v ≠ 0xFFFF → exec (.fanvalWrite p priv v) s = .next (portErr p 6 0x21 true (putsPort d))))
    ∧ (PortMay s p priv 0x21 true → fld h.sel.fansel 5 3 ≠ 4 → exec (.fanvalWrite p priv v) s = .next (portErr p 6 0x21 true (putsPort d)))
    ∧ (EngMay s e 0x14F2 true → EngMay s e 0x14F3 true → ∃ y, exec (.fanCurveAccess e (some v)) s = .next (withIo y { s with tha := { q with cfg := { q.cfg with stg := spSet 0 q.cfg.stg (0x20000 + q.fcsel) v.toNat, dirty := true }, fcsel := (q.fcsel + 1) % 32 } }))
    ∧ (∀ m : Eng, EngMay s e 0x14F2 false → EngMay s e 0x14F3 false → EngMay s m 0x14F2 false → EngMay s m 0x14F3 false → ReadBoth (.fanCurveAccess · none ·) e m
        (spGet 0 (if q.viewlive then q.cfg.live else q.cfg.stg) (0x20000 + q.fcsel) % 65536) s { s with tha := { q with fcsel := (q.fcsel + 1) % 32 } })

/-- R256 to R259: the commands of the SMBus controllers, how transactions end, Host Notify and the data buffer. Where
it goes beyond the rules it is the model's choice or reading: log entries 2, 3, 13, 37. -/
def Obligations.SmbusControllers : Prop :=
  ∀ (e : Eng) (c : Fin 4) (ackA ackB : Bool) (acked : Nat) (a b x : Byte) (rx : List Byte) (dat : Half) (start : Bool) (s : State), domOn s (smbDom c) = true →
    let q := s.smb[c]
    let o := 0x40 * c.val
    let put (y : Smb) : State := putSmb c y s
    let ends (code bcnt : Nat) (y : Smb) : State := put { y with busy := false, res := q.prot * 16 + code, smis := q.smis ||| 1, bcnt := bcnt, busflt := code == 7 }
    let live : Prop := s.gpio.viom = true ∧ q.lost = false
    let go (i : Instr) (prot : Nat) : Prop := EngMay s e (0x2402 + o) true →
      (q.busy = false → (prot = 9 ∨ prot = 0xB → q.len ≠ 0) → exec i s = .next (put { q with busy := true, prot := prot, lost := !s.gpio.viom }))
      ∧ (q.busy = true ∨ (prot = 9 ∨ prot = 0xB) ∧ q.len = 0 → exec i s = .next (put { q with err := true }))
    let done (rx : List Byte) (t : State) : Prop := exec (.smbTransactionEnd c ackA ackB acked rx false) s = .next t
    let tx := (smbTx q).length
    let aw := q.addr / 2 * 2
    let rb (i : Nat) : Nat := match rx[i]? with | some y => y.toNat | none => 0xFF
    let reads (w : List Byte) (t : State) : Prop := exec (.smbTransactionEnd c ackA ackB acked w false) s = .next t
    let head := (if q.prot = 3 then [] else aw :: smbTx q) ++ [aw + 1]
    let two (y : Smb) : Smb := { y with buf := spSet 0 (spSet 0 y.buf 0 a.toNat) 1 b.toNat }
    (go (.quickCommand e c) 1 ∧ go (.sendByte e c) 2 ∧ go (.receiveByte e c) 3 ∧ go (.writeByte e c) 4 ∧ go (.writeWord e c) 5
      ∧ go (.readByte e c) 6 ∧ go (.readWord e c) 7 ∧ go (.processCall e c) 8 ∧ go (.blockWrite e c) 9 ∧ go (.blockRead e c) 0xA
      ∧ go (.blockWriteBlockReadProcessCall e c) 0xB ∧ go (.write32 e c) 0xC ∧ go (.read32 e c) 0xD ∧ go (.write64 e c) 0xE ∧ go (.read64 e c) 0xF)
    ∧ (q.busy = true →
      exec (.smbTransactionEnd c ackA ackB acked [] true) s = .next (ends 7 (min 255 (min acked tx - smbHead q.prot)) q)
      ∧ (¬ live → ∀ w st, exec (.smbTransactionEnd c ackA ackB acked w st) s = .next (ends 7 (min 255 (min acked tx - smbHead q.prot)) q))
      ∧ (live →
        (ackA = false → done [] (ends 1 0 q))
        ∧ (ackA = true → q.prot ∈ [1, 2, 4, 5, 9, 0xC, 0xE] →
            let n := tx + (if q.pec = true ∧ q.prot ≠ 1 then 1 else 0)
            (n ≤ acked → done [] (ends 0 (min 255 (tx - smbHead q.prot)) q)) ∧ (acked < n → done [] (ends 2 (min 255 (min acked tx - smbHead q.prot)) q)))
        ∧ (ackA = true → ackB = true → q.prot = 7 → 1 ≤ acked →
            (q.pec = false → done [a, b] (ends 0 2 (two q)))
            ∧ (q.pec = true → done [a, b, x] (ends (if smbPec [aw, q.code, aw + 1, a.toNat, b.toNat] = x.toNat then 0 else 4) 2 (two q))))
        ∧ (ackA = true → (smbRx q.prot).isSome = true → acked < tx → reads rx (ends 2 (min 255 (acked - smbHead q.prot)) q))
        ∧ (ackA = true → (smbRx q.prot).isSome = true → q.prot ≠ 3 → tx ≤ acked → ackB = false → reads rx (ends 1 (min 255 (tx - smbHead q.prot)) q))
        ∧ (∀ k, ackA = true → ackB = true ∨ q.prot = 3 → smbRx q.prot = some (some k) → tx ≤ acked →
            reads rx (ends (if q.pec = true ∧ smbPec (head ++ (upTo k).map rb) ≠ rb k then 4 else 0) (min 255 ((if q.prot = 8 then tx - smbHead q.prot else 0) + k))
              { q with buf := smbFill ((upTo k).map rb) q.buf }))
        ∧ (ackA = true → ackB = true → q.prot = 0xA ∨ q.prot = 0xB → tx ≤ acked →
            (rb 0 = 0 → reads rx (ends 8 (min 255 (tx - smbHead q.prot)) { q with len := 0 }))
            ∧ (rb 0 ≠ 0 → let dat := (upTo (rb 0)).map (fun i => rb (1 + i))
              reads rx (ends (if q.pec = true ∧ smbPec (head ++ [rb 0] ++ dat) ≠ rb (1 + rb 0) then 4 else 0)
                (min 255 ((if q.prot = 0xB then tx - smbHead q.prot else 0) + rb 0)) { q with buf := smbFill dat q.buf, len := rb 0 })))))
    ∧ (q.pec = true → q.prot ∈ [2, 4, 5, 9, 0xC, 0xE] → smbSent q = aw :: smbTx q ++ [smbPec (aw :: smbTx q)])
    ∧ (q.prot = 1 → smbSent q = [q.addr])
    ∧ (q.busy = true → exec (.arbLost c a) s = .next (ends (if s.gpio.viom = true ∧ q.lost = false then 3 else 7) a.toNat q)
        ∧ exec (.smbTimeout c a) s = .next (ends (if s.gpio.viom = true ∧ q.lost = false then 5 else 7) a.toNat q))
    ∧ (q.busy = false → exec (.arbLost c a) s = .next s ∧ exec (.smbTimeout c a) s = .next s ∧ done [] s)
    ∧ (EngMay s e (0x240E + o) true → (q.busy = true → ∃ n, n < 256 ∧ exec (.smabort e c) s = .next { ends (if s.gpio.viom = true ∧ q.lost = false then 6 else 7) n q with free := s.free + 1 })
        ∧ (q.busy = false → exec (.smabort e c) s = .next s))
    ∧ (exec (.hostNotify c a dat) s = .next (if s.gpio.viom = true ∧ q.en = true ∧ q.hnen = true ∧ (q.busy = false ∨ q.busbusy = true) ∧ q.smis.testBit 1 = false
        then put { q with hnadr := a.toNat / 2 * 2, hndat := dat.toNat, smis := q.smis ||| 2 } else s))
    ∧ (EngMay s e (0x2407 + o) true → exec (.smdatAccess e c (some a)) s = .next (put
        (if q.busy then { q with err := true } else { q with buf := spSet 0 q.buf q.ptr a.toNat, ptr := (q.ptr + 1) % 256 })))
    ∧ (∀ n : Eng, EngMay s e (0x2407 + o) false → EngMay s n (0x2407 + o) false → ReadBoth (.smdatAccess · c none ·) e n (spGet 0 q.buf q.ptr % 256) s
        (put { q with ptr := (q.ptr + 1) % 256 }))
    ∧ exec (.smbBusBusy c start) s = .next (if s.gpio.viom = true then put { q with busbusy := start } else s)

/-- How the model serves commands (DESIGN CHOICE, log entry 1): step takes the command at the front of the queue and
runs it on the rest; on an empty queue one CK passes. R343, R347, R447 (values): what the engines, the ports' write buffers and the
crystal count in it; that what stops an engine with no CK after a trigger falls on its edge is log entry 2. -/
def Obligations.StepRunsFront : Prop :=
  (∀ (c : Instr) (l : List Instr) (s : State), s.pending = c :: l → step s = exec c { s with pending := l })
  ∧ (∀ (s : State), s.pending = [] → step s = .next (ckTick s))
  ∧ (∀ (s : State),
    let clk : Clk := if s.clk.ckPll = true ∧ s.clk.sub ≠ 9 then { s.clk with sub := s.clk.sub + 1 } else { s.clk with sub := 0, time := s.clk.time + 1 }
    (ckRuns s = true → (∀ e : Eng, s.eng[e].badKick = false) →
      ckTick s = { s with eng := (ckTick s).eng, hp := s.hp.map bufTick, clk := clk, svy := { s.svy with fresh := false } }
      ∧ ∀ e : Eng,
        let q := s.eng[e]
        let u := (ckTick s).eng[e]
        (domOn s (engDom e.val) = false → u = q)
        ∧ (domOn s (engDom e.val) = true → u = { q with
            cyc := q.cyc + 1, tmr := u.tmr, wd := if q.wd.en = true ∧ (s.clk.ckPll = false ∨ s.clk.sub = 9) then { q.wd with left := q.wd.left - 1 } else q.wd }
          ∧ ∀ n : Fin 2, let x := q.tmr[n]
            let per := [1, 16, 256].getD x.pre 4096
            u.tmr[n] = if x.en = false then x else if x.sub + 1 < per then { x with sub := x.sub + 1 } else { x with sub := 0, cnt := x.cnt - 1 }))
    ∧ (ckRuns s = false → ckTick s = if s.rst.active = 0 ∧ s.rst.step = 1 then { s with clk := clk } else s))

/-- No command is refused or faults, and a command's effect leaves the queue alone: what waits is served in order, one
command a step (DESIGN CHOICE, log entry 1). -/
def Obligations.CommandsServedInOrder : Prop :=
  (∀ (c : Instr) (s : State), ∃ t, exec c s = .next t ∧ t.pending = s.pending)
  ∧ (∀ (s t : State), step s = .next t → t.pending = s.pending.tail)

/-- R403, R404: after the power-on reset and its reset sequence. Where it goes beyond the rules it is the model's
choice or reading: log entry 16. -/
def Obligations.ResetState : Prop :=
  let s := State.reset
  s.MemWf ∧ s.pending = [] ∧ s.dct.mode = .run ∧ s.dct.phase = .idle ∧ s.dct.on = 0xFF ∧ s.rst.active = 0 ∧ s.rst.bootPhase = true ∧ s.rst.sealed = false
  ∧ s.clk.ckPll = true ∧ s.clk.lock = true ∧ s.clk.fallback = false ∧ s.eng[0].run = .running ∧ s.eng[0].rom = true ∧ s.eng[0].pc = 0 ∧ s.eng[0].role = 0
  ∧ (∀ e : Eng, e ≠ 0 → s.eng[e].run = .held) ∧ s.shm = [] ∧ (∀ l, l < 32 → lockOwner s l = none) ∧ (∀ c, c < 1024 → (spGet {} s.mbx.chans c).full = false)
  ∧ s.ksc.scanen = false ∧ s.ksc.plane.conf = 0 ∧ s.chg.en = false ∧ s.chg.gates = 0 ∧ s.seq.cur = 5 ∧ s.seq.kind = .idle ∧ s.seq.psout = 0
  ∧ s.tha.en = false ∧ s.tha.tract = 0 ∧ (∀ c : Fin 4, s.smb[c].en = false ∧ s.smb[c].busy = false) ∧ s.svy.held = false ∧ s.svy.join = none ∧ s.cpy.run = none

/-- R318, R379, R416, R461: every step keeps SHM, the local data memories and the flash in canonical form, the model's own
way to hold them (log entry 17), and leaves the note with which one command joins another on one edge (log entry 2) clear. -/
def Obligations.StepKeepsMemWf : Prop :=
  ∀ s t : State, step s = .next t → (s.MemWf → t.MemWf) ∧ (s.svy.join = none → t.svy.join = none)

/-- R350 to R352, R374: the decoder of the engines' words and their encodings say the same, both ways. -/
def Obligations.CerxaDecodeExact : Prop :=
  ∀ (w : IWord) (c : Cx), Cx.decode w = some c ↔ c.encode = w
end

