-- ==== Sys2Proof/Laws/Memory.lean ====
section
/-! SUPPORT. The sparse maps and the memories: what a read gives after a write, and that every memory operation keeps
the canonical form. -/

namespace Sys2Proof.Machine

theorem spWfFrom_mono {α : Type} [DecidableEq α] {d : Nat → α} {m : Sparse α} {lo lo' : Nat} (h : lo' ≤ lo)
    (hm : spWfFrom d lo m = true) : spWfFrom d lo' m = true := by
  cases m with
  | nil => rfl
  | cons x t =>
    simp only [spWfFrom, Bool.and_eq_true, decide_eq_true_eq] at hm ⊢
    exact ⟨⟨le_trans h hm.1.1, hm.1.2⟩, hm.2⟩

/-- Below the bound of a canonical map nothing is listed. -/
theorem spGet_below {α : Type} [DecidableEq α] {d : Nat → α} {m : Sparse α} {lo k : Nat} (hm : spWfFrom d lo m = true)
    (h : k < lo) (x : α) : spGet x m k = x := by
  induction m generalizing lo with
  | nil => rfl
  | cons e t ih =>
    simp only [spWfFrom, Bool.and_eq_true, decide_eq_true_eq] at hm
    have hk : e.1 ≠ k := by omega
    simp only [spGet, hk, if_false]
    exact ih hm.2 (by omega)

theorem spErase_wfFrom {α : Type} [DecidableEq α] {d : Nat → α} {m : Sparse α} {lo : Nat} (k : Nat)
    (hm : spWfFrom d lo m = true) : spWfFrom d lo (spErase m k) = true := by
  induction m generalizing lo with
  | nil => rfl
  | cons e t ih =>
    simp only [spWfFrom, Bool.and_eq_true, decide_eq_true_eq] at hm
    simp only [spErase]
    split
    · exact spWfFrom_mono (by omega) (ih hm.2)
    · simp only [spWfFrom, Bool.and_eq_true, decide_eq_true_eq]
      exact ⟨hm.1, ih hm.2⟩

theorem spInsert_wfFrom {α : Type} [DecidableEq α] {d : Nat → α} {m : Sparse α} {lo k : Nat} {x : α} (hk : lo ≤ k)
    (hx : x ≠ d k) (hm : spWfFrom d lo m = true) : spWfFrom d lo (spInsert m k x) = true := by
  induction m generalizing lo with
  | nil => simp [spInsert, spWfFrom, hk, hx]
  | cons e t ih =>
    simp only [spWfFrom, Bool.and_eq_true, decide_eq_true_eq] at hm
    simp only [spInsert]
    split
    · simp only [spWfFrom, Bool.and_eq_true, decide_eq_true_eq]
      exact ⟨⟨hk, hx⟩, ⟨by omega, hm.1.2⟩, hm.2⟩
    · split
      · next h => subst h; simp only [spWfFrom, Bool.and_eq_true, decide_eq_true_eq]; exact ⟨⟨hk, hx⟩, hm.2⟩
      · simp only [spWfFrom, Bool.and_eq_true, decide_eq_true_eq]
        exact ⟨hm.1, ih (by omega) hm.2⟩

theorem spSet_wfFrom {α : Type} [DecidableEq α] {d : Nat → α} {m : Sparse α} {lo k : Nat} (x : α) (hk : lo ≤ k)
    (hm : spWfFrom d lo m = true) : spWfFrom d lo (spSet (d k) m k x) = true := by
  unfold spSet
  split
  · exact spErase_wfFrom k hm
  · next h => exact spInsert_wfFrom hk h hm

/-- A write keeps the canonical form. -/
theorem spSet_wf {α : Type} [DecidableEq α] {d : Nat → α} {m : Sparse α} (k : Nat) (x : α) (hm : spWf d m = true) :
    spWf d (spSet (d k) m k x) = true := spSet_wfFrom x (Nat.zero_le k) hm

/-- A write of a memory byte keeps the canonical form. -/
theorem memory_spSet_wf {d : BitVec 8} {m : List Host.Cell} (k : Nat) (x : BitVec 8) (hm : Memory.wf d m = true) :
    Memory.wf d (spSet d m k x) = true := spSet_wf (d := fun _ => d) k x hm

theorem spGet_spInsert {α : Type} (d : α) (m : Sparse α) (k j : Nat) (x : α) :
    spGet d (spInsert m k x) j = if k = j then x else spGet d m j := by
  induction m with
  | nil => simp [spInsert, spGet]
  | cons e t ih =>
    simp only [spInsert]
    split
    · simp only [spGet]
    · split
      · next h => subst h; simp only [spGet]; split <;> rfl
      · next h1 h2 =>
        simp only [spGet, ih]
        by_cases hj : e.1 = j
        · have : ¬ k = j := by omega
          simp [hj, this]
        · simp [hj]

theorem spGet_spErase {α : Type} (x : α) (m : Sparse α) (k j : Nat) :
    spGet x (spErase m k) j = if k = j then x else spGet x m j := by
  induction m with
  | nil => simp [spErase, spGet]
  | cons e t ih =>
    simp only [spErase, spGet]
    split
    · next h => subst h; rw [ih]; split <;> rfl
    · next h =>
      simp only [spGet, ih]
      by_cases hj : e.1 = j
      · have : ¬ k = j := by omega
        simp [hj, this]
      · simp [hj]

/-- Read after write, in any map. -/
theorem spGet_spSet {α : Type} [DecidableEq α] (d : Nat → α) (m : Sparse α) (k j : Nat) (x : α) :
    spGet (d j) (spSet (d k) m k x) j = if k = j then x else spGet (d j) m j := by
  unfold spSet
  split
  · next h =>
    rw [spGet_spErase]
    split
    · next hj => subst hj; exact h.symm
    · rfl
  · exact spGet_spInsert _ _ _ _ _

/-- Read after write of a memory byte. -/
theorem memory_get_set (d : BitVec 8) (m : List Host.Cell) (k j : Nat) (x : BitVec 8) :
    spGet d (spSet d m k x) j = if k = j then x else spGet d m j := spGet_spSet (fun _ => d) m k j x

/-- A filter by key. -/
theorem spGet_filter {α : Type} (d : α) (m : Sparse α) (f : Nat → Bool) (k : Nat) :
    spGet d (m.filter (fun e => f e.1)) k = if f k then spGet d m k else d := by
  induction m with
  | nil => simp [spGet]
  | cons e t ih =>
    by_cases he : f e.1
    · simp only [List.filter, he, spGet, ih]
      by_cases hk : e.1 = k
      · simp [← hk, he]
      · simp [hk]
    · simp only [List.filter, he, spGet, ih]
      by_cases hk : e.1 = k
      · simp [← hk, he]
      · simp [hk]

/-- Two maps one after the other: the first that lists the key. -/
theorem spGet_append {α : Type} (d : α) (a b : Sparse α) (k : Nat) :
    spGet d (a ++ b) k = spGet (spGet d b k) a k := by
  induction a with
  | nil => rfl
  | cons e t ih => simp only [List.cons_append, spGet, ih]

/-- The map in key order says the same as the list it is made of. -/
theorem spGet_sorted {α : Type} (d : α) (m : Sparse α) (k : Nat) :
    spGet d (m.foldr (fun e m => spInsert m e.1 e.2) []) k = spGet d m k := by
  induction m with
  | nil => rfl
  | cons e t ih => simp only [List.foldr, spGet_spInsert, ih, spGet]

/-- The empty memory is canonical. -/
theorem memory_nil_wf (d : BitVec 8) : Memory.wf d [] = true := rfl

/-- Keeping some entries keeps the canonical form. -/
theorem spWfFrom_filter {α : Type} [DecidableEq α] {d : Nat → α} {m : Sparse α} {lo : Nat} (f : Nat × α → Bool)
    (hm : spWfFrom d lo m = true) : spWfFrom d lo (m.filter f) = true := by
  induction m generalizing lo with
  | nil => rfl
  | cons e t ih =>
    simp only [spWfFrom, Bool.and_eq_true, decide_eq_true_eq] at hm
    simp only [List.filter]
    split
    · simp only [spWfFrom, Bool.and_eq_true, decide_eq_true_eq]; exact ⟨hm.1, ih hm.2⟩
    · exact spWfFrom_mono (by omega) (ih hm.2)

/-- A fold whose steps keep a memory canonical. -/
theorem memory_foldl_wf {β : Type} {d : BitVec 8} (f : List Host.Cell → β → List Host.Cell)
    (hf : ∀ m b, Memory.wf d m = true → Memory.wf d (f m b) = true) (l : List β) :
    ∀ m, Memory.wf d m = true → Memory.wf d (l.foldl f m) = true := by
  induction l with
  | nil => exact fun _ h => h
  | cons b t ih => exact fun m h => ih _ (hf m b h)

end Sys2Proof.Machine
end

