-- ==== Sys2Proof/Laws/Frame.lean ====
section
/-! SUPPORT. What no operation of the block does: no operation touches the queue, and every operation keeps the memories
in their canonical form and leaves no join open that was not open before. Keeps s t says so of one change of state. -/

namespace Sys2Proof.Machine

/-- From s to t the queue is unchanged, canonical memories stay canonical, and no join with a snapshot comes open. -/
structure Keeps (s t : State) : Prop where
  queue : t.pending = s.pending
  mem : s.MemWf → t.MemWf
  join : s.svy.join = none → t.svy.join = none

theorem Keeps.refl (s : State) : Keeps s s := ⟨rfl, id, id⟩

theorem Keeps.trans {r s t : State} (h : Keeps r s) (k : Keeps s t) : Keeps r t := ⟨k.queue.trans h.queue, k.mem ∘ h.mem, k.join ∘ h.join⟩

/-- A record update of fields other than the queue and the memories. -/
theorem Keeps.upd {r t : State} {ksc : Ksc} {lgt : Lgt} {lgb : LgtBank} {chg : Chg} {chp : ChgPort} {cht : ChgTel} {chs : ChgSel} {seq : Seq}
    {tha : Tha} {thd : ThaDat} {smb : Vector Smb 4} {hp : Vector HPort 2} {hsh : HShare} {mbx : Mbx} {lck : Lck}
    {eng : Vector Ceng 6} {cpy : Cpy} {clk : Clk} {rst : Rst} {prt : Prt} {dct : Dct} {fbk : Fbk} {svy : Svy} {bmk :
    Bmk} {gpio : Gpio} {rtc : Rtc} {tap : Tap} {trst : Bool} {io : IoBuf} {free : Nat}
    (h : Keeps r t) (hj : t.svy.join = none → svy.join = none := by first | exact id | exact fun _ => rfl) :
    Keeps r (State.mk t.pending ksc lgt lgb chg chp cht chs seq tha thd smb hp hsh mbx lck eng t.emem t.shm cpy clk rst prt t.fls dct
    fbk svy bmk gpio rtc tap trst io free) :=
  ⟨h.queue, h.mem, hj ∘ h.join⟩

theorem Keeps.upd_iff {r t : State} {ksc : Ksc} {lgt : Lgt} {lgb : LgtBank} {chg : Chg} {chp : ChgPort} {cht : ChgTel} {chs : ChgSel} {seq : Seq}
    {tha : Tha} {thd : ThaDat} {smb : Vector Smb 4} {hp : Vector HPort 2} {hsh : HShare} {mbx : Mbx} {lck : Lck}
    {eng : Vector Ceng 6} {cpy : Cpy} {clk : Clk} {rst : Rst} {prt : Prt} {dct : Dct} {fbk : Fbk} {svy : Svy} {bmk :
    Bmk} {gpio : Gpio} {rtc : Rtc} {tap : Tap} {trst : Bool} {io : IoBuf} {free : Nat}
    (hj : svy.join = t.svy.join) : Keeps r (State.mk t.pending ksc lgt lgb chg chp cht chs seq tha thd smb hp hsh mbx lck eng t.emem t.shm cpy clk rst prt t.fls dct
    fbk svy bmk gpio rtc tap trst io free) ↔ Keeps r t :=
  ⟨fun h => ⟨h.queue, h.mem, fun e => hj ▸ h.join e⟩, fun h => Keeps.upd h (fun e => hj.trans e)⟩

/-- A record update that also writes the flash controller's registers. -/
theorem Keeps.updFls {r t : State} {q : Fls} {ksc : Ksc} {lgt : Lgt} {lgb : LgtBank} {chg : Chg} {chp : ChgPort} {cht : ChgTel} {chs : ChgSel} {seq : Seq}
    {tha : Tha} {thd : ThaDat} {smb : Vector Smb 4} {hp : Vector HPort 2} {hsh : HShare} {mbx : Mbx} {lck : Lck}
    {eng : Vector Ceng 6} {cpy : Cpy} {clk : Clk} {rst : Rst} {prt : Prt} {dct : Dct} {fbk : Fbk} {svy : Svy} {bmk :
    Bmk} {gpio : Gpio} {rtc : Rtc} {tap : Tap} {trst : Bool} {io : IoBuf} {free : Nat}
    (h : Keeps r t) (hq : q.mem = t.fls.mem) (hj : t.svy.join = none → svy.join = none := by first | exact id | exact fun _ => rfl) :
    Keeps r (State.mk t.pending ksc lgt lgb chg chp cht chs seq tha thd smb hp hsh mbx lck eng t.emem t.shm cpy clk rst prt q dct fbk
    svy bmk gpio rtc tap trst io free) :=
  ⟨h.queue, fun w => ⟨(h.mem w).1, (h.mem w).2.1, hq ▸ (h.mem w).2.2⟩, hj ∘ h.join⟩

/-- A record update that writes memories. -/
theorem Keeps.updMem {r t : State} {q : Fls} {m : List Host.Cell} {x : Vector EngMem 6} {ksc : Ksc} {lgt : Lgt} {lgb : LgtBank} {chg : Chg} {chp : ChgPort} {cht : ChgTel} {chs : ChgSel} {seq : Seq}
    {tha : Tha} {thd : ThaDat} {smb : Vector Smb 4} {hp : Vector HPort 2} {hsh : HShare} {mbx : Mbx} {lck : Lck}
    {eng : Vector Ceng 6} {cpy : Cpy} {clk : Clk} {rst : Rst} {prt : Prt} {dct : Dct} {fbk : Fbk} {svy : Svy} {bmk :
    Bmk} {gpio : Gpio} {rtc : Rtc} {tap : Tap} {trst : Bool} {io : IoBuf} {free : Nat}
    (h : Keeps r t) (hm : t.MemWf → Memory.wf 0 m = true ∧ (∀ e : Fin 6, Memory.wf 0 x[e].dmem = true) ∧ Memory.wf 0xFF q.mem = true)
    (hj : t.svy.join = none → svy.join = none := by first | exact id | exact fun _ => rfl) :
    Keeps r (State.mk t.pending ksc lgt lgb chg chp cht chs seq tha thd smb hp hsh mbx lck eng x m cpy clk rst prt q dct fbk svy bmk
    gpio rtc tap trst io free) :=
  ⟨h.queue, fun w => hm (h.mem w), hj ∘ h.join⟩

theorem Keeps.ite {r x y : State} {c : Prop} [Decidable c] (h : Keeps r x) (k : Keeps r y) :
    Keeps r (if c then x else y) := by split <;> assumption

theorem Keeps.ite_fst {α : Type} {r : State} {x y : State × α} {c : Prop} [Decidable c] (h : Keeps r x.1) (k : Keeps r y.1) :
    Keeps r (if c then x else y).1 := by split <;> assumption

theorem Keeps.fst {α : Type} {r x : State} {a : α} (h : Keeps r x) : Keeps r (x, a).1 := h

theorem Keeps.foldl {β : Type} {r x : State} {f : State → β → State} (l : List β) (h : Keeps r x)
    (hf : ∀ s b, Keeps s (f s b)) : Keeps r (l.foldl f x) := by
  induction l generalizing x with
  | nil => exact h
  | cons b t ih => exact ih (h.trans (hf x b))

end Sys2Proof.Machine
end

