-- ==== Sys2Proof/Laws/KeepsBlocks.lean ====
section
/-! SUPPORT. Each shared operation keeps the queue and the canonical memories: the blocks of 02 to 06, 08 and 14 to 16. -/

namespace Sys2Proof.Machine

theorem putPort_keeps {z : State} {p : Port} {h : HPort} {s : State} (hk : Keeps z s) : Keeps z (putPort p h s) := by
  unfold putPort
  with_reducible repeat' first | assumption | apply Keeps.ite | simp only [↓Keeps.upd_iff]

theorem setHintP_keeps {z : State} {p : Port} {n : Nat} {s : State} (hk : Keeps z s) : Keeps z (setHintP p n s) := by
  unfold setHintP
  with_reducible repeat' first | assumption | apply Keeps.ite | apply putPort_keeps

theorem setHint_keeps {z : State} {n : Nat} {s : State} (hk : Keeps z s) : Keeps z (setHint n s) := by
  unfold setHint
  with_reducible repeat' first | assumption | apply Keeps.ite | simp only [↓Keeps.upd_iff] | apply setHintP_keeps

theorem raiseWake_keeps {z : State} {code : Nat} {s : State} (hk : Keeps z s) : Keeps z (raiseWake code s) := by
  unfold raiseWake
  with_reducible repeat' first | assumption | apply Keeps.ite | simp only [↓Keeps.upd_iff]

theorem enterRec_keeps {z : State} {src : Nat} {typ : Nat} {p : List Nat} {s : State} (hk : Keeps z s) : Keeps z
    (enterRec src typ p s) := by
  unfold enterRec
  with_reducible repeat' first | assumption | apply Keeps.ite | simp only [↓Keeps.upd_iff] | apply setHint_keeps

theorem fbOverflow_keeps {z : State} {s : State} (hk : Keeps z s) : Keeps z (fbOverflow s) := by
  unfold fbOverflow
  with_reducible repeat' first | assumption | apply Keeps.ite | simp only [↓Keeps.upd_iff] | apply enterRec_keeps

theorem pushRec_keeps {z : State} {src : Nat} {typ : Nat} {p : List Nat} {s : State} (hk : Keeps z s) : Keeps z
    (pushRec src typ p s) := by
  unfold pushRec
  with_reducible repeat' first | assumption | apply Keeps.ite | simp only [↓Keeps.upd_iff] | apply fbOverflow_keeps
                               | apply enterRec_keeps

theorem takeSnap_keeps {z : State} {src : Nat} {trig : Nat} {s : State} (hk : Keeps z s) : Keeps z (takeSnap src
    trig s) := by
  unfold takeSnap
  with_reducible repeat' first | assumption | apply Keeps.ite | simp only [↓Keeps.upd_iff] | apply setHint_keeps
                               | apply pushRec_keeps

theorem mergeSnap_keeps {z : State} {src trig : Nat} {s : State} (hk : Keeps z s) : Keeps z (mergeSnap src trig s) := by
  unfold mergeSnap
  with_reducible repeat' first | assumption | apply Keeps.ite | simp only [↓Keeps.upd_iff]

theorem edgeSnap_keeps {z : State} {same : Bool} {src : Nat} {trig : Nat} {s : State} (hk : Keeps z s) : Keeps z
    (edgeSnap same src trig s) := by
  unfold edgeSnap
  with_reducible repeat' first | assumption | apply Keeps.ite | simp only [↓Keeps.upd_iff] | apply mergeSnap_keeps
                               | apply takeSnap_keeps

theorem trigSnap_keeps {z : State} {same : Bool} {src : Nat} {s : State} (hk : Keeps z s) : Keeps z (trigSnap same
    src s) := by
  unfold trigSnap
  with_reducible repeat' first | assumption | apply Keeps.ite | simp only [↓Keeps.upd_iff] | apply edgeSnap_keeps

theorem joinRec_keeps {z : State} {s : State} (hk : Keeps z s) : Keeps z (joinRec s) := by
  unfold joinRec
  simp only [↓Keeps.upd_iff]
  exact mergeSnap_keeps hk

theorem logRec_keeps {z : State} {src : Nat} {typ : Nat} {p : List Nat} {s : State} (hk : Keeps z s) : Keeps z
    (logRec src typ p s) := by
  unfold logRec
  with_reducible repeat' first | assumption | apply Keeps.ite | apply joinRec_keeps | apply pushRec_keeps
                               | apply takeSnap_keeps | dsimp only | split

theorem onEdge_keeps {z : State} {same : Bool} {f : State → State} {s : State} (hf : ∀ y x, Keeps y x → Keeps y (f x))
    (hk : Keeps z s) : Keeps z (onEdge same f s) := by
  unfold onEdge
  have h := hf _ _ (Keeps.refl { s with svy := { s.svy with join := some (snapSources s) } })
  exact Keeps.ite ⟨h.queue.trans hk.queue, fun w => h.mem (hk.mem w), fun _ => rfl⟩ (hf _ _ hk)

theorem stopOnEdge_keeps {z : State} {f : State → State} {s : State} (hf : ∀ y x, Keeps y x → Keeps y (f x))
    (hk : Keeps z s) : Keeps z (stopOnEdge f s) := onEdge_keeps hf hk

theorem bookRec_keeps {z : State} {src : Nat} {typ : Nat} {pay : List Nat} {s : State} (hk : Keeps z s) : Keeps z
    (bookRec src typ pay s) := by
  unfold bookRec
  with_reducible repeat' first | assumption | apply Keeps.ite | simp only [↓Keeps.upd_iff] | apply logRec_keeps
                               | dsimp only | split

theorem fbWriteThrough_keeps {z : State} {ok1 : Bool} {ok2 : Bool} {floor : Bool} {s : State} (hk : Keeps z s) :
    Keeps z (fbWriteThrough ok1 ok2 floor s) := by
  unfold fbWriteThrough
  with_reducible repeat' first | assumption | apply Keeps.ite | simp only [↓Keeps.upd_iff] | apply fbOverflow_keeps
                               | apply logRec_keeps | dsimp only | split

theorem fbClear_keeps {z : State} {by_ : Nat} {s : State} (hk : Keeps z s) : Keeps z (fbClear by_ s) := by
  unfold fbClear
  with_reducible repeat' first | assumption | apply Keeps.ite | simp only [↓Keeps.upd_iff] | apply pushRec_keeps

theorem clearBook_keeps {z : State} {same : Bool} {by_ : Nat} {s : State} (hk : Keeps z s) : Keeps z (clearBook
    same by_ s) := by
  unfold clearBook
  with_reducible repeat' first | assumption | apply Keeps.ite | simp only [↓Keeps.upd_iff] | apply pushRec_keeps
                               | apply fbClear_keeps

theorem fbFirmware_keeps {z : State} {e : Fin 6} {s : State} (hk : Keeps z s) : Keeps z (fbFirmware e s) := by
  unfold fbFirmware
  with_reducible repeat' first | assumption | apply Keeps.ite | apply logRec_keeps

theorem fbkWrite_keeps {z : State} {e : Fin 6} {off : Nat} {v : Nat} {s : State} (hk : Keeps z s) : Keeps z
    (fbkWrite e off v s) := by
  unfold fbkWrite
  with_reducible repeat' first | assumption | apply Keeps.ite | simp only [↓Keeps.upd_iff] | apply fbFirmware_keeps

theorem fbEngClear_keeps {z : State} {e : Fin 6} {v : Nat} {s : State} (hk : Keeps z s) : Keeps z (fbEngClear e v
    s) := by
  unfold fbEngClear
  with_reducible repeat' first | assumption | apply Keeps.ite | simp only [↓Keeps.upd_iff] | apply fbClear_keeps

theorem svyWrite_keeps {z : State} {off : Nat} {v : Nat} {same : Bool} {s : State} (hk : Keeps z s) : Keeps z (svyWrite
    off v s same) := by
  unfold svyWrite
  with_reducible repeat' first | assumption | apply Keeps.ite | simp only [↓Keeps.upd_iff] | apply trigSnap_keeps

theorem missRead_keeps {z : State} {s : State} (hk : Keeps z s) : Keeps z (missRead s).1 := by
  unfold missRead
  with_reducible repeat' first | assumption | apply Keeps.ite_fst | simp only [↓Keeps.upd_iff]

theorem sisSet_keeps {z : State} {m : Nat} {s : State} (hk : Keeps z s) : Keeps z (sisSet m s) := by
  unfold sisSet
  with_reducible repeat' first | assumption | apply Keeps.ite | simp only [↓Keeps.upd_iff]

theorem sfltSet_keeps {z : State} {m : Nat} {s : State} (hk : Keeps z s) : Keeps z (sfltSet m s) := by
  unfold sfltSet
  with_reducible repeat' first | assumption | apply Keeps.ite | simp only [↓Keeps.upd_iff]

theorem seqRefuse_keeps {z : State} {r : SeqReq} {s : State} (hk : Keeps z s) : Keeps z (seqRefuse r s) := by
  unfold seqRefuse
  with_reducible repeat' first | assumption | apply Keeps.ite | simp only [↓Keeps.upd_iff] | apply logRec_keeps
                               | apply sfltSet_keeps

theorem seqStart_keeps {z : State} {r : SeqReq} {s : State} (hk : Keeps z s) : Keeps z (seqStart r s) := by
  unfold seqStart
  with_reducible repeat' first | assumption | apply Keeps.ite | simp only [↓Keeps.upd_iff] | apply seqRefuse_keeps
                               | apply logRec_keeps | apply sisSet_keeps | dsimp only | split

theorem seqUnwind_keeps {z : State} {r : SeqReq} {s : State} (hk : Keeps z s) : Keeps z (seqUnwind r s) := by
  unfold seqUnwind
  with_reducible repeat' first | assumption | apply Keeps.ite | simp only [↓Keeps.upd_iff] | apply logRec_keeps

theorem seqRequest_keeps {z : State} {r : SeqReq} {s : State} (hk : Keeps z s) : Keeps z (seqRequest r s) := by
  unfold seqRequest
  with_reducible repeat' first | assumption | apply Keeps.ite | simp only [↓Keeps.upd_iff] | apply seqStart_keeps
                               | apply seqRefuse_keeps | apply seqUnwind_keeps | dsimp only | split

theorem seqAsk_keeps {z : State} {newer : Bool} {r : SeqReq} {s : State} (hk : Keeps z s) : Keeps z (seqAsk newer r
    s) := by
  unfold seqAsk
  with_reducible repeat' first | assumption | apply Keeps.ite | simp only [↓Keeps.upd_iff] | apply seqRequest_keeps
                               | apply logRec_keeps

theorem seqTakeQueue_keeps {z : State} {s : State} (hk : Keeps z s) : Keeps z (seqTakeQueue s) := by
  unfold seqTakeQueue
  with_reducible repeat' first | assumption | apply Keeps.ite | simp only [↓Keeps.upd_iff] | apply seqStart_keeps
                               | dsimp only | split

theorem seqApplySet_keeps {z : State} {s : State} (hk : Keeps z s) : Keeps z (seqApplySet s) := by
  unfold seqApplySet
  with_reducible repeat' first | assumption | apply Keeps.ite | simp only [↓Keeps.upd_iff] | dsimp only | split

theorem seqApply_keeps {z : State} {s : State} (hk : Keeps z s) : Keeps z (seqApply s) := by
  unfold seqApply
  with_reducible repeat' first | assumption | apply Keeps.ite | simp only [↓Keeps.upd_iff] | apply seqApplySet_keeps

theorem seqFault_keeps {z : State} {n : Nat} {s : State} (hk : Keeps z s) : Keeps z (seqFault n s) := by
  unfold seqFault
  with_reducible repeat' first | assumption | apply Keeps.ite | simp only [↓Keeps.upd_iff] | apply raiseWake_keeps
                               | apply setHint_keeps | apply seqTakeQueue_keeps | apply seqApplySet_keeps

theorem stepDone_keeps {z : State} {u : Undo} {s : State} (hk : Keeps z s) : Keeps z (stepDone u s) := by
  unfold stepDone
  with_reducible repeat' first | assumption | apply Keeps.ite | simp only [↓Keeps.upd_iff]

theorem seqEnd_keeps {z : State} {s : State} (hk : Keeps z s) : Keeps z (seqEnd s) := by
  unfold seqEnd
  with_reducible repeat' first | assumption | apply Keeps.ite | simp only [↓Keeps.upd_iff] | apply seqTakeQueue_keeps
                               | apply seqApplySet_keeps | apply raiseWake_keeps | apply setHint_keeps
                               | apply logRec_keeps

theorem psWrite_keeps {z : State} {mask : Nat} {v : Nat} {s : State} (hk : Keeps z s) : Keeps z (psWrite mask v s)
    := by
  unfold psWrite
  with_reducible repeat' first | assumption | apply Keeps.ite | simp only [↓Keeps.upd_iff]

theorem seqSet_keeps {z : State} {s : State} (hk : Keeps z s) : Keeps z (seqSet s) := by
  unfold seqSet
  with_reducible repeat' first | assumption | apply Keeps.ite | apply stepDone_keeps | apply psWrite_keeps

theorem seqSetg_keeps {z : State} {s : State} (hk : Keeps z s) : Keeps z (seqSetg s) := by
  unfold seqSetg
  with_reducible repeat' first | assumption | apply Keeps.ite | apply stepDone_keeps | apply psWrite_keeps

theorem seqDelay_keeps {z : State} {s : State} (hk : Keeps z s) : Keeps z (seqDelay s) := by
  unfold seqDelay
  with_reducible repeat' first | assumption | apply Keeps.ite | simp only [↓Keeps.upd_iff] | apply stepDone_keeps

theorem pgPins_keeps {z : State} {pins : BitVec 32} {s : State} (hk : Keeps z s) : Keeps z (pgPins pins s) := by
  unfold pgPins
  with_reducible repeat' first | assumption | apply Keeps.ite | simp only [↓Keeps.upd_iff]

theorem seqWait_keeps {z : State} {pins : BitVec 32} {s : State} (hk : Keeps z s) : Keeps z (seqWait pins s) := by
  unfold seqWait
  with_reducible repeat' first | assumption | apply Keeps.ite | simp only [↓Keeps.upd_iff] | apply pgPins_keeps
                               | apply stepDone_keeps

theorem seqWaitDone_keeps {z : State} {pins : BitVec 32} {s : State} (hk : Keeps z s) : Keeps z (seqWaitDone pins
    s) := by
  unfold seqWaitDone
  with_reducible repeat' first | assumption | apply Keeps.ite | simp only [↓Keeps.upd_iff] | apply pgPins_keeps
                               | apply stepDone_keeps

theorem seqTimeout_keeps {z : State} {s : State} (hk : Keeps z s) : Keeps z (seqTimeout s) := by
  unfold seqTimeout
  with_reducible repeat' first | assumption | apply Keeps.ite | simp only [↓Keeps.upd_iff] | apply logRec_keeps
                               | apply sfltSet_keeps | apply stepDone_keeps | apply seqFault_keeps

theorem seqWatch_keeps {z : State} {s : State} (hk : Keeps z s) : Keeps z (seqWatch s) := by
  unfold seqWatch
  with_reducible repeat' first | assumption | apply Keeps.ite | simp only [↓Keeps.upd_iff] | apply stepDone_keeps

theorem seqCommitStep_keeps {z : State} {s : State} (hk : Keeps z s) : Keeps z (seqCommitStep s) := by
  unfold seqCommitStep
  with_reducible repeat' first | assumption | apply Keeps.ite | simp only [↓Keeps.upd_iff] | apply stepDone_keeps
                               | apply sisSet_keeps

theorem seqMark_keeps {z : State} {s : State} (hk : Keeps z s) : Keeps z (seqMark s) := by
  unfold seqMark
  with_reducible repeat' first | assumption | apply Keeps.ite | simp only [↓Keeps.upd_iff] | apply logRec_keeps
                               | apply stepDone_keeps | apply sisSet_keeps

theorem seqPgLost_keeps {z : State} {m : Fin 32} {pins : BitVec 32} {s : State} (hk : Keeps z s) : Keeps z
    (seqPgLost m pins s) := by
  unfold seqPgLost
  with_reducible repeat' first | assumption | apply Keeps.ite | simp only [↓Keeps.upd_iff] | apply pgPins_keeps
                               | apply seqFault_keeps | apply logRec_keeps | apply sfltSet_keeps

theorem seqReverse_keeps {z : State} {pins : BitVec 32} {s : State} (hk : Keeps z s) : Keeps z (seqReverse pins s)
    := by
  unfold seqReverse
  with_reducible repeat' first | assumption | apply Keeps.ite | simp only [↓Keeps.upd_iff] | apply pgPins_keeps
                               | apply psWrite_keeps | dsimp only | split

theorem seqUnwindEnd_keeps {z : State} {s : State} (hk : Keeps z s) : Keeps z (seqUnwindEnd s) := by
  unfold seqUnwindEnd
  with_reducible repeat' first | assumption | apply Keeps.ite | simp only [↓Keeps.upd_iff] | apply setHint_keeps
                               | apply seqApplySet_keeps | apply seqStart_keeps | dsimp only | split

theorem seqPress_keeps {z : State} {newer : Bool} {s : State} (hk : Keeps z s) : Keeps z (seqPress newer s) := by
  unfold seqPress
  with_reducible repeat' first | assumption | apply Keeps.ite | simp only [↓Keeps.upd_iff] | apply raiseWake_keeps
                               | apply setHint_keeps | apply sisSet_keeps | apply seqAsk_keeps

theorem seqRelease_keeps {z : State} {s : State} (hk : Keeps z s) : Keeps z (seqRelease s) := by
  unfold seqRelease
  with_reducible repeat' first | assumption | apply Keeps.ite | simp only [↓Keeps.upd_iff]

theorem seqLong_keeps {z : State} {s : State} (hk : Keeps z s) : Keeps z (seqLong s) := by
  unfold seqLong
  with_reducible repeat' first | assumption | apply Keeps.ite | simp only [↓Keeps.upd_iff] | apply seqRequest_keeps

theorem seqHard_keeps {z : State} {s : State} (hk : Keeps z s) : Keeps z (seqHard s) := by
  unfold seqHard
  with_reducible repeat' first | assumption | apply Keeps.ite | simp only [↓Keeps.upd_iff] | apply logRec_keeps
                               | apply sfltSet_keeps | apply seqFault_keeps

theorem seqLid_keeps {z : State} {high : Bool} {newer : Bool} {s : State} (hk : Keeps z s) : Keeps z (seqLid high
    newer s) := by
  unfold seqLid
  with_reducible repeat' first | assumption | apply Keeps.ite | simp only [↓Keeps.upd_iff] | apply setHint_keeps
                               | apply sisSet_keeps | apply raiseWake_keeps | apply seqAsk_keeps

theorem seqWake_keeps {z : State} {i : Fin 4} {high : Bool} {newer : Bool} {s : State} (hk : Keeps z s) : Keeps z
    (seqWake i high newer s) := by
  unfold seqWake
  with_reducible repeat' first | assumption | apply Keeps.ite | simp only [↓Keeps.upd_iff] | apply raiseWake_keeps
                               | apply sisSet_keeps | apply seqAsk_keeps

theorem seqKbWake_keeps {z : State} {newer : Bool} {s : State} (hk : Keeps z s) : Keeps z (seqKbWake newer s) := by
  unfold seqKbWake
  with_reducible repeat' first | assumption | apply Keeps.ite | simp only [↓Keeps.upd_iff] | apply sisSet_keeps
                               | apply seqAsk_keeps

theorem seqWrite_keeps {z : State} {src : Nat} {off : Nat} {v : Nat} {s : State} (hk : Keeps z s) : Keeps z
    (seqWrite src off v s) := by
  unfold seqWrite
  with_reducible repeat' first | assumption | apply Keeps.ite | simp only [↓Keeps.upd_iff] | apply seqRequest_keeps

theorem lfltSet_keeps {z : State} {m : Nat} {s : State} (hk : Keeps z s) : Keeps z (lfltSet m s) := by
  unfold lfltSet
  with_reducible repeat' first | assumption | apply Keeps.ite | simp only [↓Keeps.upd_iff] | apply setHint_keeps

theorem lisSet_keeps {z : State} {m : Nat} {s : State} (hk : Keeps z s) : Keeps z (lisSet m s) := by
  unfold lisSet
  with_reducible repeat' first | assumption | apply Keeps.ite | simp only [↓Keeps.upd_iff]

theorem complianceNote_keeps {z : State} {j : Nat} {pulses : Sparse (Nat × Nat)} {low : BitVec 72} {high : BitVec
    72} {s : State} (hk : Keeps z s) : Keeps z (complianceNote j pulses low high s) := by
  unfold complianceNote
  with_reducible repeat' first | assumption | apply Keeps.ite | simp only [↓Keeps.upd_iff]
                               | refine Keeps.foldl _ ?_ (fun _ _ => ?_) | exact Keeps.refl _

theorem verdictNote_keeps {z : State} {j : Nat} {opens : BitVec 72} {shorts : BitVec 72} {s : State} (hk : Keeps z
    s) : Keeps z (verdictNote j opens shorts s) := by
  unfold verdictNote
  with_reducible repeat' first | assumption | apply Keeps.ite | simp only [↓Keeps.upd_iff]
                               | refine Keeps.foldl _ ?_ (fun _ _ => ?_) | exact Keeps.refl _

theorem railAdvance_keeps {z : State} {ck : Nat} {s : State} (hk : Keeps z s) : Keeps z (railAdvance ck s) := by
  unfold railAdvance
  with_reducible repeat' first | assumption | apply Keeps.ite | simp only [↓Keeps.upd_iff]

theorem lgtDark_keeps {z : State} {s : State} (hk : Keeps z s) : Keeps z (lgtDark s) := by
  unfold lgtDark
  with_reducible repeat' first | assumption | apply Keeps.ite | simp only [↓Keeps.upd_iff]

theorem lgtSlotStart_keeps {z : State} {low : BitVec 72} {high : BitVec 72} {opens : BitVec 72} {shorts : BitVec
    72} {gap : Nat} {s : State} (hk : Keeps z s) : Keeps z (lgtSlotStart low high opens shorts gap s) := by
  unfold lgtSlotStart
  with_reducible repeat' first | assumption | apply Keeps.ite | simp only [↓Keeps.upd_iff] | apply lgtDark_keeps
                               | apply railAdvance_keeps | apply verdictNote_keeps | apply complianceNote_keeps

theorem lgtLedFault_keeps {z : State} {e : Nat} {s : State} (hk : Keeps z s) : Keeps z (lgtLedFault e s) := by
  unfold lgtLedFault
  with_reducible repeat' first | assumption | apply Keeps.ite | simp only [↓Keeps.upd_iff] | apply logRec_keeps
                               | apply lfltSet_keeps

theorem lgtFrame_keeps {z : State} {s : State} (hk : Keeps z s) : Keeps z (lgtFrame s) := by
  unfold lgtFrame
  with_reducible repeat' first | assumption | apply Keeps.ite | simp only [↓Keeps.upd_iff]

theorem lgtFrameBoundary_keeps {z : State} {s : State} (hk : Keeps z s) : Keeps z (lgtFrameBoundary s) := by
  unfold lgtFrameBoundary
  with_reducible repeat' first | assumption | apply Keeps.ite | simp only [↓Keeps.upd_iff] | apply lgtFrame_keeps

theorem lgtHeadroom_keeps {z : State} {c : Fin 3} {s : State} (hk : Keeps z s) : Keeps z (lgtHeadroom c s) := by
  unfold lgtHeadroom
  with_reducible repeat' first | assumption | apply Keeps.ite | simp only [↓Keeps.upd_iff] | apply logRec_keeps
                               | apply lfltSet_keeps

theorem lgtRailFault_keeps {z : State} {c : Fin 3} {s : State} (hk : Keeps z s) : Keeps z (lgtRailFault c s) := by
  unfold lgtRailFault
  with_reducible repeat' first | assumption | apply Keeps.ite | simp only [↓Keeps.upd_iff] | apply logRec_keeps
                               | apply lfltSet_keeps

theorem lgtStageFault_keeps {z : State} {open_ : Bool} {n : Fin 8} {s : State} (hk : Keeps z s) : Keeps z
    (lgtStageFault open_ n s) := by
  unfold lgtStageFault
  with_reducible repeat' first | assumption | apply Keeps.ite | simp only [↓Keeps.upd_iff] | apply logRec_keeps
                               | apply lfltSet_keeps

theorem lgtBackWrite_keeps {z : State} {e : Nat} {v : Nat} {s : State} (hk : Keeps z s) : Keeps z (lgtBackWrite e v
    s) := by
  unfold lgtBackWrite
  with_reducible repeat' first | assumption | apply Keeps.ite | simp only [↓Keeps.upd_iff] | apply lfltSet_keeps

theorem lgtCommitReq_keeps {z : State} {pulse : Bool} {s : State} (hk : Keeps z s) : Keeps z (lgtCommitReq pulse s)
    := by
  unfold lgtCommitReq
  with_reducible repeat' first | assumption | apply Keeps.ite | simp only [↓Keeps.upd_iff] | dsimp only | split

theorem lgtBlank_keeps {z : State} {b : Bool} {s : State} (hk : Keeps z s) : Keeps z (lgtBlank b s) := by
  unfold lgtBlank
  with_reducible repeat' first | assumption | apply Keeps.ite | simp only [↓Keeps.upd_iff]

theorem lgtCmd_keeps {z : State} {c : Nat} {s : State} (hk : Keeps z s) : Keeps z (lgtCmd c s) := by
  unfold lgtCmd
  with_reducible repeat' first | assumption | apply Keeps.ite | simp only [↓Keeps.upd_iff] | apply lgtCommitReq_keeps
                               | apply lgtBlank_keeps

theorem lgtSwap_keeps {z : State} {s : State} (hk : Keeps z s) : Keeps z (lgtSwap s) := by
  unfold lgtSwap
  with_reducible repeat' first | assumption | apply Keeps.ite | simp only [↓Keeps.upd_iff] | apply setHint_keeps
                               | apply lisSet_keeps

theorem lgtCopyback_keeps {z : State} {n : Nat} {s : State} (hk : Keeps z s) : Keeps z (lgtCopyback n s) := by
  unfold lgtCopyback
  with_reducible repeat' first | assumption | apply Keeps.ite | simp only [↓Keeps.upd_iff] | apply lisSet_keeps

theorem lgtApply_keeps {z : State} {s : State} (hk : Keeps z s) : Keeps z (lgtApply s) := by
  unfold lgtApply
  with_reducible repeat' first | assumption | apply Keeps.ite | simp only [↓Keeps.upd_iff] | dsimp only | split

theorem ltinSet_keeps {z : State} {v : Nat} {s : State} (hk : Keeps z s) : Keeps z (ltinSet v s) := by
  unfold ltinSet
  with_reducible repeat' first | assumption | apply Keeps.ite | simp only [↓Keeps.upd_iff]

theorem lgtTstale_keeps {z : State} {s : State} (hk : Keeps z s) : Keeps z (lgtTstale s) := by
  unfold lgtTstale
  with_reducible repeat' first | assumption | apply Keeps.ite | simp only [↓Keeps.upd_iff] | apply lisSet_keeps

theorem lgtLctl_keeps {z : State} {v : Nat} {s : State} (hk : Keeps z s) : Keeps z (lgtLctl v s) := by
  unfold lgtLctl
  with_reducible repeat' first | assumption | apply Keeps.ite | simp only [↓Keeps.upd_iff] | apply lgtBlank_keeps

theorem lgtStop_keeps {z : State} {s : State} (hk : Keeps z s) : Keeps z (lgtStop s) := by
  unfold lgtStop
  with_reducible repeat' first | assumption | apply Keeps.ite | simp only [↓Keeps.upd_iff] | apply lgtDark_keeps

theorem lsyncPulse_keeps {z : State} {low : Nat} {off : Int} {s : State} (hk : Keeps z s) : Keeps z (lsyncPulse low
    off s) := by
  unfold lsyncPulse
  with_reducible repeat' first | assumption | apply Keeps.ite | simp only [↓Keeps.upd_iff] | apply commit_keeps
                               | apply lgtCommitReq_keeps | apply lgtFrame_keeps

theorem lsyncLost_keeps {z : State} {s : State} (hk : Keeps z s) : Keeps z (lsyncLost s) := by
  unfold lsyncLost
  with_reducible repeat' first | assumption | apply Keeps.ite | simp only [↓Keeps.upd_iff] | apply logRec_keeps
                               | apply lisSet_keeps

theorem lgtSyncflt_keeps {z : State} {s : State} (hk : Keeps z s) : Keeps z (lgtSyncflt s) := by
  unfold lgtSyncflt
  with_reducible repeat' first | assumption | apply Keeps.ite | simp only [↓Keeps.upd_iff] | apply lfltSet_keeps

theorem lgtKeyRecord_keeps {z : State} {typ : Nat} {pos : Nat} {press : Bool} {s : State} (hk : Keeps z s) : Keeps
    z (lgtKeyRecord typ pos press s) := by
  unfold lgtKeyRecord
  with_reducible repeat' first | assumption | apply Keeps.ite | simp only [↓Keeps.upd_iff]

theorem keyLightEnd_keeps {z : State} {s : State} (hk : Keeps z s) : Keeps z (keyLightEnd s) := by
  unfold keyLightEnd
  with_reducible repeat' first | assumption | apply Keeps.ite | simp only [↓Keeps.upd_iff]

theorem lixWrite_keeps {z : State} {v : Nat} {s : State} (hk : Keeps z s) : Keeps z (lixWrite v s) := by
  unfold lixWrite
  with_reducible repeat' first | assumption | apply Keeps.ite | simp only [↓Keeps.upd_iff] | apply lgtBackWrite_keeps

theorem lgtWrite_keeps {z : State} {off : Nat} {v : Nat} {s : State} (hk : Keeps z s) : Keeps z (lgtWrite off v s)
    := by
  unfold lgtWrite
  with_reducible repeat' first | assumption | apply Keeps.ite | simp only [↓Keeps.upd_iff] | apply lgtLctl_keeps
                               | apply lgtCmd_keeps | apply ltinSet_keeps

theorem chainShift_keeps {z : State} {ltdi : Bool} {s : State} (hk : Keeps z s) : Keeps z (chainShift ltdi s) := by
  unfold chainShift
  with_reducible repeat' first | assumption | apply Keeps.ite | simp only [↓Keeps.upd_iff]

theorem chainRun_keeps {z : State} {cmd : Nat} {act : Nat → State → State} {low : Nat → State → Nat} {s : State}
    (ha : ∀ n x, Keeps z x → Keeps z (act n x)) (hk : Keeps z s) : Keeps z (chainRun cmd act low s) := by
  unfold chainRun
  dsimp only
  split
  · exact hk
  · simp only [↓Keeps.upd_iff]
    split
    · exact ha _ _ hk
    · exact hk

theorem chainFill_keeps {z : State} {arg : Nat} {s : State} (hk : Keeps z s) : Keeps z (chainFill arg s) := by
  unfold chainFill
  with_reducible repeat' first | assumption | apply Keeps.ite | apply lgtBackWrite_keeps
                               | refine Keeps.foldl _ ?_ (fun _ _ => ?_) | exact Keeps.refl _

theorem kisSet_keeps {z : State} {m : Nat} {s : State} (hk : Keeps z s) : Keeps z (kisSet m s) := by
  unfold kisSet
  with_reducible repeat' first | assumption | apply Keeps.ite | simp only [↓Keeps.upd_iff]

theorem kbWake_keeps {z : State} {code : Nat} {newer : Bool} {s : State} (hk : Keeps z s) : Keeps z (kbWake code
    newer s) := by
  unfold kbWake
  with_reducible repeat' first | assumption | apply Keeps.ite | simp only [↓Keeps.upd_iff] | apply seqKbWake_keeps
                               | apply raiseWake_keeps

theorem keyRecord_keeps {z : State} {typ : Nat} {pos : Nat} {press : Bool} {s : State} (hk : Keeps z s) : Keeps z
    (keyRecord typ pos press s) := by
  unfold keyRecord
  with_reducible repeat' first | assumption | apply Keeps.ite | simp only [↓Keeps.upd_iff] | apply lgtKeyRecord_keeps
                               | apply logRec_keeps

theorem ghostUpdate_keeps {z : State} {s : State} (hk : Keeps z s) : Keeps z (ghostUpdate s) := by
  unfold ghostUpdate
  with_reducible repeat' first | assumption | apply Keeps.ite | simp only [↓Keeps.upd_iff] | apply setHint_keeps

theorem emitKeyRecs_keeps {z : State} {rs : List (Nat × Nat × Bool)} {s : State} (hk : Keeps z s) : Keeps z
    (emitKeyRecs rs s) := by
  unfold emitKeyRecs
  with_reducible repeat' first | assumption | apply Keeps.ite | simp only [↓Keeps.upd_iff] | apply keyRecord_keeps
                               | apply setHint_keeps | apply kisSet_keeps | refine Keeps.foldl _ ?_ (fun _ _ => ?_)
                               | exact Keeps.refl _

theorem settleNote_keeps {z : State} {k : Nat} {m : Option Nat} {uns : Bool} {s : State} (hk : Keeps z s) : Keeps z
    (settleNote k m uns s) := by
  unfold settleNote
  with_reducible repeat' first | assumption | apply Keeps.ite | simp only [↓Keeps.upd_iff]

theorem kscResume_keeps {z : State} {s : State} (hk : Keeps z s) : Keeps z (kscResume s) := by
  unfold kscResume
  with_reducible repeat' first | assumption | apply Keeps.ite | simp only [↓Keeps.upd_iff]

theorem frameEnd_keeps {z : State} {s : State} (hk : Keeps z s) : Keeps z (frameEnd s) := by
  unfold frameEnd
  with_reducible repeat' first | assumption | apply Keeps.ite | simp only [↓Keeps.upd_iff]

theorem kscSample_keeps {z : State} {sense : Nat} {rise : List Nat} {low : Nat} {newer : Bool} {s : State} (hk :
    Keeps z s) : Keeps z (kscSample sense rise low newer s) := by
  unfold kscSample
  with_reducible repeat' first | assumption | apply Keeps.ite | simp only [↓Keeps.upd_iff] | apply settleNote_keeps
                               | apply emitKeyRecs_keeps | apply kbWake_keeps | apply ghostUpdate_keeps
                               | apply frameEnd_keeps | refine Keeps.foldl _ ?_ (fun _ _ => ?_) | exact Keeps.refl _
                               | dsimp only | split

theorem keySampled_keeps {z : State} {sense : Nat} {rise : List Nat} {low : Nat} {newer : Bool} {s : State} (hk :
    Keeps z s) : Keeps z (keySampled sense rise low newer s) := by
  unfold keySampled
  with_reducible repeat' first | assumption | apply Keeps.ite | simp only [↓Keeps.upd_iff] | apply kscSample_keeps

theorem abandonRun_keeps {z : State} {s : State} (hk : Keeps z s) : Keeps z (abandonRun s) := by
  unfold abandonRun
  with_reducible repeat' first | assumption | apply Keeps.ite | simp only [↓Keeps.upd_iff] | dsimp only | split

theorem soundingStart_keeps {z : State} {s : State} (hk : Keeps z s) : Keeps z (soundingStart s) := by
  unfold soundingStart
  with_reducible repeat' first | assumption | apply Keeps.ite | simp only [↓Keeps.upd_iff]

theorem soundingEnd_keeps {z : State} {s : State} (hk : Keeps z s) : Keeps z (soundingEnd s) := by
  unfold soundingEnd
  with_reducible repeat' first | assumption | apply Keeps.ite | simp only [↓Keeps.upd_iff] | apply logRec_keeps
                               | refine Keeps.foldl _ ?_ (fun _ _ => ?_) | exact Keeps.refl _ | dsimp only | split

theorem imageLate_keeps {z : State} {s : State} (hk : Keeps z s) : Keeps z (imageLate s) := by
  unfold imageLate
  with_reducible repeat' first | assumption | apply Keeps.ite | simp only [↓Keeps.upd_iff]

theorem kscApply_keeps {z : State} {s : State} (hk : Keeps z s) : Keeps z (kscApply s) := by
  unfold kscApply
  with_reducible repeat' first | assumption | apply Keeps.ite | simp only [↓Keeps.upd_iff] | apply soundingEnd_keeps
                               | apply imageLate_keeps | apply ghostUpdate_keeps | apply emitKeyRecs_keeps
                               | dsimp only | split

theorem kscStop_keeps {z : State} {s : State} (hk : Keeps z s) : Keeps z (kscStop s) := by
  unfold kscStop
  with_reducible repeat' first | assumption | apply Keeps.ite | simp only [↓Keeps.upd_iff] | apply imageLate_keeps
                               | apply emitKeyRecs_keeps | apply abandonRun_keeps

theorem kscSlowFrame_keeps {z : State} {s : State} (hk : Keeps z s) : Keeps z (kscSlowFrame s) := by
  unfold kscSlowFrame
  with_reducible repeat' first | assumption | apply Keeps.ite | simp only [↓Keeps.upd_iff]

theorem encHintP_keeps {z : State} {p : Port} {s : State} (hk : Keeps z s) : Keeps z (encHintP p s) := by
  unfold encHintP
  with_reducible repeat' first | assumption | apply Keeps.ite | simp only [↓Keeps.upd_iff] | apply setHintP_keeps

theorem encHints_keeps {z : State} {s : State} (hk : Keeps z s) : Keeps z (encHints s) := by
  unfold encHints
  with_reducible repeat' first | assumption | apply Keeps.ite | apply kisSet_keeps | apply encHintP_keeps

theorem encEdge_keeps {z : State} {n : Fin 4} {a : Bool} {b : Bool} {newer : Bool} {s : State} (hk : Keeps z s) :
    Keeps z (encEdge n a b newer s) := by
  unfold encEdge
  with_reducible repeat' first | assumption | apply Keeps.ite | simp only [↓Keeps.upd_iff] | apply encHints_keeps
                               | apply kbWake_keeps | dsimp only | split

theorem encZero_keeps {z : State} {mask : Nat} {s : State} (hk : Keeps z s) : Keeps z (encZero mask s) := by
  unfold encZero
  with_reducible repeat' first | assumption | apply Keeps.ite | simp only [↓Keeps.upd_iff]

theorem encPosRead_keeps {z : State} {p : Port} {n : Fin 4} {s : State} (hk : Keeps z s) : Keeps z (encPosRead p n
    s).1 := by
  unfold encPosRead
  with_reducible repeat' first | assumption | apply Keeps.ite | apply Keeps.ite_fst | simp only [↓Keeps.upd_iff]

theorem kscRead_keeps {z : State} {off : Nat} {s : State} (hk : Keeps z s) : Keeps z (kscRead off s).1 := by
  unfold kscRead
  with_reducible repeat' first | assumption | apply Keeps.ite | apply Keeps.ite_fst | simp only [↓Keeps.upd_iff]
                               | dsimp only | split

theorem kscKctl_keeps {z : State} {v : Nat} {s : State} (hk : Keeps z s) : Keeps z (kscKctl v s) := by
  unfold kscKctl
  with_reducible repeat' first | assumption | apply Keeps.ite | apply kscResume_keeps | simp only [↓Keeps.upd_iff]

theorem kscWrite_keeps {z : State} {off : Nat} {v : Nat} {s : State} (hk : Keeps z s) : Keeps z (kscWrite off v s)
    := by
  unfold kscWrite
  with_reducible repeat' first | assumption | apply Keeps.ite | simp only [↓Keeps.upd_iff] | apply kscKctl_keeps
                               | apply encHints_keeps | apply encZero_keeps

theorem cfltSet_keeps {z : State} {m : Nat} {s : State} (hk : Keeps z s) : Keeps z (cfltSet m s) := by
  unfold cfltSet
  with_reducible repeat' first | assumption | apply Keeps.ite | simp only [↓Keeps.upd_iff] | apply raiseWake_keeps
                               | apply setHint_keeps

theorem cisSet_keeps {z : State} {m : Nat} {s : State} (hk : Keeps z s) : Keeps z (cisSet m s) := by
  unfold cisSet
  with_reducible repeat' first | assumption | apply Keeps.ite | simp only [↓Keeps.upd_iff] | apply raiseWake_keeps

theorem chgEnter_keeps {z : State} {st : Nat} {s : State} (hk : Keeps z s) : Keeps z (chgEnter st s) := by
  unfold chgEnter
  with_reducible repeat' first | assumption | apply Keeps.ite | simp only [↓Keeps.upd_iff] | apply setHint_keeps
                               | dsimp only | split

theorem endOnTime_keeps {z : State} {ended : Bool} {s : State} (hk : Keeps z s) : Keeps z (endOnTime ended s) := by
  unfold endOnTime
  with_reducible repeat' first | assumption | apply Keeps.ite | simp only [↓Keeps.upd_iff]

theorem rbHalt_keeps {z : State} {cause : Nat} {s : State} (hk : Keeps z s) : Keeps z (rbHalt cause s) := by
  unfold rbHalt
  with_reducible repeat' first | assumption | apply Keeps.ite | simp only [↓Keeps.upd_iff] | apply logRec_keeps

theorem insertLog_keeps {z : State} {s : State} (hk : Keeps z s) : Keeps z (insertLog s) := by
  unfold insertLog
  with_reducible repeat' first | assumption | apply Keeps.ite | simp only [↓Keeps.upd_iff] | apply logRec_keeps
                               | apply cisSet_keeps | dsimp only | split

theorem chgTakeSet_keeps {z : State} {s : State} (hk : Keeps z s) : Keeps z (chgTakeSet s) := by
  unfold chgTakeSet
  with_reducible repeat' first | assumption | apply Keeps.ite | simp only [↓Keeps.upd_iff] | dsimp only | split

theorem chgPeriod_keeps {z : State} {m : ChgMeas} {d : ChgDemand} {on : Nat} {s : State} (hk : Keeps z s) : Keeps z
    (chgPeriod m d on s) := by
  unfold chgPeriod
  with_reducible repeat' first | assumption | apply Keeps.ite | simp only [↓Keeps.upd_iff] | apply chgTakeSet_keeps
                               | apply rbHalt_keeps | apply chgEnter_keeps | apply insertLog_keeps

theorem chgPeak_keeps {z : State} {ended : Bool} {s : State} (hk : Keeps z s) : Keeps z (chgPeak ended s) := by
  unfold chgPeak
  with_reducible repeat' first | assumption | apply Keeps.ite | simp only [↓Keeps.upd_iff] | apply endOnTime_keeps

theorem chgApply_keeps {z : State} {s : State} (hk : Keeps z s) : Keeps z (chgApply s) := by
  unfold chgApply
  with_reducible repeat' first | assumption | apply Keeps.ite | simp only [↓Keeps.upd_iff] | apply chgTakeSet_keeps

theorem socCross_keeps {z : State} {soc0 : Nat} {s : State} (hk : Keeps z s) : Keeps z (socCross soc0 s) := by
  unfold socCross
  with_reducible repeat' first | assumption | apply Keeps.ite | simp only [↓Keeps.upd_iff]

theorem rcClamp_keeps {z : State} {s : State} (hk : Keeps z s) : Keeps z (rcClamp s) := by
  unfold rcClamp
  with_reducible repeat' first | assumption | apply Keeps.ite | simp only [↓Keeps.upd_iff]

theorem chgInterval_keeps {z : State} {t : ChgTelem} {s : State} (hk : Keeps z s) : Keeps z (chgInterval t s) := by
  unfold chgInterval
  with_reducible repeat' first | assumption | apply Keeps.ite | simp only [↓Keeps.upd_iff] | apply rcClamp_keeps
                               | apply socCross_keeps

theorem chgLossBound_keeps {z : State} {s : State} (hk : Keeps z s) : Keeps z (chgLossBound s) := by
  unfold chgLossBound
  with_reducible repeat' first | assumption | apply Keeps.ite | simp only [↓Keeps.upd_iff] | apply logRec_keeps
                               | apply cfltSet_keeps

theorem chgTbat_keeps {z : State} {y : Nat} {s : State} (hk : Keeps z s) : Keeps z (chgTbat y s) := by
  unfold chgTbat
  with_reducible repeat' first | assumption | apply Keeps.ite | simp only [↓Keeps.upd_iff]

theorem chgNtcFault_keeps {z : State} {s : State} (hk : Keeps z s) : Keeps z (chgNtcFault s) := by
  unfold chgNtcFault
  with_reducible repeat' first | assumption | apply Keeps.ite | simp only [↓Keeps.upd_iff] | apply logRec_keeps
                               | apply cfltSet_keeps

theorem chgNtcRecovery_keeps {z : State} {s : State} (hk : Keeps z s) : Keeps z (chgNtcRecovery s) := by
  unfold chgNtcRecovery
  with_reducible repeat' first | assumption | apply Keeps.ite | simp only [↓Keeps.upd_iff] | apply logRec_keeps

theorem chgDone_keeps {z : State} {s : State} (hk : Keeps z s) : Keeps z (chgDone s) := by
  unfold chgDone
  with_reducible repeat' first | assumption | apply Keeps.ite | simp only [↓Keeps.upd_iff] | apply logRec_keeps
                               | apply chgEnter_keeps

theorem chgRecharge_keeps {z : State} {s : State} (hk : Keeps z s) : Keeps z (chgRecharge s) := by
  unfold chgRecharge
  with_reducible repeat' first | assumption | apply Keeps.ite | simp only [↓Keeps.upd_iff]

theorem chgTick_keeps {z : State} {s : State} (hk : Keeps z s) : Keeps z (chgTick s) := by
  unfold chgTick
  with_reducible repeat' first | assumption | apply Keeps.ite | simp only [↓Keeps.upd_iff]

theorem chgExpiry_keeps {z : State} {s : State} (hk : Keeps z s) : Keeps z (chgExpiry s) := by
  unfold chgExpiry
  with_reducible repeat' first | assumption | apply Keeps.ite | simp only [↓Keeps.upd_iff] | apply logRec_keeps
                               | apply chgEnter_keeps | apply cfltSet_keeps

theorem chgPreTimeout_keeps {z : State} {s : State} (hk : Keeps z s) : Keeps z (chgPreTimeout s) := by
  unfold chgPreTimeout
  with_reducible repeat' first | assumption | apply Keeps.ite | simp only [↓Keeps.upd_iff] | apply logRec_keeps
                               | apply chgEnter_keeps | apply cfltSet_keeps

theorem chgGatesOff_keeps {z : State} {s : State} (hk : Keeps z s) : Keeps z (chgGatesOff s) := by
  unfold chgGatesOff
  with_reducible repeat' first | assumption | apply Keeps.ite | simp only [↓Keeps.upd_iff]

theorem cellsNow_keeps {z : State} {cells : Vector Int 5} {s : State} (hk : Keeps z s) : Keeps z (cellsNow cells s)
    := by
  unfold cellsNow
  with_reducible repeat' first | assumption | apply Keeps.ite | simp only [↓Keeps.upd_iff]

theorem chgCellOv_keeps {z : State} {c : Nat} {v : Nat} {s : State} (hk : Keeps z s) : Keeps z (chgCellOv c v s) := by
  unfold chgCellOv
  with_reducible repeat' first | assumption | apply Keeps.ite | apply cellsNow_keeps | apply rbHalt_keeps
                               | apply chgGatesOff_keeps | apply logRec_keeps | apply cfltSet_keeps

theorem chgCellUv_keeps {z : State} {c : Nat} {v : Nat} {s : State} (hk : Keeps z s) : Keeps z (chgCellUv c v s) := by
  unfold chgCellUv
  with_reducible repeat' first | assumption | apply Keeps.ite | simp only [↓Keeps.upd_iff] | apply cfltSet_keeps
                               | apply logRec_keeps

theorem chgAcgOn_keeps {z : State} {vin : Nat} {s : State} (hk : Keeps z s) : Keeps z (chgAcgOn vin s) := by
  unfold chgAcgOn
  with_reducible repeat' first | assumption | apply Keeps.ite | simp only [↓Keeps.upd_iff]

theorem chgAttach_keeps {z : State} {vin : Nat} {s : State} (hk : Keeps z s) : Keeps z (chgAttach vin s) := by
  unfold chgAttach
  with_reducible repeat' first | assumption | apply Keeps.ite | simp only [↓Keeps.upd_iff] | apply logRec_keeps
                               | apply cisSet_keeps

theorem inputDrop_keeps {z : State} {vinOk : Bool} {s : State} (hk : Keeps z s) : Keeps z (inputDrop vinOk s) := by
  unfold inputDrop
  with_reducible repeat' first | assumption | apply Keeps.ite | simp only [↓Keeps.upd_iff]

theorem chgInputLost_keeps {z : State} {cause : Nat} {s : State} (hk : Keeps z s) : Keeps z (chgInputLost cause s)
    := by
  unfold chgInputLost
  with_reducible repeat' first | assumption | apply Keeps.ite | simp only [↓Keeps.upd_iff] | apply inputDrop_keeps
                               | apply logRec_keeps | apply cisSet_keeps

theorem chgInputOv_keeps {z : State} {vin : Nat} {s : State} (hk : Keeps z s) : Keeps z (chgInputOv vin s) := by
  unfold chgInputOv
  with_reducible repeat' first | assumption | apply Keeps.ite | simp only [↓Keeps.upd_iff] | apply inputDrop_keeps
                               | apply logRec_keeps | apply cisSet_keeps | apply cfltSet_keeps

theorem chgRemoved_keeps {z : State} {rise : Bool} {bid : Bool} {vsys : Nat} {ended : Bool} {s : State} (hk : Keeps z s) :
    Keeps z (chgRemoved rise bid vsys ended s) := by
  unfold chgRemoved
  with_reducible repeat' first | assumption | apply Keeps.ite | simp only [↓Keeps.upd_iff] | apply endOnTime_keeps
                               | apply logRec_keeps

theorem chgRemovedSecond_keeps {z : State} {ck : Nat} {s : State} (hk : Keeps z s) : Keeps z (chgRemovedSecond ck
    s) := by
  unfold chgRemovedSecond
  with_reducible repeat' first | assumption | apply Keeps.ite | simp only [↓Keeps.upd_iff] | apply logRec_keeps

theorem chgJoin_keeps {z : State} {pack : Nat} {s : State} (hk : Keeps z s) : Keeps z (chgJoin pack s) := by
  unfold chgJoin
  with_reducible repeat' first | assumption | apply Keeps.ite | simp only [↓Keeps.upd_iff] | apply insertLog_keeps

theorem chgInserted_keeps {z : State} {pack : Nat} {s : State} (hk : Keeps z s) : Keeps z (chgInserted pack s) := by
  unfold chgInserted
  with_reducible repeat' first | assumption | apply Keeps.ite | simp only [↓Keeps.upd_iff] | apply chgJoin_keeps

theorem chgReconnect_keeps {z : State} {s : State} (hk : Keeps z s) : Keeps z (chgReconnect s) := by
  unfold chgReconnect
  with_reducible repeat' first | assumption | apply Keeps.ite | simp only [↓Keeps.upd_iff] | apply chgJoin_keeps
                               | dsimp only | split

theorem chgRbgo_keeps {z : State} {s : State} (hk : Keeps z s) : Keeps z (chgRbgo s) := by
  unfold chgRbgo
  with_reducible repeat' first | assumption | apply Keeps.ite | simp only [↓Keeps.upd_iff] | apply logRec_keeps
                               | apply cfltSet_keeps

theorem chgRbStart_keeps {z : State} {s : State} (hk : Keeps z s) : Keeps z (chgRbStart s) := by
  unfold chgRbStart
  with_reducible repeat' first | assumption | apply Keeps.ite | simp only [↓Keeps.upd_iff] | apply logRec_keeps
                               | apply chgEnter_keeps

theorem chgRbStopAt_keeps {z : State} {cause : Nat} {s : State} (hk : Keeps z s) : Keeps z (chgRbStopAt cause s) := by
  unfold chgRbStopAt
  with_reducible repeat' first | assumption | apply Keeps.ite | simp only [↓Keeps.upd_iff]

theorem chgOverload_keeps {z : State} {s : State} (hk : Keeps z s) : Keeps z (chgOverload s) := by
  unfold chgOverload
  with_reducible repeat' first | assumption | apply Keeps.ite | simp only [↓Keeps.upd_iff] | apply chgRbStopAt_keeps
                               | apply cfltSet_keeps

theorem chgBackdrive_keeps {z : State} {s : State} (hk : Keeps z s) : Keeps z (chgBackdrive s) := by
  unfold chgBackdrive
  with_reducible repeat' first | assumption | apply Keeps.ite | simp only [↓Keeps.upd_iff] | apply chgRbStopAt_keeps

theorem chgLfmAuto_keeps {z : State} {s : State} (hk : Keeps z s) : Keeps z (chgLfmAuto s) := by
  unfold chgLfmAuto
  with_reducible repeat' first | assumption | apply Keeps.ite | simp only [↓Keeps.upd_iff]

theorem chgLfmDone_keeps {z : State} {ron : Vector (List (Int × Int)) 4} {qg : Vector (List Nat) 4} {s : State} (hk
    : Keeps z s) : Keeps z (chgLfmDone ron qg s) := by
  unfold chgLfmDone
  with_reducible repeat' first | assumption | apply Keeps.ite | simp only [↓Keeps.upd_iff] | apply cisSet_keeps

theorem chgCctl_keeps {z : State} {v : Nat} {s : State} (hk : Keeps z s) : Keeps z (chgCctl v s) := by
  unfold chgCctl
  with_reducible repeat' first | assumption | apply Keeps.ite | simp only [↓Keeps.upd_iff] | apply chgRbStopAt_keeps
                               | apply chgRbgo_keeps

theorem chgCfltWrite_keeps {z : State} {v : Nat} {s : State} (hk : Keeps z s) : Keeps z (chgCfltWrite v s) := by
  unfold chgCfltWrite
  with_reducible repeat' first | assumption | apply Keeps.ite | simp only [↓Keeps.upd_iff] | apply cisSet_keeps

theorem chgWrite_keeps {z : State} {off : Nat} {v : Nat} {s : State} (hk : Keeps z s) : Keeps z (chgWrite off v s)
    := by
  unfold chgWrite
  with_reducible repeat' first | assumption | apply Keeps.ite | simp only [↓Keeps.upd_iff] | apply chgCctl_keeps
                               | apply chgCfltWrite_keeps | apply socCross_keeps | apply rcClamp_keeps

theorem tisSet_keeps {z : State} {m : Nat} {s : State} (hk : Keeps z s) : Keeps z (tisSet m s) := by
  unfold tisSet
  with_reducible repeat' first | assumption | apply Keeps.ite | simp only [↓Keeps.upd_iff]

theorem tfltSet_keeps {z : State} {m : Nat} {s : State} (hk : Keeps z s) : Keeps z (tfltSet m s) := by
  unfold tfltSet
  with_reducible repeat' first | assumption | apply Keeps.ite | simp only [↓Keeps.upd_iff]

theorem tripLines_keeps {z : State} {s : State} (hk : Keeps z s) : Keeps z (tripLines s) := by
  unfold tripLines
  with_reducible repeat' first | assumption | apply Keeps.ite | simp only [↓Keeps.upd_iff]

theorem tripReading_keeps {z : State} {g : Nat → Nat} {i : Nat} {r : Option Int} {s : State} (hk : Keeps z s) :
    Keeps z (tripReading g i r s) := by
  unfold tripReading
  with_reducible repeat' first | assumption | apply Keeps.ite | simp only [↓Keeps.upd_iff]

theorem anaPut_keeps {z : State} {n : Fin 8} {x : Int} {s : State} (hk : Keeps z s) : Keeps z (anaPut n x s) := by
  unfold anaPut
  with_reducible repeat' first | assumption | apply Keeps.ite | simp only [↓Keeps.upd_iff]

theorem fansTripped_keeps {z : State} {s : State} (hk : Keeps z s) : Keeps z (fansTripped s) := by
  unfold fansTripped
  with_reducible repeat' first | assumption | apply Keeps.ite | simp only [↓Keeps.upd_iff]

theorem chgTripped_keeps {z : State} {s : State} (hk : Keeps z s) : Keeps z (chgTripped s) := by
  unfold chgTripped
  with_reducible repeat' first | assumption | apply Keeps.ite | simp only [↓Keeps.upd_iff] | apply rbHalt_keeps
                               | apply chgGatesOff_keeps | apply raiseWake_keeps | apply setHint_keeps
                               | apply cisSet_keeps

theorem thaTrip_keeps {z : State} {n : Fin 8} {x : Int} {s0 : State} (hk : Keeps z s0) : Keeps z (thaTrip n x s0)
    := by
  unfold thaTrip
  with_reducible repeat' first | assumption | apply Keeps.ite | simp only [↓Keeps.upd_iff] | apply anaPut_keeps
                               | apply tripLines_keeps | apply tisSet_keeps | apply tfltSet_keeps | apply logRec_keeps
                               | apply raiseWake_keeps | apply setHint_keeps | apply fansTripped_keeps
                               | apply chgTripped_keeps

theorem tripRelease_keeps {z : State} {n : Fin 8} {s : State} (hk : Keeps z s) : Keeps z (tripRelease n s) := by
  unfold tripRelease
  with_reducible repeat' first | assumption | apply Keeps.ite | simp only [↓Keeps.upd_iff] | apply setHint_keeps
                               | apply logRec_keeps | apply tripLines_keeps | apply tisSet_keeps

theorem thaTripClear_keeps {z : State} {n : Fin 8} {x : Int} {s0 : State} (hk : Keeps z s0) : Keeps z (thaTripClear
    n x s0) := by
  unfold thaTripClear
  with_reducible repeat' first | assumption | apply Keeps.ite | simp only [↓Keeps.upd_iff] | apply anaPut_keeps
                               | apply tripRelease_keeps

theorem tractWrite_keeps {z : State} {v : Nat} {s : State} (hk : Keeps z s) : Keeps z (tractWrite v s) := by
  unfold tractWrite
  with_reducible repeat' first | assumption | apply Keeps.ite | simp only [↓Keeps.upd_iff] | apply tripRelease_keeps
                               | apply tisSet_keeps | refine Keeps.foldl _ ?_ (fun _ _ => ?_) | exact Keeps.refl _

theorem fanUpdate_keeps {z : State} {n : Fin 4} {s : State} (hk : Keeps z s) : Keeps z (fanUpdate n s) := by
  unfold fanUpdate
  with_reducible repeat' first | assumption | apply Keeps.ite | simp only [↓Keeps.upd_iff]
                               | refine Keeps.foldl _ ?_ (fun _ _ => ?_) | exact Keeps.refl _ | dsimp only | split

theorem thaLoad_keeps {z : State} {s : State} (hk : Keeps z s) : Keeps z (thaLoad s) := by
  unfold thaLoad
  with_reducible repeat' first | assumption | apply Keeps.ite | simp only [↓Keeps.upd_iff] | apply tripLines_keeps
                               | apply fanUpdate_keeps | apply fansTripped_keeps | apply chgTripped_keeps
                               | refine Keeps.foldl _ ?_ (fun _ _ => ?_) | exact Keeps.refl _ | dsimp only | split

theorem thaApply_keeps {z : State} {s : State} (hk : Keeps z s) : Keeps z (thaApply s) := by
  unfold thaApply
  with_reducible repeat' first | assumption | apply Keeps.ite | simp only [↓Keeps.upd_iff] | apply thaLoad_keeps

theorem thaRoundStart_keeps {z : State} {s : State} (hk : Keeps z s) : Keeps z (thaRoundStart s) := by
  unfold thaRoundStart
  with_reducible repeat' first | assumption | apply Keeps.ite | simp only [↓Keeps.upd_iff] | apply thaLoad_keeps
                               | apply tisSet_keeps

theorem thaAnResolve_keeps {z : State} {uv : Vector Nat 16} {s : State} (hk : Keeps z s) : Keeps z (thaAnResolve uv
    s) := by
  unfold thaAnResolve
  with_reducible repeat' first | assumption | apply Keeps.ite | simp only [↓Keeps.upd_iff] | apply tripReading_keeps
                               | apply ltinSet_keeps | apply raiseWake_keeps | refine Keeps.foldl _ ?_ (fun _ _ => ?_)
                               | exact Keeps.refl _

theorem thaWatchLatch_keeps {z : State} {s : State} (hk : Keeps z s) : Keeps z (thaWatchLatch s) := by
  unfold thaWatchLatch
  with_reducible repeat' first | assumption | apply Keeps.ite | simp only [↓Keeps.upd_iff]

theorem thaSensor_keeps {z : State} {src : Fin 9} {v1 : Nat} {v2 : Nat} {v3 : Nat} {die : Int} {s : State} (hk :
    Keeps z s) : Keeps z (thaSensor src v1 v2 v3 die s) := by
  unfold thaSensor
  with_reducible repeat' first | assumption | apply Keeps.ite | simp only [↓Keeps.upd_iff] | apply tripReading_keeps

theorem thaSensorFault_keeps {z : State} {src : Fin 9} {s : State} (hk : Keeps z s) : Keeps z (thaSensorFault src
    s) := by
  unfold thaSensorFault
  with_reducible repeat' first | assumption | apply Keeps.ite | simp only [↓Keeps.upd_iff] | apply logRec_keeps
                               | apply tisSet_keeps | apply tfltSet_keeps

theorem vtSet_keeps {z : State} {n : Fin 4} {v : Nat} {s : State} (hk : Keeps z s) : Keeps z (vtSet n v s) := by
  unfold vtSet
  with_reducible repeat' first | assumption | apply Keeps.ite | simp only [↓Keeps.upd_iff] | apply tripReading_keeps

theorem vtStale_keeps {z : State} {n : Fin 4} {s : State} (hk : Keeps z s) : Keeps z (vtStale n s) := by
  unfold vtStale
  with_reducible repeat' first | assumption | apply Keeps.ite | simp only [↓Keeps.upd_iff] | apply logRec_keeps
                               | apply tisSet_keeps | apply tfltSet_keeps | apply tripReading_keeps

theorem fanPwm_keeps {z : State} {n : Fin 4} {s : State} (hk : Keeps z s) : Keeps z (fanPwm n s) := by
  unfold fanPwm
  with_reducible repeat' first | assumption | apply Keeps.ite | simp only [↓Keeps.upd_iff]

theorem fanTach_keeps {z : State} {n : Fin 4} {ck : Nat} {spans : Bool} {s : State} (hk : Keeps z s) : Keeps z
    (fanTach n ck spans s) := by
  unfold fanTach
  with_reducible repeat' first | assumption | apply Keeps.ite | simp only [↓Keeps.upd_iff]

theorem fanZero_keeps {z : State} {n : Fin 4} {s : State} (hk : Keeps z s) : Keeps z (fanZero n s) := by
  unfold fanZero
  with_reducible repeat' first | assumption | apply Keeps.ite | simp only [↓Keeps.upd_iff]

theorem fanStall_keeps {z : State} {n : Fin 4} {s : State} (hk : Keeps z s) : Keeps z (fanStall n s) := by
  unfold fanStall
  with_reducible repeat' first | assumption | apply Keeps.ite | simp only [↓Keeps.upd_iff] | apply setHint_keeps
                               | apply logRec_keeps | apply tisSet_keeps | apply tfltSet_keeps

theorem fanKickEnd_keeps {z : State} {n : Fin 4} {s : State} (hk : Keeps z s) : Keeps z (fanKickEnd n s) := by
  unfold fanKickEnd
  with_reducible repeat' first | assumption | apply Keeps.ite | simp only [↓Keeps.upd_iff]

theorem thaWrite_keeps {z : State} {off : Nat} {v : Nat} {s : State} (hk : Keeps z s) : Keeps z (thaWrite off v s)
    := by
  unfold thaWrite
  with_reducible repeat' first | assumption | apply Keeps.ite | simp only [↓Keeps.upd_iff] | apply tractWrite_keeps
                               | apply vtSet_keeps

theorem putSmb_keeps {z : State} {c : Fin 4} {q : Smb} {s : State} (hk : Keeps z s) : Keeps z (putSmb c q s) := by
  unfold putSmb
  with_reducible repeat' first | assumption | apply Keeps.ite | simp only [↓Keeps.upd_iff]

theorem smbGo_keeps {z : State} {c : Fin 4} {prot : Nat} {s : State} (hk : Keeps z s) : Keeps z (smbGo c prot s) := by
  unfold smbGo
  with_reducible repeat' first | assumption | apply Keeps.ite | simp only [↓Keeps.upd_iff] | apply putSmb_keeps

theorem smbEnd_keeps {z : State} {c : Fin 4} {code : Nat} {bcnt : Nat} {s : State} (hk : Keeps z s) : Keeps z
    (smbEnd c code bcnt s) := by
  unfold smbEnd
  with_reducible repeat' first | assumption | apply Keeps.ite | apply putSmb_keeps

theorem smbFinish_keeps {z : State} {c : Fin 4} {ackA : Bool} {ackB : Bool} {acked : Nat} {rx : List Byte} {stuck :
    Bool} {s : State} (hk : Keeps z s) : Keeps z (smbFinish c ackA ackB acked rx stuck s) := by
  unfold smbFinish
  with_reducible repeat' first | assumption | apply Keeps.ite | apply smbEnd_keeps
                               | apply putSmb_keeps | dsimp only | split

theorem smbEarly_keeps {z : State} {c : Fin 4} {code : Nat} {bcnt : Nat} {s : State} (hk : Keeps z s) : Keeps z
    (smbEarly c code bcnt s) := by
  unfold smbEarly
  with_reducible repeat' first | assumption | apply Keeps.ite | simp only [↓Keeps.upd_iff] | apply smbEnd_keeps

theorem smbAbort_keeps {z : State} {c : Fin 4} {s : State} (hk : Keeps z s) : Keeps z (smbAbort c s) := by
  unfold smbAbort
  with_reducible repeat' first | assumption | apply Keeps.ite | simp only [↓Keeps.upd_iff] | apply smbEnd_keeps

theorem smbNotify_keeps {z : State} {c : Fin 4} {adr : Byte} {dat : Half} {s : State} (hk : Keeps z s) : Keeps z
    (smbNotify c adr dat s) := by
  unfold smbNotify
  with_reducible repeat' first | assumption | apply Keeps.ite | simp only [↓Keeps.upd_iff] | apply putSmb_keeps

theorem smbBus_keeps {z : State} {c : Fin 4} {start : Bool} {s : State} (hk : Keeps z s) : Keeps z (smbBus c start
    s) := by
  unfold smbBus
  with_reducible repeat' first | assumption | apply Keeps.ite | apply putSmb_keeps

theorem smbRead_keeps {z : State} {c : Fin 4} {off : Nat} {s : State} (hk : Keeps z s) : Keeps z (smbRead c off
    s).1 := by
  unfold smbRead
  with_reducible repeat' first | assumption | apply Keeps.ite | apply Keeps.ite_fst | apply putSmb_keeps

theorem smbWrite_keeps {z : State} {c : Fin 4} {off : Nat} {v : Nat} {s : State} (hk : Keeps z s) : Keeps z
    (smbWrite c off v s) := by
  unfold smbWrite
  with_reducible repeat' first | assumption | apply Keeps.ite | simp only [↓Keeps.upd_iff] | apply putSmb_keeps
                               | apply smbGo_keeps | apply smbAbort_keeps

theorem putChan_keeps {z : State} {c : Nat} {x : Chan} {s : State} (hk : Keeps z s) : Keeps z (putChan c x s) := by
  unfold putChan
  with_reducible repeat' first | assumption | apply Keeps.ite | simp only [↓Keeps.upd_iff]

theorem putEngMb_keeps {z : State} {e : Fin 6} {q : EngMb} {s : State} (hk : Keeps z s) : Keeps z (putEngMb e q s)
    := by
  unfold putEngMb
  with_reducible repeat' first | assumption | apply Keeps.ite | simp only [↓Keeps.upd_iff]

theorem hintPorts_keeps {z : State} {c : Nat} {s : State} (hk : Keeps z s) : Keeps z (hintPorts c s) := by
  unfold hintPorts
  with_reducible repeat' first | assumption | apply Keeps.ite | simp only [↓Keeps.upd_iff] | apply setHintP_keeps

theorem sendPerform_keeps {z : State} {c : Nat} {stamp : Nat} {len : Nat} {buf : Nat → Nat} {s : State} (hk : Keeps
    z s) : Keeps z (sendPerform c stamp len buf s) := by
  unfold sendPerform
  with_reducible repeat' first | assumption | apply Keeps.ite | simp only [↓Keeps.upd_iff] | apply putChan_keeps
                               | apply hintPorts_keeps

theorem sendColl_keeps {z : State} {c : Nat} {s : State} (hk : Keeps z s) : Keeps z (sendColl c s) := by
  unfold sendColl
  with_reducible repeat' first | assumption | apply Keeps.ite | apply putChan_keeps

theorem releasePerform_keeps {z : State} {c : Nat} {s : State} (hk : Keeps z s) : Keeps z (releasePerform c s) := by
  unfold releasePerform
  with_reducible repeat' first | assumption | apply Keeps.ite | simp only [↓Keeps.upd_iff] | apply putChan_keeps
                               | apply hintPorts_keeps

theorem engSend_keeps {z : State} {e : Nat} {c : Nat} {len : Nat} {buf : Nat → Nat} {s : State} (hk : Keeps z s) :
    Keeps z (engSend e c len buf s).1 := by
  unfold engSend
  with_reducible repeat' first | assumption | apply Keeps.ite | apply Keeps.ite_fst | apply sendColl_keeps
                               | apply sendPerform_keeps

theorem engRelease_keeps {z : State} {c : Nat} {s : State} (hk : Keeps z s) : Keeps z (engRelease c s).1 := by
  unfold engRelease
  with_reducible repeat' first | assumption | apply Keeps.ite | apply Keeps.ite_fst | apply releasePerform_keeps

theorem engReleaseSent_keeps {z : State} {e : Fin 6} {s : State} (hk : Keeps z s) : Keeps z (engReleaseSent e s) := by
  unfold engReleaseSent
  with_reducible repeat' first | assumption | apply Keeps.ite | apply putEngMb_keeps

theorem ringHost_keeps {z : State} {p : Port} {k : Nat} {s : State} (hk : Keeps z s) : Keeps z (ringHost p k s) := by
  unfold ringHost
  with_reducible repeat' first | assumption | apply Keeps.ite | simp only [↓Keeps.upd_iff] | apply setHintP_keeps

theorem ringEngine_keeps {z : State} {p : Port} {k : Nat} {s : State} (hk : Keeps z s) : Keeps z (ringEngine p k s)
    := by
  unfold ringEngine
  with_reducible repeat' first | assumption | apply Keeps.ite | simp only [↓Keeps.upd_iff] | apply raiseWake_keeps

theorem dbClrHost_keeps {z : State} {p : Port} {all : Bool} {k : Nat} {s : State} (hk : Keeps z s) : Keeps z
    (dbClrHost p all k s) := by
  unfold dbClrHost
  with_reducible repeat' first | assumption | apply Keeps.ite | simp only [↓Keeps.upd_iff]

theorem dbClrEng_keeps {z : State} {e : Fin 6} {v : Nat} {s : State} (hk : Keeps z s) : Keeps z (dbClrEng e v s) := by
  unfold dbClrEng
  with_reducible repeat' first | assumption | apply Keeps.ite | simp only [↓Keeps.upd_iff]

theorem roleMapSet_keeps {z : State} {r : Fin 6} {e : Nat} {s : State} (hk : Keeps z s) : Keeps z (roleMapSet r e
    s) := by
  unfold roleMapSet
  with_reducible repeat' first | assumption | apply Keeps.ite | simp only [↓Keeps.upd_iff] | apply logRec_keeps

theorem embRead_keeps {z : State} {e : Fin 6} {s : State} (hk : Keeps z s) : Keeps z (embRead e s).1 := by
  unfold embRead
  with_reducible repeat' first | assumption | apply Keeps.ite | apply Keeps.ite_fst | apply putEngMb_keeps

theorem embWrite_keeps {z : State} {e : Fin 6} {v : Nat} {s : State} (hk : Keeps z s) : Keeps z (embWrite e v s) := by
  unfold embWrite
  with_reducible repeat' first | assumption | apply Keeps.ite | apply putEngMb_keeps

theorem embCmd_keeps {z : State} {e : Fin 6} {v : Nat} {s : State} (hk : Keeps z s) : Keeps z (embCmd e v s) := by
  unfold embCmd
  with_reducible repeat' first | assumption | apply Keeps.ite | apply Keeps.ite_fst | simp only [↓Keeps.upd_iff]
                               | apply putEngMb_keeps | apply engSend_keeps | apply ringHost_keeps
                               | apply engRelease_keeps | apply putChan_keeps

theorem mbxWrite_keeps {z : State} {e : Fin 6} {off : Nat} {v : Nat} {s : State} (hk : Keeps z s) : Keeps z
    (mbxWrite e off v s) := by
  unfold mbxWrite
  with_reducible repeat' first | assumption | apply Keeps.ite | simp only [↓Keeps.upd_iff] | apply putEngMb_keeps
                               | apply putChan_keeps | apply embWrite_keeps | apply embCmd_keeps
                               | apply dbClrEng_keeps | apply ringHost_keeps | apply roleMapSet_keeps

theorem mbDataRead_keeps {z : State} {p : Port} {s : State} (hk : Keeps z s) : Keeps z (mbDataRead p s).1 := by
  unfold mbDataRead
  with_reducible repeat' first | assumption | apply Keeps.ite | apply Keeps.ite_fst | apply putPort_keeps

theorem mbDataWrite_keeps {z : State} {p : Port} {v : Nat} {s : State} (hk : Keeps z s) : Keeps z (mbDataWrite p v
    s) := by
  unfold mbDataWrite
  with_reducible repeat' first | assumption | apply Keeps.ite | apply putPort_keeps

theorem mbselWrite_keeps {z : State} {p : Port} {v : Nat} {s : State} (hk : Keeps z s) : Keeps z (mbselWrite p v s)
    := by
  unfold mbselWrite
  with_reducible repeat' first | assumption | apply Keeps.ite | apply putPort_keeps

theorem mbSend_keeps {z : State} {p : Port} {priv : Bool} {v : Nat} {s : State} (hk : Keeps z s) : Keeps z (mbSend
    p priv v s).1 := by
  unfold mbSend
  with_reducible repeat' first | assumption | apply Keeps.ite | apply Keeps.ite_fst | apply releasePerform_keeps
                               | apply sendPerform_keeps | apply sendColl_keeps

theorem lockAcquire_keeps {z : State} {m : Nat} {l : Nat} {s : State} (hk : Keeps z s) : Keeps z (lockAcquire m l
    s).1 := by
  unfold lockAcquire
  with_reducible repeat' first | assumption | apply Keeps.ite | apply Keeps.ite_fst | simp only [↓Keeps.upd_iff]
                               | dsimp only | split

theorem lockContend_keeps {z : State} {ms : List Nat} {l : Nat} {s : State} (hk : Keeps z s) : Keeps z (lockContend
    ms l s) := by
  unfold lockContend
  with_reducible repeat' first | assumption | apply Keeps.ite | simp only [↓Keeps.upd_iff] | dsimp only | split

theorem lockFree_keeps {z : State} {l : Nat} {s : State} (hk : Keeps z s) : Keeps z (lockFree l s) := by
  unfold lockFree
  with_reducible repeat' first | assumption | apply Keeps.ite | simp only [↓Keeps.upd_iff]

theorem locksRelease_keeps {z : State} {m : Nat} {s : State} (hk : Keeps z s) : Keeps z (locksRelease m s) := by
  unfold locksRelease
  with_reducible repeat' first | assumption | apply Keeps.ite | simp only [↓Keeps.upd_iff]

theorem lkRel_keeps {z : State} {e : Fin 6} {l : Nat} {s : State} (hk : Keeps z s) : Keeps z (lkRel e l s) := by
  unfold lkRel
  with_reducible repeat' first | assumption | apply Keeps.ite | simp only [↓Keeps.upd_iff] | apply lockFree_keeps

theorem lkForce_keeps {z : State} {e : Fin 6} {l : Nat} {s : State} (hk : Keeps z s) : Keeps z (lkForce e l s) := by
  unfold lkForce
  with_reducible repeat' first | assumption | apply Keeps.ite | simp only [↓Keeps.upd_iff] | apply logRec_keeps
                               | apply lockFree_keeps | dsimp only | split

theorem lckWrite_keeps {z : State} {e : Fin 6} {off : Nat} {v : Nat} {s : State} (hk : Keeps z s) : Keeps z
    (lckWrite e off v s) := by
  unfold lckWrite
  with_reducible repeat' first | assumption | apply Keeps.ite | simp only [↓Keeps.upd_iff] | apply lkRel_keeps
                               | apply lkForce_keeps

theorem lkAcq_keeps {z : State} {e : Fin 6} {s : State} (hk : Keeps z s) : Keeps z (lkAcq e s).1 := by
  unfold lkAcq
  with_reducible repeat' first | assumption | apply Keeps.ite | apply Keeps.ite_fst | apply lockAcquire_keeps

theorem bmkApply_keeps {z : State} {s : State} (hk : Keeps z s) : Keeps z (bmkApply s) := by
  unfold bmkApply
  with_reducible repeat' first | assumption | apply Keeps.ite | simp only [↓Keeps.upd_iff] | dsimp only | split

theorem planStep_keeps {z : State} {n : Fin 11} {up : Bool} {s : State} (hk : Keeps z s) : Keeps z (planStep n up
    s) := by
  unfold planStep
  with_reducible repeat' first | assumption | apply Keeps.ite | simp only [↓Keeps.upd_iff] | apply logRec_keeps

theorem bboundWrite_keeps {z : State} {v : Nat} {s : State} (hk : Keeps z s) : Keeps z (bboundWrite v s) := by
  unfold bboundWrite
  with_reducible repeat' first | assumption | apply Keeps.ite | simp only [↓Keeps.upd_iff] | apply logRec_keeps
                               | refine Keeps.foldl _ ?_ (fun _ _ => ?_) | exact Keeps.refl _

theorem restoreClose_keeps {z : State} {s : State} (hk : Keeps z s) : Keeps z (restoreClose s) := by
  unfold restoreClose
  with_reducible repeat' first | assumption | apply Keeps.ite | simp only [↓Keeps.upd_iff]

theorem bmkWrite_keeps {z : State} {off : Nat} {v : Nat} {s : State} (hk : Keeps z s) : Keeps z (bmkWrite off v s)
    := by
  unfold bmkWrite
  with_reducible repeat' first | assumption | apply Keeps.ite | simp only [↓Keeps.upd_iff] | apply restoreClose_keeps
                               | apply planStep_keeps | apply bboundWrite_keeps

theorem bmkMonitor_keeps {z : State} {slack : Vector Half 4} {mv : Half} {t : Half} {s : State} (hk : Keeps z s) :
    Keeps z (bmkMonitor slack mv t s) := by
  unfold bmkMonitor
  with_reducible repeat' first | assumption | apply Keeps.ite | simp only [↓Keeps.upd_iff]

theorem bmkMinute_keeps {z : State} {run : Option Nat} {s : State} (hk : Keeps z s) : Keeps z (bmkMinute run s) := by
  unfold bmkMinute
  with_reducible repeat' first | assumption | apply Keeps.ite | simp only [↓Keeps.upd_iff]

theorem bmkHour_keeps {z : State} {s : State} (hk : Keeps z s) : Keeps z (bmkHour s) := by
  unfold bmkHour
  with_reducible repeat' first | assumption | apply Keeps.ite | simp only [↓Keeps.upd_iff]

theorem gpioPins_keeps {z : State} {v : BitVec 4} {s : State} (hk : Keeps z s) : Keeps z (gpioPins v s) := by
  unfold gpioPins
  with_reducible repeat' first | assumption | apply Keeps.ite | simp only [↓Keeps.upd_iff]

theorem bankSupply_keeps {z : State} {b : Fin 6} {up : Bool} {s : State} (hk : Keeps z s) : Keeps z (bankSupply b
    up s) := by
  unfold bankSupply
  with_reducible repeat' first | assumption | apply Keeps.ite | simp only [↓Keeps.upd_iff]

theorem rtcTick_keeps {z : State} {s : State} (hk : Keeps z s) : Keeps z (rtcTick s) := by
  unfold rtcTick
  with_reducible repeat' first | assumption | apply Keeps.ite | simp only [↓Keeps.upd_iff]

theorem flashCmd_keeps {z : State} {cmd : Nat} {s : State} (hk : Keeps z s) : Keeps z (flashCmd cmd s) := by
  unfold flashCmd
  repeat' first | with_reducible exact hk | with_reducible apply Keeps.ite | simp only [↓Keeps.upd_iff]
                | exact Keeps.updFls hk rfl

theorem flashPut_wf {m : List Host.Cell} (a v : Nat) (h : Memory.wf 0xFF m = true) : Memory.wf 0xFF (flashPut m a
    v) = true :=
  memory_spSet_wf _ _ h

theorem flashErase_wf {m : List Host.Cell} (a : Nat) (h : Memory.wf 0xFF m = true) : Memory.wf 0xFF (flashErase m
    a) = true :=
  spWfFrom_filter _ h

theorem flashProgram_wf {m : List Host.Cell} (page : Sparse Nat) (a : Nat) (h : Memory.wf 0xFF m = true) :
    Memory.wf 0xFF (flashProgram m page a) = true :=
  memory_foldl_wf _ (fun _ _ h => memory_spSet_wf _ _ h) _ _ h

theorem flashTorn_wf {m : List Host.Cell} (n a len : Nat) (h : Memory.wf 0xFF m = true) :
    Memory.wf 0xFF (flashTorn n a len m) = true :=
  memory_foldl_wf _ (fun _ _ h => memory_spSet_wf _ _ h) _ _ h

theorem flashDone_keeps {z : State} {ok : Bool} {s : State} (hk : Keeps z s) : Keeps z (flashDone ok s) := by
  unfold flashDone
  dsimp only
  split
  · exact hk
  · refine Keeps.updMem hk (fun w => ⟨w.1, w.2.1, ?_⟩)
    split
    · split
      · exact flashErase_wf _ w.2.2
      · with_reducible exact flashTorn_wf _ _ _ w.2.2
    · split
      · split
        · exact flashProgram_wf _ _ w.2.2
        · with_reducible exact flashTorn_wf _ _ _ w.2.2
      · split <;> exact w.2.2

theorem gpioRead_keeps {z : State} {off : Nat} {s : State} (hk : Keeps z s) : Keeps z (gpioRead off s).1 := by
  unfold gpioRead
  split
  · exact Keeps.updFls hk rfl
  · exact hk

theorem gpioWrite_keeps {z : State} {off : Nat} {v : Nat} {s : State} (hk : Keeps z s) : Keeps z (gpioWrite off v
    s) := by
  unfold gpioWrite
  repeat' first | with_reducible exact hk | with_reducible apply Keeps.ite | simp only [↓Keeps.upd_iff]
                | with_reducible apply flashCmd_keeps | exact Keeps.updFls hk rfl

theorem shmPut_keeps {z : State} {a : Nat} {v : Nat} {s : State} (hk : Keeps z s) : Keeps z (shmPut a v s) :=
  Keeps.updMem hk (fun w => ⟨memory_spSet_wf _ _ w.1, w.2⟩)

theorem shmPutWord_keeps {z : State} {w : Nat} {v : Nat} {s : State} (hk : Keeps z s) : Keeps z (shmPutWord w v s)
    := by
  unfold shmPutWord
  with_reducible repeat' first | assumption | apply Keeps.ite | simp only [↓Keeps.upd_iff] | apply shmPut_keeps

theorem cpyApply_keeps {z : State} {s : State} (hk : Keeps z s) : Keeps z (cpyApply s) := by
  unfold cpyApply
  with_reducible repeat' first | assumption | apply Keeps.ite | simp only [↓Keeps.upd_iff]
                               | refine Keeps.foldl _ ?_ (fun _ _ => ?_) | exact Keeps.refl _ | dsimp only | split

theorem cpyEnd_keeps {z : State} {j : Nat} {code : Nat} {s : State} (hk : Keeps z s) : Keeps z (cpyEnd j code s) := by
  unfold cpyEnd
  with_reducible repeat' first | assumption | apply Keeps.ite | simp only [↓Keeps.upd_iff] | apply cpyApply_keeps

theorem cpyGo_keeps {z : State} {e : Fin 6} {mask : Nat} {s : State} (hk : Keeps z s) : Keeps z (cpyGo e mask s) := by
  unfold cpyGo
  with_reducible repeat' first | assumption | apply Keeps.ite | simp only [↓Keeps.upd_iff] | apply cpyEnd_keeps
                               | refine Keeps.foldl _ ?_ (fun _ _ => ?_) | exact Keeps.refl _ | dsimp only | split

theorem cpyBegin_keeps {z : State} {s : State} (hk : Keeps z s) : Keeps z (cpyBegin s) := by
  unfold cpyBegin
  with_reducible repeat' first | assumption | apply Keeps.ite | simp only [↓Keeps.upd_iff] | dsimp only | split

theorem cpyMove_keeps {z : State} {r : CpyRun} {k : Nat} {s : State} (hk : Keeps z s) : Keeps z (cpyMove r k s) := by
  unfold cpyMove
  with_reducible repeat' first | assumption | apply Keeps.ite | simp only [↓Keeps.upd_iff] | apply shmPutWord_keeps
                               | apply lgtBackWrite_keeps | refine Keeps.foldl _ ?_ (fun _ _ => ?_)
                               | exact Keeps.refl _

theorem cpyFinish_keeps {z : State} {s : State} (hk : Keeps z s) : Keeps z (cpyFinish s) := by
  unfold cpyFinish
  with_reducible repeat' first | assumption | apply Keeps.ite | apply Keeps.ite_fst
                               | apply cpyMove_keeps | apply cpyEnd_keeps | apply engSend_keeps | apply ringHost_keeps
                               | apply engRelease_keeps | dsimp only | split

theorem cpyStop_keeps {z : State} {mask : Nat} {s : State} (hk : Keeps z s) : Keeps z (cpyStop mask s) := by
  unfold cpyStop
  with_reducible repeat' first | assumption | apply Keeps.ite | simp only [↓Keeps.upd_iff] | apply cpyEnd_keeps
                               | apply cpyMove_keeps | refine Keeps.foldl _ ?_ (fun _ _ => ?_) | exact Keeps.refl _
                               | dsimp only | split

theorem cpyWrite_keeps {z : State} {e : Fin 6} {off : Nat} {v : Nat} {s : State} (hk : Keeps z s) : Keeps z
    (cpyWrite e off v s) := by
  unfold cpyWrite
  with_reducible repeat' first | assumption | apply Keeps.ite | simp only [↓Keeps.upd_iff] | apply cpyGo_keeps
                               | apply cpyStop_keeps

end Sys2Proof.Machine
end

