-- ==== Sys2Proof/Laws/KeepsEngine.lean ====
section
/-! SUPPORT. Each shared operation keeps the queue and the canonical memories: the engines, DCT, PRT and the I/O fabric. -/

namespace Sys2Proof.Machine

theorem putEng_keeps {z : State} {e : Fin 6} {q : Ceng} {s : State} (hk : Keeps z s) : Keeps z (putEng e q s) := by
  unfold putEng
  with_reducible repeat' first | assumption | apply Keeps.ite | simp only [↓Keeps.upd_iff]

theorem svcDrop_keeps {z : State} {e : Fin 6} {s : State} (hk : Keeps z s) : Keeps z (svcDrop e s) := by
  unfold svcDrop
  with_reducible repeat' first | assumption | apply Keeps.ite | simp only [↓Keeps.upd_iff] | apply setHintP_keeps
                               | refine Keeps.foldl _ ?_ (fun _ _ => ?_) | exact Keeps.refl _

theorem engStop_keeps {z : State} {e : Fin 6} {cause : Nat} {addr : Nat} {s : State} (hk : Keeps z s) : Keeps z
    (engStop e cause addr s) := by
  unfold engStop
  with_reducible repeat' first | assumption | apply Keeps.ite | simp only [↓Keeps.upd_iff] | apply putEng_keeps
                               | apply logRec_keeps | apply svcDrop_keeps

theorem kickStop_keeps {z : State} {e : Fin 6} {pc : Nat} {s : State} (hk : Keeps z s) : Keeps z (kickStop e pc s)
    := by
  unfold kickStop
  with_reducible repeat' first | assumption | apply Keeps.ite | simp only [↓Keeps.upd_iff] | apply engStop_keeps

theorem engEnter_keeps {z : State} {e : Fin 6} {f : TrapFrame} {s : State} (hk : Keeps z s) : Keeps z (engEnter e f
    s) := by
  unfold engEnter
  with_reducible repeat' first | assumption | apply Keeps.ite | simp only [↓Keeps.upd_iff] | apply putEng_keeps

theorem engTrap_keeps {z : State} {e : Fin 6} {vec : Nat} {word : Nat} {addr : Nat} {info : Nat} {s : State} (hk :
    Keeps z s) : Keeps z (engTrap e vec word addr info s) := by
  unfold engTrap
  with_reducible repeat' first | assumption | apply Keeps.ite | simp only [↓Keeps.upd_iff] | refine stopOnEdge_keeps (fun _ _ h => engStop_keeps h) ?_
                               | apply engEnter_keeps

theorem engSwTrap_keeps {z : State} {e : Fin 6} {word : Nat} {s : State} (hk : Keeps z s) : Keeps z (engSwTrap e
    word s) := by
  unfold engSwTrap
  with_reducible repeat' first | assumption | apply Keeps.ite | simp only [↓Keeps.upd_iff] | refine stopOnEdge_keeps (fun _ _ h => engStop_keeps h) ?_
                               | apply engEnter_keeps

theorem engIrq_keeps {z : State} {e : Fin 6} {word : Nat} {s : State} (hk : Keeps z s) : Keeps z (engIrq e word s)
    := by
  unfold engIrq
  with_reducible repeat' first | assumption | apply Keeps.ite | refine stopOnEdge_keeps (fun _ _ h => kickStop_keeps h) ?_
                               | apply engEnter_keeps | dsimp only | split

theorem engResume_keeps {z : State} {e : Fin 6} {word : Nat} {s : State} (hk : Keeps z s) : Keeps z (engResume e
    word s) := by
  unfold engResume
  with_reducible repeat' first | assumption | apply Keeps.ite | apply engEnter_keeps
                               | apply putEng_keeps | dsimp only | split

theorem afterKick_keeps {z : State} {e : Fin 6} {q : Ceng} {s1 : State} (hk : Keeps z s1) : Keeps z (afterKick e q
    s1) := by
  unfold afterKick
  with_reducible repeat' first | assumption | apply Keeps.ite | simp only [↓Keeps.upd_iff] | refine stopOnEdge_keeps (fun _ _ h => kickStop_keeps h) ?_

theorem issue_keeps {z : State} {e : Fin 6} {f : State → State} {s : State} (hf : ∀ x, Keeps z x → Keeps z (f x))
    (hk : Keeps z s) : Keeps z (issue e f s) := by
  unfold issue; dsimp only; split
  · exact hk
  · exact afterKick_keeps (Keeps.ite (engTrap_keeps hk) (hf _ (putEng_keeps hk)))

theorem issueReg_keeps {z : State} {e : Fin 6} {f : Ceng → Ceng} {s : State} (hk : Keeps z s) : Keeps z (issueReg e
    f s) := by
  unfold issueReg
  with_reducible repeat' first | assumption | apply Keeps.ite | refine issue_keeps (fun _ _ => ?_) ?_
                               | apply putEng_keeps

theorem issueAlu_keeps {z : State} {e : Fin 6} {d : Fin 16} {v : (Fin 16 → Nat) → Nat} {s : State} (hk : Keeps z s)
    : Keeps z (issueAlu e d v s) := by
  unfold issueAlu
  with_reducible repeat' first | assumption | apply Keeps.ite | simp only [↓Keeps.upd_iff] | apply issueReg_keeps

theorem engIllegal_keeps {z : State} {e : Fin 6} {word : Nat} {s : State} (hk : Keeps z s) : Keeps z (engIllegal e
    word s) := by
  unfold engIllegal
  with_reducible repeat' first | assumption | apply Keeps.ite | simp only [↓Keeps.upd_iff]
                               | refine issue_keeps (fun _ _ => ?_) ?_ | apply engTrap_keeps

theorem issueJump_keeps {z : State} {e : Fin 6} {word : Nat} {next : Ceng → Option Nat} {upd : Ceng → Ceng} {s :
    State} (hk : Keeps z s) : Keeps z (issueJump e word next upd s) := by
  unfold issueJump
  with_reducible repeat' first | assumption | apply Keeps.ite | refine issue_keeps (fun _ _ => ?_) ?_
                               | apply engTrap_keeps | apply putEng_keeps

theorem issueBranch_keeps {z : State} {e : Fin 6} {word : Nat} {taken : (Fin 16 → Nat) → Bool} {off : BitVec 8} {s
    : State} (hk : Keeps z s) : Keeps z (issueBranch e word taken off s) := by
  unfold issueBranch
  with_reducible repeat' first | assumption | apply Keeps.ite | simp only [↓Keeps.upd_iff] | apply issueJump_keeps

theorem prtSeal_keeps {z : State} {s : State} (hk : Keeps z s) : Keeps z (prtSeal s) := by
  unfold prtSeal
  with_reducible repeat' first | assumption | apply Keeps.ite | simp only [↓Keeps.upd_iff] | apply logRec_keeps

theorem issueJmp_keeps {z : State} {e : Fin 6} {t : Nat} {s : State} (hk : Keeps z s) : Keeps z (issueJmp e t s) := by
  unfold issueJmp
  with_reducible repeat' first | assumption | apply Keeps.ite | simp only [↓Keeps.upd_iff] | apply issueJump_keeps
                               | apply prtSeal_keeps

theorem issueRett_keeps {z : State} {e : Fin 6} {s : State} (hk : Keeps z s) : Keeps z (issueRett e s) := by
  unfold issueRett
  with_reducible repeat' first | assumption | apply Keeps.ite | refine issue_keeps (fun _ _ => ?_) ?_
                               | apply engTrap_keeps | apply putEng_keeps

theorem issueWait_keeps {z : State} {e : Fin 6} {s : State} (hk : Keeps z s) : Keeps z (issueWait e s) := by
  unfold issueWait
  with_reducible repeat' first | assumption | apply Keeps.ite | refine issue_keeps (fun _ _ => ?_) ?_
                               | apply engTrap_keeps | apply putEng_keeps

theorem issueRep_keeps {z : State} {e : Fin 6} {word : Nat} {unint : Bool} {count : Option Nat} {next : IWord} {s :
    State} (hk : Keeps z s) : Keeps z (issueRep e word unint count next s) := by
  unfold issueRep
  with_reducible repeat' first | assumption | apply Keeps.ite | refine issue_keeps (fun _ _ => ?_) ?_
                               | apply engTrap_keeps | apply putEng_keeps

theorem issueMtsDsb_keeps {z : State} {e : Fin 6} {word : Nat} {a : Fin 16} {s : State} (hk : Keeps z s) : Keeps z
    (issueMtsDsb e word a s) := by
  unfold issueMtsDsb
  with_reducible repeat' first | assumption | apply Keeps.ite | refine issue_keeps (fun _ _ => ?_) ?_
                               | apply engTrap_keeps | apply putEng_keeps

theorem dataStore_keeps {z : State} {e : Fin 6} {a v : Nat} {s t : State} (h : dataStore e a v s = .ok t) (hk :
    Keeps z s) :
    Keeps z t := by
  unfold dataStore at h
  split at h
  · cases h
    refine Keeps.updMem hk (fun w => ⟨w.1, fun n => ?_, w.2.2⟩)
    by_cases hn : n = e
    · subst hn; simpa using memory_spSet_wf _ _ (w.2.1 n)
    · have : ¬ (e : Nat) = n := fun h => hn (Fin.ext h.symm)
      simpa [Vector.getElem_set, this] using w.2.1 n
  · split at h
    · split at h
      · cases h; exact shmPut_keeps hk
      · cases h
    · cases h

theorem issueLoad_keeps {z : State} {e : Fin 6} {word : Nat} {d : Fin 16} {p : Fin 8} {disp : BitVec 8} {post :
    Bool} {s : State} (hk : Keeps z s) : Keeps z (issueLoad e word d p disp post s) := by
  unfold issueLoad
  with_reducible repeat' first | assumption | apply Keeps.ite
                               | refine issue_keeps (fun _ _ => ?_) ?_ | apply engTrap_keeps | apply putEng_keeps
                               | dsimp only | split

theorem issueStore_keeps {z : State} {e : Fin 6} {word : Nat} {g : Fin 16} {p : Fin 8} {disp : BitVec 8} {post :
    Bool} {s : State} (hk : Keeps z s) : Keeps z (issueStore e word g p disp post s) := by
  unfold issueStore
  with_reducible repeat' first | assumption | apply Keeps.ite
                               | refine issue_keeps (fun _ _ => ?_) ?_ | apply engTrap_keeps | apply putEng_keeps
                               | refine dataStore_keeps (by assumption) ?_ | dsimp only | split

theorem issueMvb_keeps {z : State} {e : Fin 6} {word : Nat} {a : Fin 8} {b : Fin 8} {s : State} (hk : Keeps z s) :
    Keeps z (issueMvb e word a b s) := by
  unfold issueMvb
  with_reducible repeat' first | assumption | apply Keeps.ite
                               | refine issue_keeps (fun _ _ => ?_) ?_ | apply engTrap_keeps | apply putEng_keeps
                               | refine dataStore_keeps (by assumption) ?_ | dsimp only | split

theorem issueIld_keeps {z : State} {e : Fin 6} {word : Nat} {d : Fin 16} {p : Fin 8} {sel : Fin 3} {s : State} (hk
    : Keeps z s) : Keeps z (issueIld e word d p sel s) := by
  unfold issueIld
  with_reducible repeat' first | assumption | apply Keeps.ite | refine issue_keeps (fun _ _ => ?_) ?_
                               | apply engTrap_keeps | apply putEng_keeps

theorem issueIst_keeps {z : State} {e : Fin 6} {word : Nat} {g : Fin 16} {p : Fin 8} {sel : Fin 3} {s : State} (hk
    : Keeps z s) : Keeps z (issueIst e word g p sel s) := by
  unfold issueIst
  with_reducible refine issue_keeps (fun x hx => ?_) hk
  dsimp only
  split
  · exact engTrap_keeps hx
  · refine putEng_keeps (Keeps.updMem hx (fun w => ⟨w.1, fun n => ?_, w.2.2⟩))
    by_cases hn : n = e
    · subst hn; simpa using w.2.1 n
    · have : ¬ (e : Nat) = n := fun h => hn (Fin.ext h.symm)
      simpa [Vector.getElem_set, this] using w.2.1 n

theorem wdKick_keeps {z : State} {e : Fin 6} {v : Nat} {s : State} (hk : Keeps z s) : Keeps z (wdKick e v s) := by
  unfold wdKick
  with_reducible repeat' first | assumption | apply Keeps.ite | apply putEng_keeps

theorem wdCtl_keeps {z : State} {e : Fin 6} {v : Nat} {s : State} (hk : Keeps z s) : Keeps z (wdCtl e v s) := by
  unfold wdCtl
  with_reducible repeat' first | assumption | apply Keeps.ite | apply putEng_keeps

theorem wdWarn_keeps {z : State} {e : Fin 6} {s : State} (hk : Keeps z s) : Keeps z (wdWarn e s) := by
  unfold wdWarn
  with_reducible repeat' first | assumption | apply Keeps.ite | apply putEng_keeps

theorem wdExpire_keeps {z : State} {e : Fin 6} {s : State} (hk : Keeps z s) : Keeps z (wdExpire e s) := by
  unfold wdExpire
  with_reducible repeat' first | assumption | apply Keeps.ite | simp only [↓Keeps.upd_iff] | apply engStop_keeps

theorem tmrExpire_keeps {z : State} {e : Fin 6} {n : Fin 2} {s : State} (hk : Keeps z s) : Keeps z (tmrExpire e n
    s) := by
  unfold tmrExpire
  with_reducible repeat' first | assumption | apply Keeps.ite | simp only [↓Keeps.upd_iff] | apply putEng_keeps

theorem xsigWrite_keeps {z : State} {e : Fin 6} {mask : Nat} {s : State} (hk : Keeps z s) : Keeps z (xsigWrite e
    mask s) := by
  unfold xsigWrite
  with_reducible repeat' first | assumption | apply Keeps.ite | simp only [↓Keeps.upd_iff]

theorem locWrite_keeps {z : State} {e : Fin 6} {off : Nat} {v : Nat} {s : State} (hk : Keeps z s) : Keeps z
    (locWrite e off v s) := by
  unfold locWrite
  with_reducible repeat' first | assumption | apply Keeps.ite | apply putEng_keeps | apply xsigWrite_keeps
                               | apply wdCtl_keeps | apply wdKick_keeps

theorem disSet_keeps {z : State} {m : Nat} {s : State} (hk : Keeps z s) : Keeps z (disSet m s) := by
  unfold disSet
  with_reducible repeat' first | assumption | apply Keeps.ite | simp only [↓Keeps.upd_iff]

theorem putDct_keeps {z : State} {q : Dct} {s : State} (hk : Keeps z s) : Keeps z (putDct q s) := by
  unfold putDct
  with_reducible repeat' first | assumption | apply Keeps.ite | simp only [↓Keeps.upd_iff]

theorem hintPwr_keeps {z : State} {s : State} (hk : Keeps z s) : Keeps z (hintPwr s) := by
  unfold hintPwr
  with_reducible repeat' first | assumption | apply Keeps.ite | simp only [↓Keeps.upd_iff] | apply setHint_keeps

theorem ioForget_keeps {z : State} {f : Nat → Nat → Bool} {s : State} (hk : Keeps z s) : Keeps z (ioForget f s) := by
  unfold ioForget
  with_reducible repeat' first | assumption | apply Keeps.ite | simp only [↓Keeps.upd_iff]

theorem engsReset_keeps {z : State} {d : Nat} {s : State} (hk : Keeps z s) : Keeps z (engsReset d s) := by
  refine Keeps.updMem hk (fun w => ⟨w.1, fun n => ?_, w.2.2⟩)
  simp only [Fin.getElem_fin, Vector.getElem_ofFn]
  split
  · rfl
  · exact w.2.1 n

theorem portsFloat_keeps {z : State} {s : State} (hk : Keeps z s) : Keeps z (portsFloat s) := by
  unfold portsFloat
  with_reducible repeat' first | assumption | apply Keeps.ite | simp only [↓Keeps.upd_iff]

theorem keyselReset_keeps {z : State} {s : State} (hk : Keeps z s) : Keeps z (keyselReset s) := by
  unfold keyselReset
  with_reducible repeat' first | assumption | apply Keeps.ite | simp only [↓Keeps.upd_iff]

theorem domReset_keeps {z : State} {d : Nat} {s : State} (hk : Keeps z s) : Keeps z (domReset d s) := by
  unfold domReset
  repeat' first | with_reducible assumption | with_reducible apply Keeps.ite | simp only [↓Keeps.upd_iff]
                | with_reducible apply ioForget_keeps | with_reducible apply engsReset_keeps
                | with_reducible apply keyselReset_keeps
                | exact Keeps.updMem (ioForget_keeps hk) (fun w => ⟨rfl, w.2⟩)

theorem domUp_keeps {z : State} {d : Nat} {s : State} (hk : Keeps z s) : Keeps z (domUp d s) := by
  unfold domUp
  with_reducible repeat' first | assumption | apply Keeps.ite | simp only [↓Keeps.upd_iff]

theorem engClamp_keeps {z : State} {e : Fin 6} {s : State} (hk : Keeps z s) : Keeps z (engClamp e s) := by
  unfold engClamp
  with_reducible repeat' first | assumption | apply Keeps.ite | apply svcDrop_keeps | apply locksRelease_keeps
                               | apply putEng_keeps

theorem powerDown_keeps {z : State} {d : Nat} {s : State} (hk : Keeps z s) : Keeps z (powerDown d s) := by
  unfold powerDown
  with_reducible repeat' first | assumption | apply Keeps.ite | simp only [↓Keeps.upd_iff] | apply engClamp_keeps
                               | apply keyLightEnd_keeps | apply portsFloat_keeps

theorem lgtPrepare_keeps {z : State} {s : State} (hk : Keeps z s) : Keeps z (lgtPrepare s) := by
  unfold lgtPrepare
  with_reducible repeat' first | assumption | apply Keeps.ite | apply lgtDark_keeps | apply lgtBlank_keeps
                               | apply putDct_keeps

theorem lgtResume_keeps {z : State} {s : State} (hk : Keeps z s) : Keeps z (lgtResume s) := by
  unfold lgtResume
  with_reducible repeat' first | assumption | apply Keeps.ite | simp only [↓Keeps.upd_iff] | apply putDct_keeps
                               | apply lgtBlank_keeps

theorem entryAccept_keeps {z : State} {r : DctReq} {s : State} (hk : Keeps z s) : Keeps z (entryAccept r s) := by
  unfold entryAccept
  with_reducible repeat' first | assumption | apply Keeps.ite | apply disSet_keeps | apply putDct_keeps

theorem entryDrop_keeps {z : State} {s : State} (hk : Keeps z s) : Keeps z (entryDrop s) := by
  unfold entryDrop
  with_reducible repeat' first | assumption | apply Keeps.ite | apply kscResume_keeps | apply putDct_keeps | apply lgtResume_keeps

theorem wakeStart_keeps {z : State} {bits : Nat} {s : State} (hk : Keeps z s) : Keeps z (wakeStart bits s) := by
  unfold wakeStart
  with_reducible repeat' first | assumption | apply Keeps.ite | simp only [↓Keeps.upd_iff]

theorem entryAbandon_keeps {z : State} {cause : Nat} {s : State} (hk : Keeps z s) : Keeps z (entryAbandon cause s)
    := by
  unfold entryAbandon
  with_reducible repeat' first | assumption | apply Keeps.ite | simp only [↓Keeps.upd_iff] | apply logRec_keeps
                               | apply disSet_keeps | apply entryDrop_keeps

theorem domStart_keeps {z : State} {d : Nat} {on : Bool} {by_ : Nat} {s : State} (hk : Keeps z s) : Keeps z
    (domStart d on by_ s) := by
  unfold domStart
  with_reducible repeat' first | assumption | apply Keeps.ite | apply putDct_keeps | apply disSet_keeps

theorem domRequest_keeps {z : State} {d : Nat} {on : Bool} {by_ : Nat} {s : State} (hk : Keeps z s) : Keeps z
    (domRequest d on by_ s) := by
  unfold domRequest
  with_reducible repeat' first | assumption | apply Keeps.ite | apply putDct_keeps | apply domStart_keeps

theorem takeDom_keeps {z : State} {s : State} (hk : Keeps z s) : Keeps z (takeDom s) := by
  unfold takeDom
  with_reducible repeat' first | assumption | apply Keeps.ite | apply domRequest_keeps
                               | apply putDct_keeps | dsimp only | split

theorem reqHold_keeps {z : State} {r : DctReq} {wakes : Nat} {s : State} (hk : Keeps z s) : Keeps z (reqHold r
    wakes s) := by
  unfold reqHold
  with_reducible repeat' first | assumption | apply Keeps.ite | apply putDct_keeps

theorem modeRequest_keeps {z : State} {r : DctReq} {s : State} (hk : Keeps z s) : Keeps z (modeRequest r s) := by
  unfold modeRequest
  with_reducible repeat' first | assumption | apply Keeps.ite | apply kscResume_keeps | apply wakeStart_keeps | apply entryAccept_keeps
                               | apply reqHold_keeps | apply entryAbandon_keeps | apply takeDom_keeps
                               | apply putDct_keeps | apply lgtResume_keeps

theorem d7Wanted_keeps {z : State} {s : State} (hk : Keeps z s) : Keeps z (d7Wanted s) := by
  unfold d7Wanted
  with_reducible repeat' first | assumption | apply Keeps.ite | apply putDct_keeps

theorem takeHeld_keeps {z : State} {s : State} (hk : Keeps z s) : Keeps z (takeHeld s) := by
  unfold takeHeld
  with_reducible repeat' first | assumption | apply Keeps.ite | apply modeRequest_keeps
                               | apply putDct_keeps | apply d7Wanted_keeps | apply takeDom_keeps | dsimp only | split

theorem gatherStart_keeps {z : State} {s : State} (hk : Keeps z s) : Keeps z (gatherStart s) := by
  unfold gatherStart
  with_reducible repeat' first | assumption | apply Keeps.ite | apply lgtPrepare_keeps | apply putDct_keeps
                               | apply logRec_keeps

theorem entryRefuse_keeps {z : State} {rdy : Bool} {drain : Bool} {s : State} (hk : Keeps z s) : Keeps z
    (entryRefuse rdy drain s) := by
  unfold entryRefuse
  with_reducible repeat' first | assumption | apply Keeps.ite | apply entryDrop_keeps
                               | apply putDct_keeps | apply disSet_keeps | apply hintPwr_keeps | apply takeHeld_keeps
                               | apply logRec_keeps | dsimp only | split

theorem listDown_keeps {z : State} {l : List Nat} {s : State} (hk : Keeps z s) : Keeps z (listDown l s) := by
  unfold listDown
  with_reducible repeat' first | assumption | apply Keeps.ite | simp only [↓Keeps.upd_iff] | apply powerDown_keeps
                               | refine Keeps.foldl _ ?_ (fun _ _ => ?_) | exact Keeps.refl _

theorem entryCommit_keeps {z : State} {s : State} (hk : Keeps z s) : Keeps z (entryCommit s) := by
  unfold entryCommit
  with_reducible repeat' first | assumption | apply Keeps.ite | simp only [↓Keeps.upd_iff] | apply putDct_keeps
                               | apply listDown_keeps | apply takeHeld_keeps | apply logRec_keeps | apply disSet_keeps
                               | dsimp only | split

theorem ckSwitch_keeps {z : State} {toPll : Bool} {s : State} (hk : Keeps z s) : Keeps z (ckSwitch toPll s) := by
  unfold ckSwitch
  with_reducible repeat' first | assumption | apply Keeps.ite | simp only [↓Keeps.upd_iff]

theorem fallbackEnd_keeps {z : State} {s : State} (hk : Keeps z s) : Keeps z (fallbackEnd s) := by
  unfold fallbackEnd
  with_reducible repeat' first | assumption | apply Keeps.ite | simp only [↓Keeps.upd_iff]

theorem ckChange_keeps {z : State} {s : State} (hk : Keeps z s) : Keeps z (ckChange s) := by
  unfold ckChange
  with_reducible repeat' first | assumption | apply Keeps.ite | simp only [↓Keeps.upd_iff] | apply ckSwitch_keeps
                               | apply fallbackEnd_keeps

theorem watchEnter_keeps {z : State} {s : State} (hk : Keeps z s) : Keeps z (watchEnter s) := by
  unfold watchEnter
  with_reducible repeat' first | assumption | apply Keeps.ite | simp only [↓Keeps.upd_iff] | apply thaWatchLatch_keeps
                               | apply abandonRun_keeps | apply hintPwr_keeps | apply disSet_keeps
                               | apply putDct_keeps | apply takeHeld_keeps | apply logRec_keeps

theorem shipEnter_keeps {z : State} {s : State} (hk : Keeps z s) : Keeps z (shipEnter s) := by
  unfold shipEnter
  with_reducible repeat' first | assumption | apply Keeps.ite | simp only [↓Keeps.upd_iff] | apply portsFloat_keeps

theorem domDone_keeps {z : State} {d : Nat} {by_ : Nat} {s : State} (hk : Keeps z s) : Keeps z (domDone d by_ s) := by
  unfold domDone
  with_reducible repeat' first | assumption | apply Keeps.ite | apply putDct_keeps | apply takeHeld_keeps
                               | apply logRec_keeps | apply disSet_keeps

theorem d7Done_keeps {z : State} {s : State} (hk : Keeps z s) : Keeps z (d7Done s) := by
  unfold d7Done
  with_reducible repeat' first | assumption | apply logRec_keeps | apply disSet_keeps | apply putDct_keeps

theorem d7Ready_keeps {z : State} {k : Nat} {s : State} (hk : Keeps z s) : Keeps z (d7Ready k s) := by
  unfold d7Ready
  with_reducible repeat' first | assumption | apply Keeps.ite | apply d7Done_keeps | apply domUp_keeps
                               | apply domReset_keeps | apply putDct_keeps

theorem stageReady_keeps {z : State} {own : Bool} {s : State} (hk : Keeps z s) : Keeps z (stageReady own s) := by
  unfold stageReady
  with_reducible repeat' first | assumption | apply d7Ready_keeps | apply d7Done_keeps | apply Keeps.ite | simp only [↓Keeps.upd_iff] | apply putDct_keeps
                               | apply domUp_keeps | apply domReset_keeps | apply domDone_keeps | dsimp only | split

theorem wakeDecide_keeps {z : State} {s : State} (hk : Keeps z s) : Keeps z (wakeDecide s) := by
  unfold wakeDecide
  with_reducible repeat' first | assumption | apply Keeps.ite | simp only [↓Keeps.upd_iff] | apply wakeStart_keeps
                               | apply entryAbandon_keeps | apply reqHold_keeps | apply putDct_keeps

theorem engRelease2_keeps {z : State} {e : Fin 6} {role : Nat} {cause : Nat} {s : State} (hk : Keeps z s) : Keeps z
    (engRelease2 e role cause s) := by
  unfold engRelease2
  with_reducible repeat' first | assumption | apply Keeps.ite | apply putEng_keeps

theorem wakeRoles_keeps {z : State} {s : State} (hk : Keeps z s) : Keeps z (wakeRoles s) := by
  unfold wakeRoles
  with_reducible repeat' first | assumption | apply Keeps.ite | apply roleMapSet_keeps | apply engRelease2_keeps
                               | refine Keeps.foldl _ ?_ (fun _ _ => ?_) | exact Keeps.refl _

theorem wakeDone_keeps {z : State} {s : State} (hk : Keeps z s) : Keeps z (wakeDone s) := by
  unfold wakeDone
  with_reducible repeat' first | assumption | apply Keeps.ite | apply hintPwr_keeps | apply disSet_keeps
                               | apply putDct_keeps | apply wakeRoles_keeps | apply logRec_keeps

theorem wakeComplete_keeps {z : State} {s : State} (hk : Keeps z s) : Keeps z (wakeComplete s) := by
  unfold wakeComplete
  with_reducible repeat' first | assumption | apply Keeps.ite | simp only [↓Keeps.upd_iff] | apply takeHeld_keeps
                               | apply wakeDone_keeps

theorem pllLossRec_keeps {z : State} {s : State} (hk : Keeps z s) : Keeps z (pllLossRec s) := by
  unfold pllLossRec
  with_reducible repeat' first | assumption | apply Keeps.ite | simp only [↓Keeps.upd_iff] | apply logRec_keeps

theorem wakeFallback_keeps {z : State} {s : State} (hk : Keeps z s) : Keeps z (wakeFallback s) := by
  unfold wakeFallback
  with_reducible repeat' first | assumption | apply Keeps.ite | apply kscResume_keeps | simp only [↓Keeps.upd_iff] | apply takeHeld_keeps
                               | apply pllLossRec_keeps | apply wakeDone_keeps

theorem d7Forced_keeps {z : State} {s : State} (hk : Keeps z s) : Keeps z (d7Forced s) := by
  unfold d7Forced
  with_reducible repeat' first | assumption | apply Keeps.ite | simp only [↓Keeps.upd_iff] | apply cpyEnd_keeps
                               | apply powerDown_keeps | apply logRec_keeps | refine Keeps.foldl _ ?_ (fun _ _ => ?_)
                               | exact Keeps.refl _

theorem pllLock_keeps {z : State} {s : State} (hk : Keeps z s) : Keeps z (pllLock s) := by
  unfold pllLock
  with_reducible repeat' first | assumption | apply Keeps.ite | simp only [↓Keeps.upd_iff]

theorem pllLoss_keeps {z : State} {s : State} (hk : Keeps z s) : Keeps z (pllLoss s) := by
  unfold pllLoss
  with_reducible repeat' first | assumption | apply Keeps.ite | apply kscResume_keeps | simp only [↓Keeps.upd_iff] | apply abandonRun_keeps
                               | apply chgGatesOff_keeps | apply pllLossRec_keeps

theorem pllRestart_keeps {z : State} {failed : Bool} {s : State} (hk : Keeps z s) : Keeps z (pllRestart failed s)
    := by
  unfold pllRestart
  with_reducible repeat' first | assumption | apply Keeps.ite | simp only [↓Keeps.upd_iff]

theorem fallbackReturn_keeps {z : State} {s : State} (hk : Keeps z s) : Keeps z (fallbackReturn s) := by
  unfold fallbackReturn
  with_reducible repeat' first | assumption | apply Keeps.ite | simp only [↓Keeps.upd_iff]

theorem relock_keeps {z : State} {s : State} (hk : Keeps z s) : Keeps z (relock s) := by
  unfold relock
  with_reducible repeat' first | assumption | apply Keeps.ite | simp only [↓Keeps.upd_iff]

theorem resetAssert_keeps {z : State} {cause : Nat} {s : State} (hk : Keeps z s) : Keeps z (resetAssert cause s) := by
  unfold resetAssert
  with_reducible repeat' first | assumption | apply Keeps.ite | simp only [↓Keeps.upd_iff] | apply portsFloat_keeps

theorem shipWake_keeps {z : State} {i : Fin 3} {s : State} (hk : Keeps z s) : Keeps z (shipWake i s) := by
  unfold shipWake
  with_reducible repeat' first | assumption | apply Keeps.ite | simp only [↓Keeps.upd_iff] | apply resetAssert_keeps

theorem drstWrite_keeps {z : State} {e : Nat} {v : Nat} {remap : Bool} {s : State} (hk : Keeps z s) : Keeps z
    (drstWrite e v remap s) := by
  unfold drstWrite
  with_reducible repeat' first | assumption | apply Keeps.ite | simp only [↓Keeps.upd_iff] | apply resetAssert_keeps

theorem engReset_keeps {z : State} {n : Fin 6} {s : State} (hk : Keeps z s) : Keeps z (engReset n s) := by
  unfold engReset
  with_reducible repeat' first | assumption | apply Keeps.ite | apply ioForget_keeps | apply svcDrop_keeps
                               | apply locksRelease_keeps | apply putEngMb_keeps | apply putEng_keeps

theorem erstWrite_keeps {z : State} {remap : Bool} {v : Nat} {s : State} (hk : Keeps z s) : Keeps z (erstWrite
    remap v s) := by
  unfold erstWrite
  with_reducible repeat' first | assumption | apply Keeps.ite | apply putDct_keeps | apply engReset_keeps
                               | apply engRelease2_keeps

theorem dctApply_keeps {z : State} {s : State} (hk : Keeps z s) : Keeps z (dctApply s) := by
  unfold dctApply
  with_reducible repeat' first | assumption | apply Keeps.ite | apply putDct_keeps
                               | dsimp only | split

theorem dctMode_keeps {z : State} {pwr : Bool} {by_ : Nat} {v : Nat} {s : State} (hk : Keeps z s) : Keeps z
    (dctMode pwr by_ v s) := by
  unfold dctMode
  with_reducible repeat' first | assumption | apply Keeps.ite | apply putDct_keeps | apply modeRequest_keeps

theorem dctWrite_keeps {z : State} {by_ : Nat} {remap : Bool} {off : Nat} {v : Nat} {s : State} (hk : Keeps z s) :
    Keeps z (dctWrite by_ remap off v s) := by
  unfold dctWrite
  with_reducible repeat' first | assumption | apply Keeps.ite | simp only [↓Keeps.upd_iff] | apply putDct_keeps
                               | apply dctMode_keeps | apply domRequest_keeps | apply erstWrite_keeps
                               | apply relock_keeps | apply drstWrite_keeps

theorem putPrt_keeps {z : State} {p : Prt} {s : State} (hk : Keeps z s) : Keeps z (putPrt p s) := by
  unfold putPrt
  with_reducible repeat' first | assumption | apply Keeps.ite | simp only [↓Keeps.upd_iff]

theorem ixdatWrite_keeps {z : State} {v : Nat} {s : State} (hk : Keeps z s) : Keeps z (ixdatWrite v s) := by
  unfold ixdatWrite
  with_reducible repeat' first | assumption | apply Keeps.ite | apply putPrt_keeps

theorem ixdatRead_keeps {z : State} {s : State} (hk : Keeps z s) : Keeps z (ixdatRead s).1 := by
  unfold ixdatRead
  with_reducible repeat' first | assumption | apply Keeps.ite | apply Keeps.ite_fst | apply putPrt_keeps

theorem prtWrite_keeps {z : State} {off : Nat} {v : Nat} {s : State} (hk : Keeps z s) : Keeps z (prtWrite off v s)
    := by
  unfold prtWrite
  with_reducible repeat' first | assumption | apply Keeps.ite | apply putPrt_keeps | apply prtSeal_keeps
                               | apply ixdatWrite_keeps

theorem putStg_keeps {z : State} {b : SBlk} {c : Stg} {s : State} (hk : Keeps z s) : Keeps z (putStg b c s) := by
  unfold putStg
  with_reducible repeat' first | assumption | apply Keeps.ite | simp only [↓Keeps.upd_iff] | dsimp only | split

theorem stgWrite_keeps {z : State} {b : SBlk} {k : Nat} {v : Nat} {s : State} (hk : Keeps z s) : Keeps z (stgWrite
    b k v s) := by
  unfold stgWrite
  with_reducible repeat' first | assumption | apply Keeps.ite | simp only [↓Keeps.upd_iff] | apply putStg_keeps

theorem commit_keeps {z : State} {b : SBlk} {s : State} (hk : Keeps z s) : Keeps z (commit b s) := by
  unfold commit
  with_reducible repeat' first | assumption | apply Keeps.ite | simp only [↓Keeps.upd_iff] | apply putStg_keeps
                               | apply logRec_keeps | dsimp only | split

theorem bcommitWrite_keeps {z : State} {b : SBlk} {v : Nat} {s : State} (hk : Keeps z s) : Keeps z (bcommitWrite b
    v s) := by
  unfold bcommitWrite
  with_reducible repeat' first | assumption | apply Keeps.ite | apply commit_keeps | apply putStg_keeps

theorem bstatWrite_keeps {z : State} {b : SBlk} {v : Nat} {s : State} (hk : Keeps z s) : Keeps z (bstatWrite b v s)
    := by
  unfold bstatWrite
  with_reducible repeat' first | assumption | apply Keeps.ite | apply putStg_keeps

theorem commitApply_keeps {z : State} {b : SBlk} {s : State} (hk : Keeps z s) : Keeps z (commitApply b s) := by
  unfold commitApply
  with_reducible repeat' first | assumption | apply Keeps.ite | simp only [↓Keeps.upd_iff] | apply kscApply_keeps
                               | apply lgtApply_keeps | apply chgApply_keeps | apply seqApply_keeps
                               | apply thaApply_keeps | apply dctApply_keeps | apply bmkApply_keeps
                               | apply cpyApply_keeps | dsimp only | split

theorem svcWrite_keeps {z : State} {by_ : Nat} {v : Nat} {s : State} (hk : Keeps z s) : Keeps z (svcWrite by_ v s)
    := by
  unfold svcWrite
  with_reducible repeat' first | assumption | apply Keeps.ite | simp only [↓Keeps.upd_iff] | apply setHintP_keeps
                               | refine Keeps.foldl _ ?_ (fun _ _ => ?_) | exact Keeps.refl _

theorem hshWrite_keeps {z : State} {by_ : Nat} {off : Nat} {v : Nat} {s : State} (hk : Keeps z s) : Keeps z
    (hshWrite by_ off v s) := by
  unfold hshWrite
  with_reducible repeat' first | assumption | apply Keeps.ite | simp only [↓Keeps.upd_iff] | apply svcWrite_keeps

theorem locPut_keeps {z : State} {m : Mst} {e : Fin 6} {off : Nat} {v : Nat} {s : State} (hk : Keeps z s) : Keeps z
    (locPut m e off v s) := by
  unfold locPut
  with_reducible repeat' first | assumption | apply Keeps.ite | apply locWrite_keeps
                               | apply putEng_keeps | dsimp only | split

theorem regRead_keeps {z : State} {e : Fin 6} {r : Nat} {lo : Nat} {s : State} (hk : Keeps z s) : Keeps z
    (regRead e r lo s).1 := by
  unfold regRead
  with_reducible repeat' first | assumption | apply Keeps.ite | apply Keeps.ite_fst | simp only [↓Keeps.upd_iff]
                               | apply kscRead_keeps | apply embRead_keeps | apply lkAcq_keeps | apply smbRead_keeps
                               | apply ixdatRead_keeps | apply gpioRead_keeps | apply missRead_keeps | dsimp only | split

theorem regWrite_keeps {z : State} {m : Mst} {e : Fin 6} {r : Nat} {lo : Nat} {v : Nat} {same : Bool} {s : State} (hk :
    Keeps z s) : Keeps z (regWrite m e r lo v s same) := by
  unfold regWrite
  with_reducible repeat' first | assumption | apply Keeps.ite | simp only [↓Keeps.upd_iff] | apply bstatWrite_keeps
                               | apply bcommitWrite_keeps | apply stgWrite_keeps | apply kscWrite_keeps
                               | apply lixWrite_keeps | apply lgtWrite_keeps | apply chgWrite_keeps
                               | apply seqWrite_keeps | apply thaWrite_keeps | apply dctWrite_keeps
                               | apply bmkWrite_keeps | apply cpyWrite_keeps | apply locPut_keeps
                               | apply mbxWrite_keeps | apply lckWrite_keeps | apply fbEngClear_keeps
                               | apply fbkWrite_keeps | apply svyWrite_keeps | apply smbWrite_keeps
                               | apply prtWrite_keeps | apply gpioWrite_keeps | apply hshWrite_keeps | dsimp only
                               | split

theorem viewStaged_keeps {z : State} {s : State} (hk : Keeps z s) : Keeps z (viewStaged s) := by
  unfold viewStaged
  with_reducible repeat' first | assumption | apply Keeps.ite | simp only [↓Keeps.upd_iff]

theorem topRead_keeps {z : State} {a : Nat} {s : State} (hk : Keeps z s) : Keeps z (topRead a s) := by
  unfold topRead
  with_reducible repeat' first | assumption | apply Keeps.ite | simp only [↓Keeps.upd_iff]

theorem readNote_keeps {z : State} {e a n i v : Nat} {s : State} (hk : Keeps z s) : Keeps z (readNote e a n i v s) := by
  unfold readNote
  with_reducible repeat' first | assumption | apply Keeps.ite | simp only [↓Keeps.upd_iff]

theorem ioGet_keeps {z : State} {m : Mst} {e : Fin 6} {a : Nat} {again : Bool} {s : State} (hk : Keeps z s) : Keeps z
    (ioGet m e a s again).1 := by
  unfold ioGet
  with_reducible repeat' first | assumption | apply Keeps.ite | apply Keeps.ite_fst | simp only [↓Keeps.upd_iff]
                               | apply regRead_keeps | apply topRead_keeps | apply readNote_keeps | dsimp only | split

theorem ioPut_keeps {z : State} {m : Mst} {e : Fin 6} {a : Nat} {v : Nat} {same : Bool} {s : State} (hk : Keeps z s) :
    Keeps z (ioPut m e a v s same) := by
  unfold ioPut
  with_reducible repeat' first | assumption | apply Keeps.ite | apply Keeps.ite_fst | simp only [↓Keeps.upd_iff]
                               | apply regRead_keeps | apply viewStaged_keeps | apply regWrite_keeps

theorem ioDrop_keeps {z : State} {m : Mst} {e : Fin 6} {a : Nat} {s : State} (hk : Keeps z s) : Keeps z (ioDrop m e
    a s) := by
  unfold ioDrop
  with_reducible repeat' first | assumption | apply Keeps.ite | simp only [↓Keeps.upd_iff]

theorem engIn_keeps {z : State} {e : Fin 6} {a : Nat} {again : Bool} {s : State} {x : State × Nat} (h : engIn e a s
    again = .ok x) (hk : Keeps z s) : Keeps z x.1 := by
  unfold engIn at h
  repeat' split at h
  all_goals cases h
  exact ioGet_keeps hk

theorem engTry_keeps {z : State} {e : Fin 6} {a v : Nat} {f : State → State} {s t : State} (h : engTry e a v f s =
    .ok t)
    (hf : Keeps z s → Keeps z (f s)) (hk : Keeps z s) : Keeps z t := by
  unfold engTry at h
  repeat' split at h
  all_goals cases h
  exact hf hk

theorem engOut_keeps {z : State} {e : Fin 6} {a v : Nat} {same : Bool} {s t : State} (h : engOut e a v s same = .ok t)
    (hk : Keeps z s) : Keeps z t :=
  engTry_keeps h ioPut_keeps hk

theorem issueIn_keeps {z : State} {e : Fin 6} {word : Nat} {d : Fin 16} {adr : Ceng → Nat} {again : Bool} {s : State}
    (hk : Keeps z s) : Keeps z (issueIn e word d adr s again) := by
  unfold issueIn
  with_reducible repeat' first | assumption | apply Keeps.ite
                               | refine issue_keeps (fun _ _ => ?_) ?_ | apply engTrap_keeps | apply putEng_keeps
                               | refine engIn_keeps (by assumption) ?_ | dsimp only | split

theorem issueOut_keeps {z : State} {e : Fin 6} {word : Nat} {g : Fin 16} {adr : Ceng → Nat} {same : Bool} {s : State}
    (hk : Keeps z s) : Keeps z (issueOut e word g adr s same) := by
  unfold issueOut
  with_reducible repeat' first | assumption | apply Keeps.ite
                               | refine issue_keeps (fun _ _ => ?_) ?_ | apply putEng_keeps | apply engTrap_keeps
                               | apply ioDrop_keeps | refine engOut_keeps (by assumption) ?_ | dsimp only | split

theorem busTrap_keeps {z : State} {e : Fin 6} {a : Nat} {i : Nat} {s : State} (hk : Keeps z s) : Keeps z (busTrap e
    a i s) := by
  unfold busTrap
  with_reducible repeat' first | assumption | apply Keeps.ite | simp only [↓Keeps.upd_iff] | apply engTrap_keeps

theorem govPast_keeps {z : State} {e : Fin 6} {s : State} (hk : Keeps z s) : Keeps z (govPast e s) := by
  unfold govPast
  with_reducible repeat' first | assumption | apply Keeps.ite | simp only [↓Keeps.upd_iff] | apply putEng_keeps

theorem outBytes_keeps {z : State} {e : Fin 6} {same : Bool} {l : List Nat} : ∀ {a : Nat} {s : State}, Keeps z s → Keeps z
    (outBytes e same a l s) := by
  induction l with
  | nil => exact fun h => h
  | cons b t ih =>
    intro a s hk
    unfold outBytes
    replace hk := govPast_keeps (e := e) hk
    dsimp only
    split
    · exact ih (engOut_keeps (by assumption) hk)
    · refine busTrap_keeps (Keeps.ite (ioDrop_keeps hk) hk)

theorem engWrite_keeps {z : State} {e : Fin 6} {a : Nat} {n : Nat} {v : Nat} {same : Bool} {s : State} (hk : Keeps z s)
    : Keeps z (engWrite e a n v s same) := by
  unfold engWrite
  with_reducible repeat' first | assumption | apply Keeps.ite | simp only [↓Keeps.upd_iff] | apply afterKick_keeps
                               | apply outBytes_keeps

theorem engAct_keeps {z : State} {e : Fin 6} {a v : Nat} {f : State → State} {s : State}
    (hf : ∀ x, Keeps z x → Keeps z (f x)) (hk : Keeps z s) : Keeps z (engAct e a v f s) := by
  unfold engAct
  refine Keeps.ite hk (afterKick_keeps ?_)
  replace hk := govPast_keeps (e := e) hk
  split
  · rename_i h; exact engTry_keeps h (hf _) hk
  · exact busTrap_keeps (Keeps.ite (ioDrop_keeps hk) hk)

theorem inBytes_keeps {z : State} {e : Fin 6} {again : Bool} {n : Nat} : ∀ {a : Nat} {l : List Nat} {s : State},
    Keeps z s → Keeps z (inBytes e again a n l s) := by
  induction n with
  | zero => intro a l s hk; unfold inBytes; simp only [↓Keeps.upd_iff]; exact hk
  | succ n ih =>
    intro a l s hk
    unfold inBytes
    replace hk := govPast_keeps (e := e) hk
    dsimp only
    split
    · exact ih (engIn_keeps (by assumption) hk)
    · exact busTrap_keeps hk

theorem engRead_keeps {z : State} {e : Fin 6} {a : Nat} {n : Nat} {again : Bool} {s : State} (hk : Keeps z s) : Keeps z
    (engRead e a n s again) := by
  unfold engRead
  with_reducible repeat' first | assumption | apply Keeps.ite | simp only [↓Keeps.upd_iff] | apply afterKick_keeps
                               | apply inBytes_keeps

theorem setRegErr_keeps {z : State} {r : Nat} {e : Fin 6} {off : Nat} {x : Bool} {s : State} (hk : Keeps z s) :
    Keeps z (setRegErr r e off x s) := by
  unfold setRegErr
  with_reducible repeat' first | assumption | apply Keeps.ite | simp only [↓Keeps.upd_iff] | apply putStg_keeps
                               | apply putEng_keeps | apply putSmb_keeps | apply putPrt_keeps | dsimp only | split

end Sys2Proof.Machine
end

