-- ==== Sys2Proof/Laws/KeepsPort.lean ====
section
/-! SUPPORT. Each shared operation keeps the queue and the canonical memories: boot, the host ports, the Cerxa instructions and the accesses of commands. -/

namespace Sys2Proof.Machine

theorem fbFlush_keeps {z : State} {s : State} (hk : Keeps z s) : Keeps z (fbFlush s) := by
  unfold fbFlush
  with_reducible repeat' first | assumption | apply Keeps.ite | simp only [↓Keeps.upd_iff]
                               | apply fbWriteThrough_keeps | refine Keeps.foldl _ ?_ (fun _ _ => ?_)
                               | exact Keeps.refl _

theorem resetStep1_keeps {z : State} {s : State} (hk : Keeps z s) : Keeps z (resetStep1 s) := by
  unfold resetStep1
  with_reducible repeat' first | assumption | apply Keeps.ite | simp only [↓Keeps.upd_iff]

theorem flsReboot_wf {s : State} (h : Memory.wf 0xFF s.fls.mem = true) : Memory.wf 0xFF (flsReboot s).mem = true := by
  unfold flsReboot
  dsimp only
  repeat' split
  all_goals first | with_reducible exact h | (dsimp only; with_reducible exact flashTorn_wf _ _ _ h)

theorem resetStep2_keeps {z : State} {ringBad : List Nat} {nvmBad : List Nat} {s : State} (hk : Keeps z s) : Keeps
    z (resetStep2 ringBad nvmBad s) := by
  unfold resetStep2
  dsimp only
  refine portsFloat_keeps (Keeps.updMem (t := s) hk (fun w => ⟨rfl, fun n => ?_, flsReboot_wf w.2.2⟩))
  fin_cases n <;> rfl

theorem resetUp_keeps {z : State} {d : Nat} {s : State} (hk : Keeps z s) : Keeps z (resetUp d s) := by
  unfold resetUp
  with_reducible repeat' first | assumption | apply Keeps.ite | simp only [↓Keeps.upd_iff] | apply domUp_keeps
                               | apply domReset_keeps

theorem resetStep_keeps {z : State} {ringBad : List Nat} {nvmBad : List Nat} {k : Nat} {s : State} (hk : Keeps z s)
    : Keeps z (resetStep ringBad nvmBad k s) := by
  unfold resetStep
  with_reducible repeat' first | assumption | apply Keeps.ite | simp only [↓Keeps.upd_iff] | apply resetStep1_keeps
                               | apply resetStep2_keeps | apply resetUp_keeps | apply putEng_keeps

theorem resetSequence_keeps {z : State} {last : Nat} {ringBad : List Nat} {nvmBad : List Nat} {s : State} (hk :
    Keeps z s) : Keeps z (resetSequence last ringBad nvmBad s) := by
  unfold resetSequence
  with_reducible repeat' first | assumption | apply Keeps.ite | apply resetStep_keeps
                               | refine Keeps.foldl _ ?_ (fun _ _ => ?_) | exact Keeps.refl _

theorem brWrite_keeps {z : State} {c : Nat} {b : BootRec} {s : State} (hk : Keeps z s) : Keeps z (brWrite c b s) := by
  refine Keeps.updMem hk (fun w => ⟨w.1, w.2.1, ?_⟩)
  exact memory_foldl_wf _ (fun _ _ h => memory_spSet_wf _ _ h) _ _ (flashErase_wf _ w.2.2)

theorem brUpdate_keeps {z : State} {b : BootRec} {s : State} (hk : Keeps z s) : Keeps z (brUpdate b s) := by
  unfold brUpdate
  with_reducible repeat' first | assumption | apply Keeps.ite | simp only [↓Keeps.upd_iff] | apply brWrite_keeps

theorem loadSec_keeps {z : State} {slot : Nat} {e : Fin 6} {x : Sec} {s : State} (hk : Keeps z s) : Keeps z
    (loadSec slot e x s) := by
  unfold loadSec
  refine Keeps.ite ?_ (Keeps.ite ?_ (Keeps.ite ?_ hk))
  · refine Keeps.updMem hk (fun w => ⟨w.1, fun n => ?_, w.2.2⟩)
    by_cases hn : n = e
    · subst hn; simpa using w.2.1 n
    · have : ¬ (e : Nat) = n := fun h => hn (Fin.ext h.symm)
      simpa [Vector.getElem_set, this] using w.2.1 n
  · refine Keeps.updMem hk (fun w => ⟨w.1, fun n => ?_, w.2.2⟩)
    by_cases hn : n = e
    · subst hn; simpa using memory_foldl_wf _ (fun _ _ h => memory_spSet_wf _ _ h) _ _ (w.2.1 n)
    · have : ¬ (e : Nat) = n := fun h => hn (Fin.ext h.symm)
      simpa [Vector.getElem_set, this] using w.2.1 n
  · exact Keeps.updMem hk (fun w => ⟨memory_foldl_wf _ (fun _ _ h => memory_spSet_wf _ _ h) _ _ w.1, w.2⟩)

theorem loadSecs_keeps {z : State} {slot : Nat} {e : Fin 6} {l : List Sec} {s : State} (hk : Keeps z s) : Keeps z
    (loadSecs slot e l s) := by
  unfold loadSecs
  with_reducible repeat' first | assumption | apply Keeps.ite | simp only [↓Keeps.upd_iff] | apply loadSec_keeps
                               | refine Keeps.foldl _ ?_ (fun _ _ => ?_) | exact Keeps.refl _

theorem handOver_keeps {z : State} {e : Fin 6} {entry : Nat} {g0 : Nat} {g1 : Nat} {g2 : Nat} {s : State} (hk :
    Keeps z s) : Keeps z (handOver e entry g0 g1 g2 s) := by
  unfold handOver
  with_reducible repeat' first | assumption | apply Keeps.ite | apply putEng_keeps

theorem prtRecord_keeps {z : State} {slot : Nat} {x : Sec} {i : Nat} {s : State} (hk : Keeps z s) : Keeps z
    (prtRecord slot x i s) := by
  unfold prtRecord
  with_reducible repeat' first | assumption | apply Keeps.ite | simp only [↓Keeps.upd_iff] | apply ioPut_keeps

theorem prtTable_keeps {z : State} {slot : Nat} {s : State} (hk : Keeps z s) : Keeps z (prtTable slot s) := by
  unfold prtTable
  with_reducible repeat' first | assumption | apply Keeps.ite | simp only [↓Keeps.upd_iff] | apply prtRecord_keeps
                               | refine Keeps.foldl _ ?_ (fun _ _ => ?_) | exact Keeps.refl _ | dsimp only | split

theorem bootImage_keeps {z : State} {slot : Nat} {fell : Bool} {noImage : Bool} {tries : Nat} {s : State} (hk :
    Keeps z s) : Keeps z (bootImage slot fell noImage tries s) := by
  unfold bootImage
  with_reducible repeat' first | assumption | apply Keeps.ite | simp only [↓Keeps.upd_iff] | apply loadSecs_keeps
                               | apply prtTable_keeps | apply brUpdate_keeps | apply resetAssert_keeps
                               | apply prtSeal_keeps | apply handOver_keeps

theorem bootPick_keeps {z : State} {l : List Nat} : ∀ {s : State}, Keeps z s → Keeps z (bootPick l s).1 := by
  induction l with
  | nil => exact fun h => h
  | cons k t ih =>
    intro s hk
    unfold bootPick
    dsimp only
    with_reducible repeat' first | assumption | apply Keeps.ite_fst | apply ih | apply brUpdate_keeps
                                 | apply Keeps.ite

theorem recoveryGrant_keeps {z : State} {p : Port} {s : State} (hk : Keeps z s) : Keeps z (recoveryGrant p s) := by
  unfold recoveryGrant
  with_reducible repeat' first | assumption | apply Keeps.ite | simp only [↓Keeps.upd_iff]

theorem recoveryEnd_keeps {z : State} {s : State} (hk : Keeps z s) : Keeps z (recoveryEnd s) := by
  unfold recoveryEnd
  with_reducible repeat' first | assumption | apply Keeps.ite | simp only [↓Keeps.upd_iff]

theorem deviceBoot_keeps {z : State} {s : State} (hk : Keeps z s) : Keeps z (deviceBoot s) := by
  unfold deviceBoot
  dsimp only
  split
  · have h := bootPick_keeps (l := [(brCurrent s).1.active, 1 - (brCurrent s).1.active]) hk
    split
    · next heq => rw [heq] at h; exact bootImage_keeps h
    · next heq => rw [heq] at h; exact recoveryGrant_keeps (recoveryGrant_keeps (Keeps.upd h))
  · exact hk

theorem recoveryCheck_keeps {z : State} {s : State} (hk : Keeps z s) : Keeps z (recoveryCheck s) := by
  unfold recoveryCheck
  with_reducible repeat' first | assumption | apply Keeps.ite | simp only [↓Keeps.upd_iff] | apply bootImage_keeps
                               | apply recoveryEnd_keeps

theorem roleLoad_keeps {z : State} {e : Fin 6} {s : State} (hk : Keeps z s) : Keeps z (roleLoad e s) := by
  have hf : ∀ x, Keeps z x → Keeps z (roleLoad.roleFail e x) := fun x h => by
    unfold roleLoad.roleFail; exact logRec_keeps (putDct_keeps (putEng_keeps (engReset_keeps h)))
  unfold roleLoad
  with_reducible repeat' first | assumption | apply Keeps.ite | apply loadSecs_keeps | apply handOver_keeps | apply hf
                               | dsimp only | split

theorem putSel_keeps {z : State} {p : Port} {q : PortSel} {s : State} (hk : Keeps z s) : Keeps z (putSel p q s) := by
  unfold putSel
  with_reducible repeat' first | assumption | apply Keeps.ite | apply putPort_keeps

theorem portErr_keeps {z : State} {p : Port} {code : Nat} {off : Nat} {wr : Bool} {s : State} (hk : Keeps z s) :
    Keeps z (portErr p code off wr s) := by
  unfold portErr
  with_reducible repeat' first | assumption | apply Keeps.ite | apply setHintP_keeps | apply putPort_keeps

theorem portData_keeps {z : State} {p : Port} {v : Nat} {s : State} (hk : Keeps z s) : Keeps z (portData p v s) := by
  unfold portData
  with_reducible repeat' first | assumption | apply Keeps.ite | apply putPort_keeps

theorem dRelease_keeps {z : State} {p : Port} {s : State} (hk : Keeps z s) : Keeps z (dRelease p s) := by
  unfold dRelease
  with_reducible repeat' first | assumption | apply Keeps.ite | apply putPort_keeps

theorem keyRead_keeps {z : State} {p : Port} {prov : Bool} {s : State} (hk : Keeps z s) : Keeps z (keyRead p prov
    s).1 := by
  unfold keyRead
  with_reducible repeat' first | assumption | apply Keeps.ite | apply Keeps.ite_fst | apply putSel_keeps

theorem keyselWrite_keeps {z : State} {p : Port} {v : Nat} {s : State} (hk : Keeps z s) : Keeps z (keyselWrite p v
    s).1 := by
  unfold keyselWrite
  with_reducible repeat' first | assumption | apply Keeps.ite | apply Keeps.ite_fst | simp only [↓Keeps.upd_iff]
                               | apply putSel_keeps

theorem chgselWrite_keeps {z : State} {p : Port} {v : Nat} {s : State} (hk : Keeps z s) : Keeps z (chgselWrite p v
    s).1 := by
  unfold chgselWrite
  with_reducible repeat' first | assumption | apply Keeps.ite | apply Keeps.ite_fst | simp only [↓Keeps.upd_iff]
                               | apply putSel_keeps

theorem thaErr_keeps {z : State} {s : State} (hk : Keeps z s) : Keeps z (thaErr s) := by
  unfold thaErr
  with_reducible repeat' first | assumption | apply Keeps.ite | simp only [↓Keeps.upd_iff]

theorem thermselWrite_keeps {z : State} {p : Port} {v : Nat} {s : State} (hk : Keeps z s) : Keeps z (thermselWrite
    p v s).1 := by
  unfold thermselWrite
  with_reducible repeat' first | assumption | apply Keeps.ite | apply Keeps.ite_fst | apply thaErr_keeps
                               | apply putSel_keeps

theorem thermvalWrite_keeps {z : State} {p : Port} {v : Nat} {s : State} (hk : Keeps z s) : Keeps z (thermvalWrite
    p v s).1 := by
  unfold thermvalWrite
  with_reducible repeat' first | assumption | apply Keeps.ite | apply Keeps.ite_fst | apply vtSet_keeps

theorem fanselWrite_keeps {z : State} {p : Port} {v : Nat} {s : State} (hk : Keeps z s) : Keeps z (fanselWrite p v
    s).1 := by
  unfold fanselWrite
  with_reducible repeat' first | assumption | apply Keeps.ite | apply Keeps.ite_fst | apply thaErr_keeps
                               | apply putSel_keeps

theorem fanvalWrite_keeps {z : State} {p : Port} {v : Nat} {s : State} (hk : Keeps z s) : Keeps z (fanvalWrite p v
    s).1 := by
  unfold fanvalWrite
  with_reducible repeat' first | assumption | apply Keeps.ite | apply Keeps.ite_fst | simp only [↓Keeps.upd_iff]

theorem rtcPort_keeps {z : State} {p : Port} {sel : Nat} {r : RtcHold × Rtc × Bool} {s : State} (hk : Keeps z s) :
    Keeps z (rtcPort p sel r s).1 := by
  unfold rtcPort
  with_reducible repeat' first | assumption | apply Keeps.ite | apply Keeps.ite_fst | simp only [↓Keeps.upd_iff]
                               | apply putSel_keeps

theorem rtcselWrite_keeps {z : State} {p : Port} {v : Nat} {s : State} (hk : Keeps z s) : Keeps z (rtcselWrite p v
    s).1 := by
  unfold rtcselWrite
  with_reducible repeat' first | assumption | apply Keeps.ite | apply Keeps.ite_fst | simp only [↓Keeps.upd_iff]
                               | apply rtcPort_keeps

theorem rtcvalWrite_keeps {z : State} {p : Port} {v : Nat} {s : State} (hk : Keeps z s) : Keeps z (rtcvalWrite p v
    s).1 := by
  unfold rtcvalWrite
  with_reducible repeat' first | assumption | apply Keeps.ite | apply Keeps.ite_fst | apply rtcPort_keeps

theorem portReset_keeps {z : State} {p : Port} {s : State} (hk : Keeps z s) : Keeps z (portReset p s) := by
  unfold portReset
  with_reducible repeat' first | assumption | apply Keeps.ite | simp only [↓Keeps.upd_iff] | apply putSel_keeps
                               | apply locksRelease_keeps | apply encHintP_keeps

theorem hctlWrite_keeps {z : State} {p : Port} {v : Nat} {s : State} (hk : Keeps z s) : Keeps z (hctlWrite p v s)
    := by
  unfold hctlWrite
  with_reducible repeat' first | assumption | apply Keeps.ite | apply putPort_keeps | apply portReset_keeps

theorem winGet_keeps {z : State} {p : Port} {priv : Bool} {q : PortSel} {a : Nat} {again : Bool} {s : State} {x : State
    × Nat} (h : winGet p priv q a s again = some x) (hk : Keeps z s) : Keeps z x.1 := by
  unfold winGet at h
  dsimp only at h
  repeat' split at h
  all_goals first | cases h; done | (injection h with h; subst h; first | with_reducible exact hk | exact ioGet_keeps hk)

theorem winPut_keeps {z : State} {p : Port} {priv : Bool} {q : PortSel} {a : Nat} {v : Nat} {same : Bool} {s : State}
    (hk : Keeps z s) : Keeps z (winPut p priv q a v s same).1 := by
  unfold winPut
  with_reducible repeat' first | assumption | apply Keeps.ite_fst | apply Keeps.ite | apply shmPut_keeps
                               | apply ioDrop_keeps | apply setRegErr_keeps | apply erstWrite_keeps
                               | apply ioPut_keeps | dsimp only
  refine Keeps.updMem hk (fun w => ⟨w.1, fun n => ?_, w.2.2⟩)
  by_cases hn : n = winEng q
  · subst hn; simpa using memory_spSet_wf _ _ (w.2.1 (winEng q))
  · have : ¬ (winEng q : Nat) = n := fun h => hn (Fin.ext h.symm)
    simpa [Vector.getElem_set, this] using w.2.1 n

theorem winNext_keeps {z : State} {p : Port} {s : State} (hk : Keeps z s) : Keeps z (winNext p s) := by
  unfold winNext
  with_reducible repeat' first | assumption | apply Keeps.ite | simp only [↓Keeps.upd_iff] | apply putSel_keeps

theorem windatRead_keeps {z : State} {p : Port} {priv : Bool} {again : Bool} {s : State} (hk : Keeps z s) : Keeps z
    (windatRead p priv s again).1 := by
  unfold windatRead
  with_reducible repeat' first | assumption | apply Keeps.ite | apply Keeps.ite_fst
                               | apply winNext_keeps | refine winGet_keeps (by assumption) ?_ | dsimp only | split

theorem windatWrite_keeps {z : State} {p : Port} {priv : Bool} {v : Nat} {same : Bool} {s : State} (hk : Keeps z s) :
    Keeps z (windatWrite p priv v s same).1 := by
  unfold windatWrite
  with_reducible repeat' first | assumption | apply Keeps.ite | apply Keeps.ite_fst | simp only [↓Keeps.upd_iff]
                               | apply winPut_keeps | apply winNext_keeps | apply setRegErr_keeps | dsimp only | split

theorem winselWrite_keeps {z : State} {p : Port} {v : Nat} {s : State} (hk : Keeps z s) : Keeps z (winselWrite p v
    s).1 := by
  unfold winselWrite
  with_reducible repeat' first | assumption | apply Keeps.ite | apply Keeps.ite_fst | apply putSel_keeps

theorem selUpd_keeps {z : State} {p : Port} {f : PortSel → PortSel} {s : State} (hk : Keeps z s) : Keeps z (selUpd
    p f s) := by
  unfold selUpd
  with_reducible repeat' first | assumption | apply Keeps.ite | simp only [↓Keeps.upd_iff] | apply putSel_keeps

theorem portGet_keeps {z : State} {p : Port} {priv : Bool} {off : Nat} {again : Bool} {s : State} (hk : Keeps z s) :
    Keeps z (portGet p priv off s again).1 := by
  unfold portGet
  with_reducible repeat' first | assumption | apply Keeps.ite | apply Keeps.ite_fst | apply putPort_keeps
                               | apply keyRead_keeps | apply encPosRead_keeps | apply mbDataRead_keeps
                               | apply lockAcquire_keeps | apply selUpd_keeps | apply windatRead_keeps

theorem hostRead_keeps {z : State} {p : Port} {priv : Bool} {off : Nat} {again : Bool} {s : State} (hk : Keeps z s) :
    Keeps z (hostRead p priv off s again) := by
  unfold hostRead
  with_reducible repeat' first | assumption | apply Keeps.ite | apply Keeps.ite_fst
                               | apply dRelease_keeps | apply portData_keeps | apply portErr_keeps
                               | apply portGet_keeps | dsimp only | split

theorem blkPut_keeps {z : State} {b : SBlk} {f : State → State} {s : State} (hf : ∀ x, Keeps z x → Keeps z (f x))
    (hk : Keeps z s) :
    Keeps z (blkPut b f s).1 := hf s hk

theorem portPut_keeps {z : State} {p : Port} {priv : Bool} {off : Nat} {v : Nat} {same : Bool} {s : State} (hk : Keeps z
    s) : Keeps z (portPut p priv off v s same).1 := by
  unfold portPut
  with_reducible repeat' first | assumption | apply Keeps.ite | apply Keeps.ite_fst | simp only [↓Keeps.upd_iff]
                               | apply selUpd_keeps | apply hctlWrite_keeps | apply keyselWrite_keeps
                               | apply mbselWrite_keeps | apply putChan_keeps | apply mbDataWrite_keeps
                               | apply mbSend_keeps | apply ringEngine_keeps | apply dbClrHost_keeps
                               | apply lockFree_keeps | refine blkPut_keeps (fun _ _ => ?_) ?_ | apply dctMode_keeps
                               | apply seqWrite_keeps | apply chgselWrite_keeps | apply thermselWrite_keeps
                               | apply thermvalWrite_keeps | apply fanselWrite_keeps | apply fanvalWrite_keeps
                               | apply lgtWrite_keeps | apply fbClear_keeps | apply trigSnap_keeps
                               | apply rtcselWrite_keeps | apply rtcvalWrite_keeps | apply recoveryCheck_keeps
                               | apply winselWrite_keeps | apply windatWrite_keeps

theorem bufFree_keeps {z : State} {p : Port} {s : State} (hk : Keeps z s) : Keeps z (bufFree p s) := by
  unfold bufFree
  with_reducible repeat' first | assumption | apply Keeps.ite | apply putPort_keeps

theorem hostTry_keeps {z : State} {p : Port} {priv : Bool} {off : Nat} {f : State → State × Nat} {s : State}
    (hf : ∀ x, Keeps z x → Keeps z (f x).1) (hk : Keeps z s) : Keeps z (hostTry p priv off f s) := by
  unfold hostTry
  refine Keeps.ite hk (Keeps.ite (portErr_keeps (bufFree_keeps hk)) (Keeps.ite (hf _ (bufFree_keeps hk))
      (portErr_keeps (hf _ (bufFree_keeps hk)))))

theorem hostWrite_keeps {z : State} {p : Port} {priv : Bool} {off : Nat} {v : Nat} {same : Bool} {s : State} (hk : Keeps
    z s) : Keeps z (hostWrite p priv off v s same) := by
  unfold hostWrite
  with_reducible repeat' first | assumption | apply Keeps.ite | apply Keeps.ite_fst | simp only [↓Keeps.upd_iff]
                               | refine hostTry_keeps (fun _ _ => ?_) ?_ | apply portPut_keeps

theorem mbReleaseSent_keeps {z : State} {p : Port} {s : State} (hk : Keeps z s) : Keeps z (mbReleaseSent p s).1 := by
  unfold mbReleaseSent
  with_reducible repeat' first | assumption

theorem hostTurned_keeps {z : State} {p : Port} {code : Nat} {off : Nat} {wr : Bool} {s : State} (hk : Keeps z s) :
    Keeps z (hostTurned p code off wr s) := by
  unfold hostTurned
  with_reducible repeat' first | assumption | apply Keeps.ite | simp only [↓Keeps.upd_iff] | apply portErr_keeps
                               | apply dRelease_keeps

theorem portPower_keeps {z : State} {p : Port} {v18 : Bool} {s : State} (hk : Keeps z s) : Keeps z (portPower p v18
    s) := by
  unfold portPower
  with_reducible repeat' first | assumption | apply Keeps.ite | simp only [↓Keeps.upd_iff] | apply putPort_keeps
                               | apply recoveryGrant_keeps | apply domUp_keeps | apply d7Wanted_keeps

theorem portUnpower_keeps {z : State} {p : Port} {s : State} (hk : Keeps z s) : Keeps z (portUnpower p s) := by
  unfold portUnpower
  with_reducible repeat' first | assumption | apply Keeps.ite | apply portReset_keeps | apply putPort_keeps
                               | apply putDct_keeps

theorem chipSelect_keeps {z : State} {p : Port} {low : Bool} {s : State} (hk : Keeps z s) : Keeps z (chipSelect p
    low s) := by
  unfold chipSelect
  with_reducible repeat' first | assumption | apply Keeps.ite | simp only [↓Keeps.upd_iff] | apply putPort_keeps

theorem writeStrobe_keeps {z : State} {p : Port} {left : Nat} {s : State} (hk : Keeps z s) : Keeps z (writeStrobe p
    left s) := by
  unfold writeStrobe
  with_reducible repeat' first | assumption | apply Keeps.ite | simp only [↓Keeps.upd_iff] | apply putPort_keeps

theorem issueMts_keeps {z : State} {e : Fin 6} {r : SReg} {s : State} (hk : Keeps z s) : Keeps z (issueMts e r s)
    := by
  unfold issueMts
  with_reducible repeat' first | assumption | apply Keeps.ite | simp only [↓Keeps.upd_iff] | apply issueMtsDsb_keeps
                               | apply issueReg_keeps | dsimp only | split

theorem issueSnap_keeps {z : State} {e : Fin 6} {same : Bool} {s : State} (hk : Keeps z s) : Keeps z (issueSnap e
    same s) := by
  unfold issueSnap
  with_reducible repeat' first | assumption | apply Keeps.ite | refine issue_keeps (fun _ _ => ?_) ?_
                               | apply trigSnap_keeps | apply putEng_keeps

theorem issueTrap_keeps {z : State} {e : Fin 6} {word : Nat} {s : State} (hk : Keeps z s) : Keeps z (issueTrap e
    word s) := by
  unfold issueTrap
  with_reducible repeat' first | assumption | apply Keeps.ite | simp only [↓Keeps.upd_iff]
                               | refine issue_keeps (fun _ _ => ?_) ?_ | apply engTrap_keeps | apply engSwTrap_keeps

theorem issueIllegal_keeps {z : State} {e : Fin 6} {w : IWord} {s : State} (hk : Keeps z s) : Keeps z (issueIllegal
    e w s) := by
  unfold issueIllegal
  with_reducible repeat' first | assumption | apply Keeps.ite | simp only [↓Keeps.upd_iff] | apply engIllegal_keeps

theorem issueFetch_keeps {z : State} {e : Fin 6} {s : State} (hk : Keeps z s) : Keeps z (issueFetch e s) := by
  unfold issueFetch
  exact Keeps.ite (issue_keeps (fun _ h => h) hk) hk

theorem whenCk_keeps {z : State} {f : State → State} {s : State} (hf : ∀ x, Keeps z x → Keeps z (f x)) (hk : Keeps
    z s) :
    Keeps z (whenCk f s) := by
  unfold whenCk; split
  · exact hf _ hk
  · exact hk

theorem mstWrite_keeps {z : State} {m : Mst} {a : Nat} {n : Nat} {v : Nat} {off : Nat} {w : Nat} {same : Bool} {s :
    State} (hk : Keeps z s) : Keeps z (mstWrite m a n v off w s same) := by
  unfold mstWrite
  with_reducible repeat' first | assumption | apply Keeps.ite | simp only [↓Keeps.upd_iff] | apply engWrite_keeps
                               | apply hostWrite_keeps | dsimp only | split

theorem mstRead_keeps {z : State} {m : Mst} {a : Nat} {n : Nat} {off : Nat} {again : Bool} {s : State} (hk : Keeps z s)
    : Keeps z (mstRead m a n off s again) := by
  unfold mstRead
  with_reducible repeat' first | assumption | apply Keeps.ite | simp only [↓Keeps.upd_iff] | apply engRead_keeps
                               | apply hostRead_keeps | dsimp only | split

theorem engAccess_keeps {z : State} {e : Eng} {a : Nat} {n : Nat} {w : Option Nat} {again : Bool} {s : State} (hk : Keeps z s) :
    Keeps z (engAccess e a n w s again) := by
  unfold engAccess
  with_reducible repeat' first | assumption | apply Keeps.ite | simp only [↓Keeps.upd_iff] | apply engWrite_keeps
                               | apply engRead_keeps | dsimp only | split

theorem hostAccess_keeps {z : State} {p : Port} {priv : Bool} {off : Nat} {w : Option Nat} {s : State} (hk : Keeps
    z s) : Keeps z (hostAccess p priv off w s) := by
  unfold hostAccess
  with_reducible repeat' first | assumption | apply Keeps.ite | simp only [↓Keeps.upd_iff] | apply hostWrite_keeps
                               | apply hostRead_keeps | dsimp only | split

theorem soundingDue_keeps {z : State} {s : State} (hk : Keeps z s) : Keeps z (soundingDue s) := by
  unfold soundingDue
  with_reducible repeat' first | assumption | apply Keeps.ite | simp only [↓Keeps.upd_iff]

theorem chainPin_keeps {z : State} {f : State → State} {s : State} (hf : ∀ x, Keeps z x → Keeps z (f x)) (hk :
    Keeps z s) :
    Keeps z (chainPin f s) := by
  unfold chainPin; split
  · exact hf _ hk
  · exact hk

theorem chainStart_keeps {z : State} {arg : Nat} {s : State} (hk : Keeps z s) : Keeps z (chainStart arg s) := by
  unfold chainStart
  with_reducible repeat' first | assumption | apply Keeps.ite | simp only [↓Keeps.upd_iff] | apply commit_keeps

theorem mstAct_keeps {z : State} {m : Mst} {a v off : Nat} {f : State → State × Nat} {s : State}
    (hf : ∀ x, Keeps z x → Keeps z (f x).1) (hk : Keeps z s) : Keeps z (mstAct m a v off f s) := by
  unfold mstAct
  split
  · exact engAct_keeps hf hk
  · exact hostTry_keeps hf hk

theorem platAsk_keeps {z : State} {src : PlatSrc} {tgt : Nat} {newer : Bool} {s : State} (hk : Keeps z s) : Keeps z
    (platAsk src tgt newer s) := by
  unfold platAsk
  with_reducible repeat' first | assumption | apply Keeps.ite | apply seqAsk_keeps
                               | refine mstAct_keeps (fun _ _ => ?_) ?_ | apply mstWrite_keeps | dsimp only | split

theorem modeAsk_keeps {z : State} {m : Mst} {tgt : Nat} {newer : Bool} {s : State} (hk : Keeps z s) : Keeps z
    (modeAsk m tgt newer s) := by
  unfold modeAsk
  with_reducible repeat' first | assumption | apply Keeps.ite | simp only [↓Keeps.upd_iff]
                               | refine mstAct_keeps (fun _ _ => ?_) ?_ | apply mstWrite_keeps

theorem snapAsk_keeps {z : State} {m : Mst} {same : Bool} {s : State} (hk : Keeps z s) : Keeps z (snapAsk m same s)
    := by
  unfold snapAsk
  exact mstWrite_keeps hk

theorem bookClearAsk_keeps {z : State} {m : Mst} {v : Nat} {same : Bool} {s : State} (hk : Keeps z s) : Keeps z
    (bookClearAsk m v same s) := by
  unfold bookClearAsk
  with_reducible repeat' first | assumption | apply Keeps.ite | simp only [↓Keeps.upd_iff] | apply mstWrite_keeps
                               | refine mstAct_keeps (fun _ _ => ?_) ?_ | apply clearBook_keeps | dsimp only | split

theorem hostRelease_keeps {z : State} {p : Port} {priv : Bool} {sent : Bool} {s : State} (hk : Keeps z s) : Keeps z
    (hostRelease p priv sent s) := by
  unfold hostRelease
  with_reducible repeat' first | assumption | apply Keeps.ite | apply Keeps.ite_fst | simp only [↓Keeps.upd_iff]
                               | refine hostTry_keeps (fun _ _ => ?_) ?_ | apply mbReleaseSent_keeps
                               | apply hostWrite_keeps

theorem engReleaseAsk_keeps {z : State} {e : Eng} {sent : Bool} {s : State} (hk : Keeps z s) : Keeps z
    (engReleaseAsk e sent s) := by
  unfold engReleaseAsk
  with_reducible repeat' first | assumption | apply Keeps.ite | simp only [↓Keeps.upd_iff]
                               | refine engAct_keeps (fun _ _ => ?_) ?_ | apply engReleaseSent_keeps
                               | apply engWrite_keeps

theorem lockArbitrate_keeps {z : State} {who : List Mst} {s : State} (hk : Keeps z s) : Keeps z (lockArbitrate who
    s) := by
  unfold lockArbitrate
  with_reducible repeat' first | assumption | apply Keeps.ite | apply lockContend_keeps
                               | refine Keeps.foldl _ ?_ (fun _ _ => ?_) | exact Keeps.refl _

theorem lockRead_keeps {z : State} {m : Mst} {others : List Mst} {s : State} (hk : Keeps z s) : Keeps z (lockRead m
    others s) := by
  unfold lockRead
  with_reducible repeat' first | assumption | apply Keeps.ite | apply mstRead_keeps | apply lockArbitrate_keeps
                               | refine Keeps.foldl _ ?_ (fun _ _ => ?_) | exact Keeps.refl _

theorem vtPut_keeps {z : State} {m : Mst} {n : Fin 4} {v : Nat} {s : State} (hk : Keeps z s) : Keeps z (vtPut m n v
    s) := by
  unfold vtPut
  with_reducible repeat' first | assumption | apply Keeps.ite | simp only [↓Keeps.upd_iff] | apply engWrite_keeps
                               | apply hostWrite_keeps | dsimp only | split

theorem tractPut_keeps {z : State} {e : Eng} {mask : Nat} {ins : Vector Int 4} {s : State} (hk : Keeps z s) : Keeps
    z (tractPut e mask ins s) := by
  unfold tractPut
  with_reducible repeat' first | assumption | apply Keeps.ite | simp only [↓Keeps.upd_iff] | apply engWrite_keeps

theorem ovpPut_keeps {z : State} {e : Eng} {cells : Vector Int 5} {s : State} (hk : Keeps z s) : Keeps z (ovpPut e
    cells s) := by
  unfold ovpPut
  with_reducible repeat' first | assumption | apply Keeps.ite | simp only [↓Keeps.upd_iff] | apply engWrite_keeps
                               | apply cellsNow_keeps

theorem rtcHoldPut_keeps {z : State} {m : Mst} {b : Bool} {s : State} (hk : Keeps z s) : Keeps z (rtcHoldPut m b s)
    := by
  unfold rtcHoldPut
  with_reducible repeat' first | assumption | apply Keeps.ite | simp only [↓Keeps.upd_iff] | apply engWrite_keeps
                               | apply hostWrite_keeps | dsimp only | split

theorem rtcFieldPut_keeps {z : State} {m : Mst} {n : Fin 7} {v : Nat} {s : State} (hk : Keeps z s) : Keeps z
    (rtcFieldPut m n v s) := by
  unfold rtcFieldPut
  with_reducible repeat' first | assumption | apply Keeps.ite | simp only [↓Keeps.upd_iff] | apply engWrite_keeps
                               | apply hostWrite_keeps | dsimp only | split

theorem rtcSecond_keeps {z : State} {s : State} (hk : Keeps z s) : Keeps z (rtcSecond s) := by
  unfold rtcSecond
  with_reducible repeat' first | assumption | apply Keeps.ite | simp only [↓Keeps.upd_iff] | apply rtcTick_keeps

theorem gpioChange_keeps {z : State} {v : BitVec 4} {s : State} (hk : Keeps z s) : Keeps z (gpioChange v s) := by
  unfold gpioChange
  with_reducible repeat' first | assumption | apply Keeps.ite | simp only [↓Keeps.upd_iff] | apply gpioPins_keeps

theorem supplyChange_keeps {z : State} {b : Fin 6} {up : Bool} {s : State} (hk : Keeps z s) : Keeps z (supplyChange
    b up s) := by
  unfold supplyChange
  with_reducible repeat' first | assumption | apply Keeps.ite | simp only [↓Keeps.upd_iff] | apply bankSupply_keeps

theorem tapClock_keeps {z : State} {tms : Bool} {ir : TapIr} {s : State} (hk : Keeps z s) : Keeps z (tapClock tms ir s) := by
  unfold tapClock
  with_reducible repeat' first | assumption | apply Keeps.ite | simp only [↓Keeps.upd_iff]

theorem tapReset_keeps {z : State} {low : Bool} {s : State} (hk : Keeps z s) : Keeps z (tapReset low s) := by
  unfold tapReset
  with_reducible repeat' first | assumption | apply Keeps.ite | simp only [↓Keeps.upd_iff]

theorem kickTick_keeps {z : State} {s : State} {e : Fin 6} (hk : Keeps z s) : Keeps z (kickTick s e) := by
  unfold kickTick
  exact Keeps.ite (stopOnEdge_keeps (fun _ _ h => kickStop_keeps h) hk) hk

theorem kicksTick_keeps {z : State} {s : State} (hk : Keeps z s) : Keeps z (kicksTick s) := by
  unfold kicksTick
  with_reducible repeat' first | assumption | apply Keeps.ite | simp only [↓Keeps.upd_iff]
                               | apply kickTick_keeps
                               | refine Keeps.foldl _ ?_ (fun _ _ => ?_) | exact Keeps.refl _

theorem ckTick_keeps {z : State} {s : State} (hk : Keeps z s) : Keeps z (ckTick s) := by
  unfold ckTick
  with_reducible repeat' first | assumption | apply Keeps.ite | simp only [↓Keeps.upd_iff] | apply kicksTick_keeps

end Sys2Proof.Machine
end

