-- ==== Sys2Proof/Laws/Cerxa.lean ====
section
/-! SUPPORT. What the shared operations of the Cerxa instructions do: the engine that issues, its registers, and the
ready distances. -/

namespace Sys2Proof.Machine

@[simp] theorem putEng_eng_self (e : Fin 6) (q : Ceng) (s : State) : (putEng e q s).eng[e] = q := by simp [putEng]

theorem putEng_eng_ne {e n : Fin 6} (h : n ≠ e) (q : Ceng) (s : State) : (putEng e q s).eng[n] = s.eng[n] := by
  have : ¬ (e : Nat) = n := fun k => h (Fin.ext k.symm)
  simp [putEng, this]

@[simp] theorem putEng_putEng (e : Fin 6) (q r : Ceng) (s : State) : putEng e r (putEng e q s) = putEng e r s := by
  simp [putEng, Vector.set_set]

@[simp] theorem putEng_self (e : Fin 6) (s : State) : putEng e s.eng[e] s = s := by simp [putEng]

@[simp] theorem pastGov_run (q : Ceng) : (pastGov q).run = q.run := rfl
@[simp] theorem pastGov_failed (q : Ceng) : (pastGov q).failed = q.failed := rfl
@[simp] theorem pastGov_rom (q : Ceng) : (pastGov q).rom = q.rom := rfl
@[simp] theorem pastGov_g (q : Ceng) : (pastGov q).g = q.g := rfl
@[simp] theorem pastGov_cnt (q : Ceng) : (pastGov q).cnt = q.cnt := rfl
@[simp] theorem pastGov_lnk (q : Ceng) : (pastGov q).lnk = q.lnk := rfl
@[simp] theorem pastGov_dsb (q : Ceng) : (pastGov q).dsb = q.dsb := rfl
@[simp] theorem pastGov_iob (q : Ceng) : (pastGov q).iob = q.iob := rfl
@[simp] theorem pastGov_pc (q : Ceng) : (pastGov q).pc = q.pc := rfl
@[simp] theorem pastGov_idx (q : Ceng) : (pastGov q).idx = q.idx := rfl
@[simp] theorem pastGov_ds (q : Ceng) : (pastGov q).ds = q.ds := rfl
@[simp] theorem pastGov_rep (q : Ceng) : (pastGov q).rep = q.rep := rfl
@[simp] theorem pastGov_resume (q : Ceng) : (pastGov q).resume = q.resume := rfl
@[simp] theorem pastGov_ie (q : Ceng) : (pastGov q).ie = q.ie := rfl
@[simp] theorem pastGov_intrap (q : Ceng) : (pastGov q).intrap = q.intrap := rfl
@[simp] theorem pastGov_gov (q : Ceng) : (pastGov q).gov = none := rfl
@[simp] theorem pastGov_ivbase (q : Ceng) : (pastGov q).ivbase = q.ivbase := rfl
@[simp] theorem pastGov_irqen (q : Ceng) : (pastGov q).irqen = q.irqen := rfl
@[simp] theorem pastGov_xpend (q : Ceng) : (pastGov q).xpend = q.xpend := rfl
@[simp] theorem pastGov_estop (q : Ceng) : (pastGov q).estop = q.estop := rfl
@[simp] theorem pastGov_err (q : Ceng) : (pastGov q).err = q.err := rfl
@[simp] theorem pastGov_tmr (q : Ceng) : (pastGov q).tmr = q.tmr := rfl
@[simp] theorem pastGov_cyc (q : Ceng) : (pastGov q).cyc = q.cyc := rfl
@[simp] theorem pastGov_wd (q : Ceng) : (pastGov q).wd = q.wd := rfl
@[simp] theorem pastGov_tf (q : Ceng) : (pastGov q).tf = q.tf := rfl
@[simp] theorem pastGov_role (q : Ceng) : (pastGov q).role = q.role := rfl
@[simp] theorem pastGov_cause (q : Ceng) : (pastGov q).cause = q.cause := rfl
@[simp] theorem pastGov_badKick (q : Ceng) : (pastGov q).badKick = q.badKick := rfl

@[simp] theorem pastGov_gRead (q : Ceng) (i : Fin 16) : gRead (pastGov q) i = gRead q i := rfl

@[simp] theorem pastGov_gpRead (q : Ceng) (n : Fin 8) : gpRead (pastGov q) n = gpRead q n := rfl

@[simp] theorem pastGov_gReads (q : Ceng) : gRead (pastGov q) = gRead q := rfl

theorem gRead_lt (q : Ceng) (i : Fin 16) : gRead q i < 256 := Nat.mod_lt _ (by decide)

theorem gpRead_lt (q : Ceng) (n : Fin 8) : gpRead q n < 65536 := by
  have h1 := gRead_lt q (finOf 16 (2 * n.val))
  have h2 := gRead_lt q (finOf 16 (2 * n.val + 1))
  unfold gpRead; omega

/-- A G register takes a value modulo 256. -/
theorem gWrite_congr {v w : Nat} (d : Fin 16) (n : Nat) (h : v % 256 = w % 256) : gWrite d n v = gWrite d n w := by
  funext q; simp [gWrite, h]

/-- An engine that is ready issues. -/
theorem issue_ready {e : Fin 6} {s : State} (f : State → State) (h : CxReady s e) :
    issue e f s = f (putEng e (pastGov s.eng[e]) s) := by
  obtain ⟨h1, h2, h3, h4⟩ := h
  have : ¬ 0x4000 ≤ s.eng[e].pc := by omega
  unfold issue afterKick
  rw [if_neg (by rw [h1, h2]; decide), if_neg this, h4, if_neg (by decide)]

theorem issueReg_ready {e : Fin 6} {s : State} (f : Ceng → Ceng) (h : CxReady s e) : issueReg e f s = cxAfter e f s := by
  rw [issueReg, issue_ready _ h, putEng_eng_self, putEng_putEng]; rfl

theorem issueAlu_ready {e : Fin 6} {s : State} (d : Fin 16) (v : (Fin 16 → Nat) → Nat) (h : CxReady s e) :
    issueAlu e d v s = cxAfter e (gWrite d 1 (v (gRead s.eng[e]))) s := by
  rw [issueAlu, issueReg_ready _ h]; rfl

/-- Dropping the writers that no later instruction can obtain changes no later read. -/
theorem cellRead_cellPrune {j k : Nat} (c : Cell) (h : j ≤ k) : cellRead k (cellPrune j c) = cellRead k c := by
  have key : ∀ (l : List (Nat × Nat × Nat)) (a : Cell),
      cellRead k (l.foldl (fun a x => if x.1 + x.2.1 ≤ j then { base := x.2.2, pend := [] }
        else { a with pend := a.pend ++ [x] }) a)
      = l.foldl (fun a x => if x.1 + x.2.1 ≤ k then x.2.2 else a) (cellRead k a) := by
    intro l
    induction l with
    | nil => intro a; rfl
    | cons x t ih =>
      intro a
      simp only [List.foldl]
      rw [ih]
      congr 1
      split
      · rw [if_pos (by omega)]; rfl
      · simp only [cellRead, List.foldl_append, List.foldl]
  unfold cellPrune
  rw [key]; rfl

end Sys2Proof.Machine
end

