-- ==== Sys2Proof/Laws/Io.lean ====
section
/-! SUPPORT. What an engine's register access is: one whole register written or read, with the fabric's held bytes and
latches apart. -/

namespace Sys2Proof.Machine

theorem spGet_spSet_some {α : Type} [DecidableEq α] (m : Sparse (Option α)) (k : Nat) (x : α) :
    spGet none (spSet none m k (some x)) k = some x := by simp [spSet, spGet_spInsert]

@[simp] theorem withIo_withIo (x y : IoBuf) (s : State) : withIo y (withIo x s) = withIo y s := rfl

@[simp] theorem withIo_io (x : IoBuf) (s : State) : (withIo x s).io = x := rfl

@[simp] theorem withIo_self (s : State) : withIo s.io s = s := rfl

theorem EngMay.withIo {s : State} {e : Eng} {a : Nat} {wr : Bool} (h : EngMay s e a wr) (x : IoBuf) : EngMay (withIo x s) e a wr := h

/-- No bad kick before an access stops the engine after it. -/
theorem afterKick_none {e : Fin 6} {q : Ceng} {s : State} (h : q.badKick = false) : afterKick e q s = s := by simp [afterKick, h]

theorem engCount_eq {e : Fin 6} {n : Nat} {s : State} (h : s.eng[e].badKick = false) : engCount e n s = n := by simp only [engCount, h]; rfl

/-- With no OUT to ECTL or IRQEN before it, an access finds no boundary to leave behind (R335). -/
@[simp] theorem govPast_none {e : Fin 6} {s : State} (h : s.eng[e].gov = none) : govPast e s = s := by
  have hq : pastGov s.eng[e] = s.eng[e] := by rw [pastGov, ← h]
  rw [govPast, hq, putEng]
  simp

/-- The boundary is left behind once. -/
@[simp] theorem govPast_govPast (e : Fin 6) (s : State) : govPast e (govPast e s) = govPast e s :=
  govPast_none (by simp [govPast, putEng, pastGov])

/-- An engine whose access may be made makes it. -/
theorem engWrite_eq {e : Fin 6} {a n v : Nat} {s : State} (h : EngMay s e a true) : engWrite e a n v s = outBytes e false a (leBytes n v) s := by
  obtain ⟨h1, -, -, h4, -⟩ := h
  rw [engWrite, if_pos h1, engCount_eq h4, afterKick_none h4]

theorem engRead_eq {e : Fin 6} {a n : Nat} {s : State} (h : EngMay s e a false) : engRead e a n s = inBytes e false a n [] s := by
  obtain ⟨h1, -, -, h4, -⟩ := h
  rw [engRead, if_pos h1, engCount_eq h4, afterKick_none h4]

/-- An engine's access of one byte that passes its checks. -/
theorem engWrite_one {e : Fin 6} {a v : Nat} {s : State} (h : EngMay s e a true)
    (hr : writeRefused s (.ce e) e a (v % 256) = false) : engWrite e a 1 v s = ioPut (.ce e) e a (v % 256) s := by
  rw [engWrite_eq h]
  obtain ⟨-, h2, h3, -, h5⟩ := h
  simp [leBytes, outBytes, engOut, engTry, govPast_none h5, h2, h3, hr]

/-- A register of one byte is written whole. -/
theorem ioPut_byte {m : Mst} {e : Fin 6} {a b r v : Nat} {s : State} (hr : ioRegion a = (b, r))
    (hx : spanAt r (a - b) s = { lo := a - b, len := 1 }) : ioPut m e a v s = regWrite m e r (a - b) (v % 256) s := by
  simp [ioPut, hr, hx, leNat]

/-- A write of a register of one byte by an engine. -/
theorem engWrite_byte {e : Fin 6} {a b r v : Nat} {s : State} (h : EngMay s e a true) (hr : ioRegion a = (b, r))
    (hx : spanAt r (a - b) s = { lo := a - b, len := 1 }) (hw : writeRefused s (.ce e) e a (v % 256) = false) :
    engWrite e a 1 v s = regWrite (.ce e) e r (a - b) (v % 256) s := by
  rw [engWrite_one h hw, ioPut_byte hr hx, Nat.mod_mod]

/-- The first byte of a register of two bytes is held (R13). -/
theorem ioPut_low {m : Mst} {e : Fin 6} {a b r v : Nat} {s : State} (hb : b ≤ a) (hr : ioRegion a = (b, r))
    (hx : spanAt r (a - b) s = { lo := a - b, len := 2 }) :
    ioPut m e a v s = withIo { s.io with
      held := spSet none s.io.held (ioKey m (if perEng r (a - b) then e.val else 0) a) (some (v % 256)) } s := by
  have e0 : a - b - (a - b) = 0 := Nat.sub_self _
  have e2 : b + (a - b) = a := by omega
  unfold ioPut
  simp only [hr, hx, e0]
  rw [if_neg (by decide), if_pos (by decide)]
  simp only [Nat.add_zero, e2]
  rfl

/-- The second byte of a register of two bytes writes the register, with the first byte as it is held (R13). -/
theorem ioPut_high {m : Mst} {e : Fin 6} {a b r v lo : Nat} {s : State} (hb : b ≤ a) (hr : ioRegion (a + 1) = (b, r))
    (hx : spanAt r (a + 1 - b) s = { lo := a - b, len := 2 })
    (hh : spGet none s.io.held (ioKey m (if perEng r (a - b) then e.val else 0) a) = some lo) (hl : lo < 256) :
    ioPut m e (a + 1) v s = regWrite m e r (a - b) (lo + 256 * (v % 256)) (withIo { s.io with
      held := spErase s.io.held (ioKey m (if perEng r (a - b) then e.val else 0) a) } s) := by
  have e1 : a + 1 - b - (a - b) = 1 := by omega
  have e2 : b + (a - b) = a := by omega
  unfold ioPut
  simp only [hr, hx, e1]
  rw [if_neg (by decide), if_neg (by decide)]
  have e3 : leNat [lo, v] = lo + 256 * (v % 256) := by simp only [leNat]; omega
  simp [e2, hh, e3]
  rfl

/-- An engine that may write a register of two bytes writes it whole; the fabric's held bytes apart (R13). -/
theorem engWrite_two {e : Fin 6} {a b r v : Nat} {s : State} (h : EngMay s e a true) (h' : EngMay s e (a + 1) true)
    (hb : b ≤ a) (hr : ioRegion a = (b, r)) (hr' : ioRegion (a + 1) = (b, r))
    (hx : spanAt r (a - b) s = { lo := a - b, len := 2 })
    (hx' : ∀ x, spanAt r (a + 1 - b) (withIo x s) = { lo := a - b, len := 2 })
    (hw : writeRefused s (.ce e) e a (v % 256) = false)
    (hw' : ∀ x, writeRefused (withIo x s) (.ce e) e (a + 1) (v / 256 % 256) = false) :
    ∃ x, engWrite e a 2 v s = regWrite (.ce e) e r (a - b) (v % 65536) (withIo x s) := by
  have h1 : engWrite e a 2 v s = (match engOut e (a + 1) (v / 256 % 256) (ioPut (.ce e) e a (v % 256) s) with
      | .ok s1 => s1
      | .error i => busTrap e (a + 1) i (if i = 4 then ioDrop (.ce e) e (a + 1) (ioPut (.ce e) e a (v % 256) s)
          else ioPut (.ce e) e a (v % 256) s)) := by
    rw [engWrite_eq h]
    obtain ⟨-, h2, h3, -, h5⟩ := h
    have h6 : govPast e (ioPut (.ce e) e a (v % 256) s) = ioPut (.ce e) e a (v % 256) s := by
      rw [ioPut_low hb hr hx]; exact govPast_none h5
    simp only [leBytes, outBytes, engOut, engTry, govPast_none h5, h6, h2, h3, hw, Bool.false_eq_true, if_false] <;>
      rfl
  rw [h1, ioPut_low hb hr hx]
  generalize hq : ({ s.io with held := spSet none s.io.held (ioKey (.ce e) (if perEng r (a - b) then e.val else 0) a) (some (v % 256 % 256)) } : IoBuf) = x
  have hg := h'.withIo x
  have hh : spGet none (withIo x s).io.held (ioKey (.ce e) (if perEng r (a - b) then e.val else 0) a) = some (v % 256 % 256) := by
    rw [withIo_io, ← hq]; exact spGet_spSet_some _ _ _
  refine ⟨{ x with held := spErase x.held (ioKey (.ce e) (if perEng r (a - b) then e.val else 0) a) }, ?_⟩
  simp only [engOut, engTry, hg.2.1, hg.2.2.1, hw', Bool.false_eq_true, if_false]
  rw [ioPut_high hb hr' (hx' x) hh (Nat.mod_lt _ (by decide))]
  have e3 : v % 256 % 256 + 256 * (v / 256 % 256 % 256) = v % 65536 := by omega
  rw [e3]; rfl

/-- A read of one byte by an engine. -/
theorem engRead_one {e : Fin 6} {a : Nat} {s : State} (h : EngMay s e a false) (hr : readRefused s e a = false) :
    engRead e a 1 s = withIo { (ioGet (.ce e) e a s).1.io with
      rd := (ioGet (.ce e) e a s).1.io.rd.set e ((ioGet (.ce e) e a s).2 % 256) } (ioGet (.ce e) e a s).1 := by
  rw [engRead_eq h]
  obtain ⟨-, h2, h3, -, h5⟩ := h
  simp [inBytes, engIn, govPast_none h5, h2, h3, hr, leNat, withIo]

/-- A read that is noted changes nothing else. -/
theorem readNote_eq (e a n i v : Nat) (s : State) : ∃ x, readNote e a n i v s = withIo x s := by
  unfold readNote
  dsimp only
  split
  · exact ⟨s.io, rfl⟩
  split
  · exact ⟨_, rfl⟩
  split
  · exact ⟨_, rfl⟩
  · exact ⟨s.io, rfl⟩

/-- A register of one byte is read whole; a read of it that acts is noted. -/
theorem ioGet_byte {m : Mst} {e : Fin 6} {a b r : Nat} {s : State} (hb : b ≤ a) (hr : ioRegion a = (b, r))
    (hx : spanAt r (a - b) s = { lo := a - b, len := 1 }) :
    ioGet m e a s = (readNote (if perEng r (a - b) then e.val else 0) a 1 0 (regRead e r (a - b) s).2 (regRead e r (a - b) s).1,
      (regRead e r (a - b) s).2) := by
  have e2 : b + (a - b) = a := by omega
  simp [ioGet, hr, hx, e2]

/-- A later read of a byte on the edge of a read that is noted gives what that one gave, and has no effect (R38). -/
theorem ioGet_again {m : Mst} {e : Fin 6} {a b r v : Nat} {s : State} (hr : ioRegion a = (b, r))
    (hx : spanAt r (a - b) s = { lo := a - b, len := 1 })
    (hw : readWas (if perEng r (a - b) then e.val else 0) a s = some v) : ioGet m e a s true = (s, v) := by
  simp [ioGet, hr, hx, hw]

end Sys2Proof.Machine
end

