-- ==== Sys2Proof/Laws/State.lean ====
section
/-! SUPPORT. What the updates of one part of the state give at every field: the field they write, and every other field as it was. -/

namespace Sys2Proof.Machine

variable (s : State)

/-! ### putEng -/

@[simp] theorem putEng_pending (e : Fin 6) (q : Ceng) : (putEng e q s).pending = s.pending := rfl
@[simp] theorem putEng_ksc (e : Fin 6) (q : Ceng) : (putEng e q s).ksc = s.ksc := rfl
@[simp] theorem putEng_lgt (e : Fin 6) (q : Ceng) : (putEng e q s).lgt = s.lgt := rfl
@[simp] theorem putEng_lgb (e : Fin 6) (q : Ceng) : (putEng e q s).lgb = s.lgb := rfl
@[simp] theorem putEng_chg (e : Fin 6) (q : Ceng) : (putEng e q s).chg = s.chg := rfl
@[simp] theorem putEng_chp (e : Fin 6) (q : Ceng) : (putEng e q s).chp = s.chp := rfl
@[simp] theorem putEng_cht (e : Fin 6) (q : Ceng) : (putEng e q s).cht = s.cht := rfl
@[simp] theorem putEng_chs (e : Fin 6) (q : Ceng) : (putEng e q s).chs = s.chs := rfl
@[simp] theorem putEng_seq (e : Fin 6) (q : Ceng) : (putEng e q s).seq = s.seq := rfl
@[simp] theorem putEng_tha (e : Fin 6) (q : Ceng) : (putEng e q s).tha = s.tha := rfl
@[simp] theorem putEng_thd (e : Fin 6) (q : Ceng) : (putEng e q s).thd = s.thd := rfl
@[simp] theorem putEng_smb (e : Fin 6) (q : Ceng) : (putEng e q s).smb = s.smb := rfl
@[simp] theorem putEng_hp (e : Fin 6) (q : Ceng) : (putEng e q s).hp = s.hp := rfl
@[simp] theorem putEng_hsh (e : Fin 6) (q : Ceng) : (putEng e q s).hsh = s.hsh := rfl
@[simp] theorem putEng_mbx (e : Fin 6) (q : Ceng) : (putEng e q s).mbx = s.mbx := rfl
@[simp] theorem putEng_lck (e : Fin 6) (q : Ceng) : (putEng e q s).lck = s.lck := rfl
@[simp] theorem putEng_eng (e : Fin 6) (q : Ceng) : (putEng e q s).eng = s.eng.set e q := rfl
@[simp] theorem putEng_emem (e : Fin 6) (q : Ceng) : (putEng e q s).emem = s.emem := rfl
@[simp] theorem putEng_shm (e : Fin 6) (q : Ceng) : (putEng e q s).shm = s.shm := rfl
@[simp] theorem putEng_cpy (e : Fin 6) (q : Ceng) : (putEng e q s).cpy = s.cpy := rfl
@[simp] theorem putEng_clk (e : Fin 6) (q : Ceng) : (putEng e q s).clk = s.clk := rfl
@[simp] theorem putEng_rst (e : Fin 6) (q : Ceng) : (putEng e q s).rst = s.rst := rfl
@[simp] theorem putEng_prt (e : Fin 6) (q : Ceng) : (putEng e q s).prt = s.prt := rfl
@[simp] theorem putEng_fls (e : Fin 6) (q : Ceng) : (putEng e q s).fls = s.fls := rfl
@[simp] theorem putEng_dct (e : Fin 6) (q : Ceng) : (putEng e q s).dct = s.dct := rfl
@[simp] theorem putEng_fbk (e : Fin 6) (q : Ceng) : (putEng e q s).fbk = s.fbk := rfl
@[simp] theorem putEng_svy (e : Fin 6) (q : Ceng) : (putEng e q s).svy = s.svy := rfl
@[simp] theorem putEng_bmk (e : Fin 6) (q : Ceng) : (putEng e q s).bmk = s.bmk := rfl
@[simp] theorem putEng_gpio (e : Fin 6) (q : Ceng) : (putEng e q s).gpio = s.gpio := rfl
@[simp] theorem putEng_rtc (e : Fin 6) (q : Ceng) : (putEng e q s).rtc = s.rtc := rfl
@[simp] theorem putEng_tap (e : Fin 6) (q : Ceng) : (putEng e q s).tap = s.tap := rfl
@[simp] theorem putEng_trst (e : Fin 6) (q : Ceng) : (putEng e q s).trst = s.trst := rfl
@[simp] theorem putEng_io (e : Fin 6) (q : Ceng) : (putEng e q s).io = s.io := rfl
@[simp] theorem putEng_free (e : Fin 6) (q : Ceng) : (putEng e q s).free = s.free := rfl

/-! ### putPort -/

@[simp] theorem putPort_pending (p : Port) (h : HPort) : (putPort p h s).pending = s.pending := rfl
@[simp] theorem putPort_ksc (p : Port) (h : HPort) : (putPort p h s).ksc = s.ksc := rfl
@[simp] theorem putPort_lgt (p : Port) (h : HPort) : (putPort p h s).lgt = s.lgt := rfl
@[simp] theorem putPort_lgb (p : Port) (h : HPort) : (putPort p h s).lgb = s.lgb := rfl
@[simp] theorem putPort_chg (p : Port) (h : HPort) : (putPort p h s).chg = s.chg := rfl
@[simp] theorem putPort_chp (p : Port) (h : HPort) : (putPort p h s).chp = s.chp := rfl
@[simp] theorem putPort_cht (p : Port) (h : HPort) : (putPort p h s).cht = s.cht := rfl
@[simp] theorem putPort_chs (p : Port) (h : HPort) : (putPort p h s).chs = s.chs := rfl
@[simp] theorem putPort_seq (p : Port) (h : HPort) : (putPort p h s).seq = s.seq := rfl
@[simp] theorem putPort_tha (p : Port) (h : HPort) : (putPort p h s).tha = s.tha := rfl
@[simp] theorem putPort_thd (p : Port) (h : HPort) : (putPort p h s).thd = s.thd := rfl
@[simp] theorem putPort_smb (p : Port) (h : HPort) : (putPort p h s).smb = s.smb := rfl
@[simp] theorem putPort_hp (p : Port) (h : HPort) : (putPort p h s).hp = s.hp.set p h := rfl
@[simp] theorem putPort_hsh (p : Port) (h : HPort) : (putPort p h s).hsh = s.hsh := rfl
@[simp] theorem putPort_mbx (p : Port) (h : HPort) : (putPort p h s).mbx = s.mbx := rfl
@[simp] theorem putPort_lck (p : Port) (h : HPort) : (putPort p h s).lck = s.lck := rfl
@[simp] theorem putPort_eng (p : Port) (h : HPort) : (putPort p h s).eng = s.eng := rfl
@[simp] theorem putPort_emem (p : Port) (h : HPort) : (putPort p h s).emem = s.emem := rfl
@[simp] theorem putPort_shm (p : Port) (h : HPort) : (putPort p h s).shm = s.shm := rfl
@[simp] theorem putPort_cpy (p : Port) (h : HPort) : (putPort p h s).cpy = s.cpy := rfl
@[simp] theorem putPort_clk (p : Port) (h : HPort) : (putPort p h s).clk = s.clk := rfl
@[simp] theorem putPort_rst (p : Port) (h : HPort) : (putPort p h s).rst = s.rst := rfl
@[simp] theorem putPort_prt (p : Port) (h : HPort) : (putPort p h s).prt = s.prt := rfl
@[simp] theorem putPort_fls (p : Port) (h : HPort) : (putPort p h s).fls = s.fls := rfl
@[simp] theorem putPort_dct (p : Port) (h : HPort) : (putPort p h s).dct = s.dct := rfl
@[simp] theorem putPort_fbk (p : Port) (h : HPort) : (putPort p h s).fbk = s.fbk := rfl
@[simp] theorem putPort_svy (p : Port) (h : HPort) : (putPort p h s).svy = s.svy := rfl
@[simp] theorem putPort_bmk (p : Port) (h : HPort) : (putPort p h s).bmk = s.bmk := rfl
@[simp] theorem putPort_gpio (p : Port) (h : HPort) : (putPort p h s).gpio = s.gpio := rfl
@[simp] theorem putPort_rtc (p : Port) (h : HPort) : (putPort p h s).rtc = s.rtc := rfl
@[simp] theorem putPort_tap (p : Port) (h : HPort) : (putPort p h s).tap = s.tap := rfl
@[simp] theorem putPort_trst (p : Port) (h : HPort) : (putPort p h s).trst = s.trst := rfl
@[simp] theorem putPort_io (p : Port) (h : HPort) : (putPort p h s).io = s.io := rfl
@[simp] theorem putPort_free (p : Port) (h : HPort) : (putPort p h s).free = s.free := rfl

/-! ### putSel -/

@[simp] theorem putSel_pending (p : Port) (q : PortSel) : (putSel p q s).pending = s.pending := rfl
@[simp] theorem putSel_ksc (p : Port) (q : PortSel) : (putSel p q s).ksc = s.ksc := rfl
@[simp] theorem putSel_lgt (p : Port) (q : PortSel) : (putSel p q s).lgt = s.lgt := rfl
@[simp] theorem putSel_lgb (p : Port) (q : PortSel) : (putSel p q s).lgb = s.lgb := rfl
@[simp] theorem putSel_chg (p : Port) (q : PortSel) : (putSel p q s).chg = s.chg := rfl
@[simp] theorem putSel_chp (p : Port) (q : PortSel) : (putSel p q s).chp = s.chp := rfl
@[simp] theorem putSel_cht (p : Port) (q : PortSel) : (putSel p q s).cht = s.cht := rfl
@[simp] theorem putSel_chs (p : Port) (q : PortSel) : (putSel p q s).chs = s.chs := rfl
@[simp] theorem putSel_seq (p : Port) (q : PortSel) : (putSel p q s).seq = s.seq := rfl
@[simp] theorem putSel_tha (p : Port) (q : PortSel) : (putSel p q s).tha = s.tha := rfl
@[simp] theorem putSel_thd (p : Port) (q : PortSel) : (putSel p q s).thd = s.thd := rfl
@[simp] theorem putSel_smb (p : Port) (q : PortSel) : (putSel p q s).smb = s.smb := rfl
@[simp] theorem putSel_hp (p : Port) (q : PortSel) : (putSel p q s).hp = s.hp.set p { s.hp[p] with sel := q } := rfl
@[simp] theorem putSel_hsh (p : Port) (q : PortSel) : (putSel p q s).hsh = s.hsh := rfl
@[simp] theorem putSel_mbx (p : Port) (q : PortSel) : (putSel p q s).mbx = s.mbx := rfl
@[simp] theorem putSel_lck (p : Port) (q : PortSel) : (putSel p q s).lck = s.lck := rfl
@[simp] theorem putSel_eng (p : Port) (q : PortSel) : (putSel p q s).eng = s.eng := rfl
@[simp] theorem putSel_emem (p : Port) (q : PortSel) : (putSel p q s).emem = s.emem := rfl
@[simp] theorem putSel_shm (p : Port) (q : PortSel) : (putSel p q s).shm = s.shm := rfl
@[simp] theorem putSel_cpy (p : Port) (q : PortSel) : (putSel p q s).cpy = s.cpy := rfl
@[simp] theorem putSel_clk (p : Port) (q : PortSel) : (putSel p q s).clk = s.clk := rfl
@[simp] theorem putSel_rst (p : Port) (q : PortSel) : (putSel p q s).rst = s.rst := rfl
@[simp] theorem putSel_prt (p : Port) (q : PortSel) : (putSel p q s).prt = s.prt := rfl
@[simp] theorem putSel_fls (p : Port) (q : PortSel) : (putSel p q s).fls = s.fls := rfl
@[simp] theorem putSel_dct (p : Port) (q : PortSel) : (putSel p q s).dct = s.dct := rfl
@[simp] theorem putSel_fbk (p : Port) (q : PortSel) : (putSel p q s).fbk = s.fbk := rfl
@[simp] theorem putSel_svy (p : Port) (q : PortSel) : (putSel p q s).svy = s.svy := rfl
@[simp] theorem putSel_bmk (p : Port) (q : PortSel) : (putSel p q s).bmk = s.bmk := rfl
@[simp] theorem putSel_gpio (p : Port) (q : PortSel) : (putSel p q s).gpio = s.gpio := rfl
@[simp] theorem putSel_rtc (p : Port) (q : PortSel) : (putSel p q s).rtc = s.rtc := rfl
@[simp] theorem putSel_tap (p : Port) (q : PortSel) : (putSel p q s).tap = s.tap := rfl
@[simp] theorem putSel_trst (p : Port) (q : PortSel) : (putSel p q s).trst = s.trst := rfl
@[simp] theorem putSel_io (p : Port) (q : PortSel) : (putSel p q s).io = s.io := rfl
@[simp] theorem putSel_free (p : Port) (q : PortSel) : (putSel p q s).free = s.free := rfl

/-! ### putPrt -/

@[simp] theorem putPrt_pending (q : Prt) : (putPrt q s).pending = s.pending := rfl
@[simp] theorem putPrt_ksc (q : Prt) : (putPrt q s).ksc = s.ksc := rfl
@[simp] theorem putPrt_lgt (q : Prt) : (putPrt q s).lgt = s.lgt := rfl
@[simp] theorem putPrt_lgb (q : Prt) : (putPrt q s).lgb = s.lgb := rfl
@[simp] theorem putPrt_chg (q : Prt) : (putPrt q s).chg = s.chg := rfl
@[simp] theorem putPrt_chp (q : Prt) : (putPrt q s).chp = s.chp := rfl
@[simp] theorem putPrt_cht (q : Prt) : (putPrt q s).cht = s.cht := rfl
@[simp] theorem putPrt_chs (q : Prt) : (putPrt q s).chs = s.chs := rfl
@[simp] theorem putPrt_seq (q : Prt) : (putPrt q s).seq = s.seq := rfl
@[simp] theorem putPrt_tha (q : Prt) : (putPrt q s).tha = s.tha := rfl
@[simp] theorem putPrt_thd (q : Prt) : (putPrt q s).thd = s.thd := rfl
@[simp] theorem putPrt_smb (q : Prt) : (putPrt q s).smb = s.smb := rfl
@[simp] theorem putPrt_hp (q : Prt) : (putPrt q s).hp = s.hp := rfl
@[simp] theorem putPrt_hsh (q : Prt) : (putPrt q s).hsh = s.hsh := rfl
@[simp] theorem putPrt_mbx (q : Prt) : (putPrt q s).mbx = s.mbx := rfl
@[simp] theorem putPrt_lck (q : Prt) : (putPrt q s).lck = s.lck := rfl
@[simp] theorem putPrt_eng (q : Prt) : (putPrt q s).eng = s.eng := rfl
@[simp] theorem putPrt_emem (q : Prt) : (putPrt q s).emem = s.emem := rfl
@[simp] theorem putPrt_shm (q : Prt) : (putPrt q s).shm = s.shm := rfl
@[simp] theorem putPrt_cpy (q : Prt) : (putPrt q s).cpy = s.cpy := rfl
@[simp] theorem putPrt_clk (q : Prt) : (putPrt q s).clk = s.clk := rfl
@[simp] theorem putPrt_rst (q : Prt) : (putPrt q s).rst = s.rst := rfl
@[simp] theorem putPrt_prt (q : Prt) : (putPrt q s).prt = q := rfl
@[simp] theorem putPrt_fls (q : Prt) : (putPrt q s).fls = s.fls := rfl
@[simp] theorem putPrt_dct (q : Prt) : (putPrt q s).dct = s.dct := rfl
@[simp] theorem putPrt_fbk (q : Prt) : (putPrt q s).fbk = s.fbk := rfl
@[simp] theorem putPrt_svy (q : Prt) : (putPrt q s).svy = s.svy := rfl
@[simp] theorem putPrt_bmk (q : Prt) : (putPrt q s).bmk = s.bmk := rfl
@[simp] theorem putPrt_gpio (q : Prt) : (putPrt q s).gpio = s.gpio := rfl
@[simp] theorem putPrt_rtc (q : Prt) : (putPrt q s).rtc = s.rtc := rfl
@[simp] theorem putPrt_tap (q : Prt) : (putPrt q s).tap = s.tap := rfl
@[simp] theorem putPrt_trst (q : Prt) : (putPrt q s).trst = s.trst := rfl
@[simp] theorem putPrt_io (q : Prt) : (putPrt q s).io = s.io := rfl
@[simp] theorem putPrt_free (q : Prt) : (putPrt q s).free = s.free := rfl

/-! ### putDct -/

@[simp] theorem putDct_pending (q : Dct) : (putDct q s).pending = s.pending := rfl
@[simp] theorem putDct_ksc (q : Dct) : (putDct q s).ksc = s.ksc := rfl
@[simp] theorem putDct_lgt (q : Dct) : (putDct q s).lgt = s.lgt := rfl
@[simp] theorem putDct_lgb (q : Dct) : (putDct q s).lgb = s.lgb := rfl
@[simp] theorem putDct_chg (q : Dct) : (putDct q s).chg = s.chg := rfl
@[simp] theorem putDct_chp (q : Dct) : (putDct q s).chp = s.chp := rfl
@[simp] theorem putDct_cht (q : Dct) : (putDct q s).cht = s.cht := rfl
@[simp] theorem putDct_chs (q : Dct) : (putDct q s).chs = s.chs := rfl
@[simp] theorem putDct_seq (q : Dct) : (putDct q s).seq = s.seq := rfl
@[simp] theorem putDct_tha (q : Dct) : (putDct q s).tha = s.tha := rfl
@[simp] theorem putDct_thd (q : Dct) : (putDct q s).thd = s.thd := rfl
@[simp] theorem putDct_smb (q : Dct) : (putDct q s).smb = s.smb := rfl
@[simp] theorem putDct_hp (q : Dct) : (putDct q s).hp = s.hp := rfl
@[simp] theorem putDct_hsh (q : Dct) : (putDct q s).hsh = s.hsh := rfl
@[simp] theorem putDct_mbx (q : Dct) : (putDct q s).mbx = s.mbx := rfl
@[simp] theorem putDct_lck (q : Dct) : (putDct q s).lck = s.lck := rfl
@[simp] theorem putDct_eng (q : Dct) : (putDct q s).eng = s.eng := rfl
@[simp] theorem putDct_emem (q : Dct) : (putDct q s).emem = s.emem := rfl
@[simp] theorem putDct_shm (q : Dct) : (putDct q s).shm = s.shm := rfl
@[simp] theorem putDct_cpy (q : Dct) : (putDct q s).cpy = s.cpy := rfl
@[simp] theorem putDct_clk (q : Dct) : (putDct q s).clk = s.clk := rfl
@[simp] theorem putDct_rst (q : Dct) : (putDct q s).rst = s.rst := rfl
@[simp] theorem putDct_prt (q : Dct) : (putDct q s).prt = s.prt := rfl
@[simp] theorem putDct_fls (q : Dct) : (putDct q s).fls = s.fls := rfl
@[simp] theorem putDct_dct (q : Dct) : (putDct q s).dct = q := rfl
@[simp] theorem putDct_fbk (q : Dct) : (putDct q s).fbk = s.fbk := rfl
@[simp] theorem putDct_svy (q : Dct) : (putDct q s).svy = s.svy := rfl
@[simp] theorem putDct_bmk (q : Dct) : (putDct q s).bmk = s.bmk := rfl
@[simp] theorem putDct_gpio (q : Dct) : (putDct q s).gpio = s.gpio := rfl
@[simp] theorem putDct_rtc (q : Dct) : (putDct q s).rtc = s.rtc := rfl
@[simp] theorem putDct_tap (q : Dct) : (putDct q s).tap = s.tap := rfl
@[simp] theorem putDct_trst (q : Dct) : (putDct q s).trst = s.trst := rfl
@[simp] theorem putDct_io (q : Dct) : (putDct q s).io = s.io := rfl
@[simp] theorem putDct_free (q : Dct) : (putDct q s).free = s.free := rfl

/-! ### putSmb -/

@[simp] theorem putSmb_pending (c : Fin 4) (q : Smb) : (putSmb c q s).pending = s.pending := rfl
@[simp] theorem putSmb_ksc (c : Fin 4) (q : Smb) : (putSmb c q s).ksc = s.ksc := rfl
@[simp] theorem putSmb_lgt (c : Fin 4) (q : Smb) : (putSmb c q s).lgt = s.lgt := rfl
@[simp] theorem putSmb_lgb (c : Fin 4) (q : Smb) : (putSmb c q s).lgb = s.lgb := rfl
@[simp] theorem putSmb_chg (c : Fin 4) (q : Smb) : (putSmb c q s).chg = s.chg := rfl
@[simp] theorem putSmb_chp (c : Fin 4) (q : Smb) : (putSmb c q s).chp = s.chp := rfl
@[simp] theorem putSmb_cht (c : Fin 4) (q : Smb) : (putSmb c q s).cht = s.cht := rfl
@[simp] theorem putSmb_chs (c : Fin 4) (q : Smb) : (putSmb c q s).chs = s.chs := rfl
@[simp] theorem putSmb_seq (c : Fin 4) (q : Smb) : (putSmb c q s).seq = s.seq := rfl
@[simp] theorem putSmb_tha (c : Fin 4) (q : Smb) : (putSmb c q s).tha = s.tha := rfl
@[simp] theorem putSmb_thd (c : Fin 4) (q : Smb) : (putSmb c q s).thd = s.thd := rfl
@[simp] theorem putSmb_smb (c : Fin 4) (q : Smb) : (putSmb c q s).smb = s.smb.set c q := rfl
@[simp] theorem putSmb_hp (c : Fin 4) (q : Smb) : (putSmb c q s).hp = s.hp := rfl
@[simp] theorem putSmb_hsh (c : Fin 4) (q : Smb) : (putSmb c q s).hsh = s.hsh := rfl
@[simp] theorem putSmb_mbx (c : Fin 4) (q : Smb) : (putSmb c q s).mbx = s.mbx := rfl
@[simp] theorem putSmb_lck (c : Fin 4) (q : Smb) : (putSmb c q s).lck = s.lck := rfl
@[simp] theorem putSmb_eng (c : Fin 4) (q : Smb) : (putSmb c q s).eng = s.eng := rfl
@[simp] theorem putSmb_emem (c : Fin 4) (q : Smb) : (putSmb c q s).emem = s.emem := rfl
@[simp] theorem putSmb_shm (c : Fin 4) (q : Smb) : (putSmb c q s).shm = s.shm := rfl
@[simp] theorem putSmb_cpy (c : Fin 4) (q : Smb) : (putSmb c q s).cpy = s.cpy := rfl
@[simp] theorem putSmb_clk (c : Fin 4) (q : Smb) : (putSmb c q s).clk = s.clk := rfl
@[simp] theorem putSmb_rst (c : Fin 4) (q : Smb) : (putSmb c q s).rst = s.rst := rfl
@[simp] theorem putSmb_prt (c : Fin 4) (q : Smb) : (putSmb c q s).prt = s.prt := rfl
@[simp] theorem putSmb_fls (c : Fin 4) (q : Smb) : (putSmb c q s).fls = s.fls := rfl
@[simp] theorem putSmb_dct (c : Fin 4) (q : Smb) : (putSmb c q s).dct = s.dct := rfl
@[simp] theorem putSmb_fbk (c : Fin 4) (q : Smb) : (putSmb c q s).fbk = s.fbk := rfl
@[simp] theorem putSmb_svy (c : Fin 4) (q : Smb) : (putSmb c q s).svy = s.svy := rfl
@[simp] theorem putSmb_bmk (c : Fin 4) (q : Smb) : (putSmb c q s).bmk = s.bmk := rfl
@[simp] theorem putSmb_gpio (c : Fin 4) (q : Smb) : (putSmb c q s).gpio = s.gpio := rfl
@[simp] theorem putSmb_rtc (c : Fin 4) (q : Smb) : (putSmb c q s).rtc = s.rtc := rfl
@[simp] theorem putSmb_tap (c : Fin 4) (q : Smb) : (putSmb c q s).tap = s.tap := rfl
@[simp] theorem putSmb_trst (c : Fin 4) (q : Smb) : (putSmb c q s).trst = s.trst := rfl
@[simp] theorem putSmb_io (c : Fin 4) (q : Smb) : (putSmb c q s).io = s.io := rfl
@[simp] theorem putSmb_free (c : Fin 4) (q : Smb) : (putSmb c q s).free = s.free := rfl

/-! ### putChan -/

@[simp] theorem putChan_pending (c : Nat) (x : Chan) : (putChan c x s).pending = s.pending := rfl
@[simp] theorem putChan_ksc (c : Nat) (x : Chan) : (putChan c x s).ksc = s.ksc := rfl
@[simp] theorem putChan_lgt (c : Nat) (x : Chan) : (putChan c x s).lgt = s.lgt := rfl
@[simp] theorem putChan_lgb (c : Nat) (x : Chan) : (putChan c x s).lgb = s.lgb := rfl
@[simp] theorem putChan_chg (c : Nat) (x : Chan) : (putChan c x s).chg = s.chg := rfl
@[simp] theorem putChan_chp (c : Nat) (x : Chan) : (putChan c x s).chp = s.chp := rfl
@[simp] theorem putChan_cht (c : Nat) (x : Chan) : (putChan c x s).cht = s.cht := rfl
@[simp] theorem putChan_chs (c : Nat) (x : Chan) : (putChan c x s).chs = s.chs := rfl
@[simp] theorem putChan_seq (c : Nat) (x : Chan) : (putChan c x s).seq = s.seq := rfl
@[simp] theorem putChan_tha (c : Nat) (x : Chan) : (putChan c x s).tha = s.tha := rfl
@[simp] theorem putChan_thd (c : Nat) (x : Chan) : (putChan c x s).thd = s.thd := rfl
@[simp] theorem putChan_smb (c : Nat) (x : Chan) : (putChan c x s).smb = s.smb := rfl
@[simp] theorem putChan_hp (c : Nat) (x : Chan) : (putChan c x s).hp = s.hp := rfl
@[simp] theorem putChan_hsh (c : Nat) (x : Chan) : (putChan c x s).hsh = s.hsh := rfl
@[simp] theorem putChan_mbx (c : Nat) (x : Chan) : (putChan c x s).mbx = { s.mbx with chans := spSet {} s.mbx.chans c x } := rfl
@[simp] theorem putChan_lck (c : Nat) (x : Chan) : (putChan c x s).lck = s.lck := rfl
@[simp] theorem putChan_eng (c : Nat) (x : Chan) : (putChan c x s).eng = s.eng := rfl
@[simp] theorem putChan_emem (c : Nat) (x : Chan) : (putChan c x s).emem = s.emem := rfl
@[simp] theorem putChan_shm (c : Nat) (x : Chan) : (putChan c x s).shm = s.shm := rfl
@[simp] theorem putChan_cpy (c : Nat) (x : Chan) : (putChan c x s).cpy = s.cpy := rfl
@[simp] theorem putChan_clk (c : Nat) (x : Chan) : (putChan c x s).clk = s.clk := rfl
@[simp] theorem putChan_rst (c : Nat) (x : Chan) : (putChan c x s).rst = s.rst := rfl
@[simp] theorem putChan_prt (c : Nat) (x : Chan) : (putChan c x s).prt = s.prt := rfl
@[simp] theorem putChan_fls (c : Nat) (x : Chan) : (putChan c x s).fls = s.fls := rfl
@[simp] theorem putChan_dct (c : Nat) (x : Chan) : (putChan c x s).dct = s.dct := rfl
@[simp] theorem putChan_fbk (c : Nat) (x : Chan) : (putChan c x s).fbk = s.fbk := rfl
@[simp] theorem putChan_svy (c : Nat) (x : Chan) : (putChan c x s).svy = s.svy := rfl
@[simp] theorem putChan_bmk (c : Nat) (x : Chan) : (putChan c x s).bmk = s.bmk := rfl
@[simp] theorem putChan_gpio (c : Nat) (x : Chan) : (putChan c x s).gpio = s.gpio := rfl
@[simp] theorem putChan_rtc (c : Nat) (x : Chan) : (putChan c x s).rtc = s.rtc := rfl
@[simp] theorem putChan_tap (c : Nat) (x : Chan) : (putChan c x s).tap = s.tap := rfl
@[simp] theorem putChan_trst (c : Nat) (x : Chan) : (putChan c x s).trst = s.trst := rfl
@[simp] theorem putChan_io (c : Nat) (x : Chan) : (putChan c x s).io = s.io := rfl
@[simp] theorem putChan_free (c : Nat) (x : Chan) : (putChan c x s).free = s.free := rfl

/-! ### putEngMb -/

@[simp] theorem putEngMb_pending (e : Fin 6) (q : EngMb) : (putEngMb e q s).pending = s.pending := rfl
@[simp] theorem putEngMb_ksc (e : Fin 6) (q : EngMb) : (putEngMb e q s).ksc = s.ksc := rfl
@[simp] theorem putEngMb_lgt (e : Fin 6) (q : EngMb) : (putEngMb e q s).lgt = s.lgt := rfl
@[simp] theorem putEngMb_lgb (e : Fin 6) (q : EngMb) : (putEngMb e q s).lgb = s.lgb := rfl
@[simp] theorem putEngMb_chg (e : Fin 6) (q : EngMb) : (putEngMb e q s).chg = s.chg := rfl
@[simp] theorem putEngMb_chp (e : Fin 6) (q : EngMb) : (putEngMb e q s).chp = s.chp := rfl
@[simp] theorem putEngMb_cht (e : Fin 6) (q : EngMb) : (putEngMb e q s).cht = s.cht := rfl
@[simp] theorem putEngMb_chs (e : Fin 6) (q : EngMb) : (putEngMb e q s).chs = s.chs := rfl
@[simp] theorem putEngMb_seq (e : Fin 6) (q : EngMb) : (putEngMb e q s).seq = s.seq := rfl
@[simp] theorem putEngMb_tha (e : Fin 6) (q : EngMb) : (putEngMb e q s).tha = s.tha := rfl
@[simp] theorem putEngMb_thd (e : Fin 6) (q : EngMb) : (putEngMb e q s).thd = s.thd := rfl
@[simp] theorem putEngMb_smb (e : Fin 6) (q : EngMb) : (putEngMb e q s).smb = s.smb := rfl
@[simp] theorem putEngMb_hp (e : Fin 6) (q : EngMb) : (putEngMb e q s).hp = s.hp := rfl
@[simp] theorem putEngMb_hsh (e : Fin 6) (q : EngMb) : (putEngMb e q s).hsh = s.hsh := rfl
@[simp] theorem putEngMb_mbx (e : Fin 6) (q : EngMb) : (putEngMb e q s).mbx = { s.mbx with eng := s.mbx.eng.set e q } := rfl
@[simp] theorem putEngMb_lck (e : Fin 6) (q : EngMb) : (putEngMb e q s).lck = s.lck := rfl
@[simp] theorem putEngMb_eng (e : Fin 6) (q : EngMb) : (putEngMb e q s).eng = s.eng := rfl
@[simp] theorem putEngMb_emem (e : Fin 6) (q : EngMb) : (putEngMb e q s).emem = s.emem := rfl
@[simp] theorem putEngMb_shm (e : Fin 6) (q : EngMb) : (putEngMb e q s).shm = s.shm := rfl
@[simp] theorem putEngMb_cpy (e : Fin 6) (q : EngMb) : (putEngMb e q s).cpy = s.cpy := rfl
@[simp] theorem putEngMb_clk (e : Fin 6) (q : EngMb) : (putEngMb e q s).clk = s.clk := rfl
@[simp] theorem putEngMb_rst (e : Fin 6) (q : EngMb) : (putEngMb e q s).rst = s.rst := rfl
@[simp] theorem putEngMb_prt (e : Fin 6) (q : EngMb) : (putEngMb e q s).prt = s.prt := rfl
@[simp] theorem putEngMb_fls (e : Fin 6) (q : EngMb) : (putEngMb e q s).fls = s.fls := rfl
@[simp] theorem putEngMb_dct (e : Fin 6) (q : EngMb) : (putEngMb e q s).dct = s.dct := rfl
@[simp] theorem putEngMb_fbk (e : Fin 6) (q : EngMb) : (putEngMb e q s).fbk = s.fbk := rfl
@[simp] theorem putEngMb_svy (e : Fin 6) (q : EngMb) : (putEngMb e q s).svy = s.svy := rfl
@[simp] theorem putEngMb_bmk (e : Fin 6) (q : EngMb) : (putEngMb e q s).bmk = s.bmk := rfl
@[simp] theorem putEngMb_gpio (e : Fin 6) (q : EngMb) : (putEngMb e q s).gpio = s.gpio := rfl
@[simp] theorem putEngMb_rtc (e : Fin 6) (q : EngMb) : (putEngMb e q s).rtc = s.rtc := rfl
@[simp] theorem putEngMb_tap (e : Fin 6) (q : EngMb) : (putEngMb e q s).tap = s.tap := rfl
@[simp] theorem putEngMb_trst (e : Fin 6) (q : EngMb) : (putEngMb e q s).trst = s.trst := rfl
@[simp] theorem putEngMb_io (e : Fin 6) (q : EngMb) : (putEngMb e q s).io = s.io := rfl
@[simp] theorem putEngMb_free (e : Fin 6) (q : EngMb) : (putEngMb e q s).free = s.free := rfl

/-! ### disSet -/

@[simp] theorem disSet_pending (m : Nat) : (disSet m s).pending = s.pending := rfl
@[simp] theorem disSet_ksc (m : Nat) : (disSet m s).ksc = s.ksc := rfl
@[simp] theorem disSet_lgt (m : Nat) : (disSet m s).lgt = s.lgt := rfl
@[simp] theorem disSet_lgb (m : Nat) : (disSet m s).lgb = s.lgb := rfl
@[simp] theorem disSet_chg (m : Nat) : (disSet m s).chg = s.chg := rfl
@[simp] theorem disSet_chp (m : Nat) : (disSet m s).chp = s.chp := rfl
@[simp] theorem disSet_cht (m : Nat) : (disSet m s).cht = s.cht := rfl
@[simp] theorem disSet_chs (m : Nat) : (disSet m s).chs = s.chs := rfl
@[simp] theorem disSet_seq (m : Nat) : (disSet m s).seq = s.seq := rfl
@[simp] theorem disSet_tha (m : Nat) : (disSet m s).tha = s.tha := rfl
@[simp] theorem disSet_thd (m : Nat) : (disSet m s).thd = s.thd := rfl
@[simp] theorem disSet_smb (m : Nat) : (disSet m s).smb = s.smb := rfl
@[simp] theorem disSet_hp (m : Nat) : (disSet m s).hp = s.hp := rfl
@[simp] theorem disSet_hsh (m : Nat) : (disSet m s).hsh = s.hsh := rfl
@[simp] theorem disSet_mbx (m : Nat) : (disSet m s).mbx = s.mbx := rfl
@[simp] theorem disSet_lck (m : Nat) : (disSet m s).lck = s.lck := rfl
@[simp] theorem disSet_eng (m : Nat) : (disSet m s).eng = s.eng := rfl
@[simp] theorem disSet_emem (m : Nat) : (disSet m s).emem = s.emem := rfl
@[simp] theorem disSet_shm (m : Nat) : (disSet m s).shm = s.shm := rfl
@[simp] theorem disSet_cpy (m : Nat) : (disSet m s).cpy = s.cpy := rfl
@[simp] theorem disSet_clk (m : Nat) : (disSet m s).clk = s.clk := rfl
@[simp] theorem disSet_rst (m : Nat) : (disSet m s).rst = s.rst := rfl
@[simp] theorem disSet_prt (m : Nat) : (disSet m s).prt = s.prt := rfl
@[simp] theorem disSet_fls (m : Nat) : (disSet m s).fls = s.fls := rfl
@[simp] theorem disSet_dct (m : Nat) : (disSet m s).dct = { s.dct with dis := s.dct.dis ||| m } := rfl
@[simp] theorem disSet_fbk (m : Nat) : (disSet m s).fbk = s.fbk := rfl
@[simp] theorem disSet_svy (m : Nat) : (disSet m s).svy = s.svy := rfl
@[simp] theorem disSet_bmk (m : Nat) : (disSet m s).bmk = s.bmk := rfl
@[simp] theorem disSet_gpio (m : Nat) : (disSet m s).gpio = s.gpio := rfl
@[simp] theorem disSet_rtc (m : Nat) : (disSet m s).rtc = s.rtc := rfl
@[simp] theorem disSet_tap (m : Nat) : (disSet m s).tap = s.tap := rfl
@[simp] theorem disSet_trst (m : Nat) : (disSet m s).trst = s.trst := rfl
@[simp] theorem disSet_io (m : Nat) : (disSet m s).io = s.io := rfl
@[simp] theorem disSet_free (m : Nat) : (disSet m s).free = s.free := rfl

/-! ### sisSet -/

@[simp] theorem sisSet_pending (m : Nat) : (sisSet m s).pending = s.pending := rfl
@[simp] theorem sisSet_ksc (m : Nat) : (sisSet m s).ksc = s.ksc := rfl
@[simp] theorem sisSet_lgt (m : Nat) : (sisSet m s).lgt = s.lgt := rfl
@[simp] theorem sisSet_lgb (m : Nat) : (sisSet m s).lgb = s.lgb := rfl
@[simp] theorem sisSet_chg (m : Nat) : (sisSet m s).chg = s.chg := rfl
@[simp] theorem sisSet_chp (m : Nat) : (sisSet m s).chp = s.chp := rfl
@[simp] theorem sisSet_cht (m : Nat) : (sisSet m s).cht = s.cht := rfl
@[simp] theorem sisSet_chs (m : Nat) : (sisSet m s).chs = s.chs := rfl
@[simp] theorem sisSet_seq (m : Nat) : (sisSet m s).seq = { s.seq with sis := s.seq.sis ||| m } := rfl
@[simp] theorem sisSet_tha (m : Nat) : (sisSet m s).tha = s.tha := rfl
@[simp] theorem sisSet_thd (m : Nat) : (sisSet m s).thd = s.thd := rfl
@[simp] theorem sisSet_smb (m : Nat) : (sisSet m s).smb = s.smb := rfl
@[simp] theorem sisSet_hp (m : Nat) : (sisSet m s).hp = s.hp := rfl
@[simp] theorem sisSet_hsh (m : Nat) : (sisSet m s).hsh = s.hsh := rfl
@[simp] theorem sisSet_mbx (m : Nat) : (sisSet m s).mbx = s.mbx := rfl
@[simp] theorem sisSet_lck (m : Nat) : (sisSet m s).lck = s.lck := rfl
@[simp] theorem sisSet_eng (m : Nat) : (sisSet m s).eng = s.eng := rfl
@[simp] theorem sisSet_emem (m : Nat) : (sisSet m s).emem = s.emem := rfl
@[simp] theorem sisSet_shm (m : Nat) : (sisSet m s).shm = s.shm := rfl
@[simp] theorem sisSet_cpy (m : Nat) : (sisSet m s).cpy = s.cpy := rfl
@[simp] theorem sisSet_clk (m : Nat) : (sisSet m s).clk = s.clk := rfl
@[simp] theorem sisSet_rst (m : Nat) : (sisSet m s).rst = s.rst := rfl
@[simp] theorem sisSet_prt (m : Nat) : (sisSet m s).prt = s.prt := rfl
@[simp] theorem sisSet_fls (m : Nat) : (sisSet m s).fls = s.fls := rfl
@[simp] theorem sisSet_dct (m : Nat) : (sisSet m s).dct = s.dct := rfl
@[simp] theorem sisSet_fbk (m : Nat) : (sisSet m s).fbk = s.fbk := rfl
@[simp] theorem sisSet_svy (m : Nat) : (sisSet m s).svy = s.svy := rfl
@[simp] theorem sisSet_bmk (m : Nat) : (sisSet m s).bmk = s.bmk := rfl
@[simp] theorem sisSet_gpio (m : Nat) : (sisSet m s).gpio = s.gpio := rfl
@[simp] theorem sisSet_rtc (m : Nat) : (sisSet m s).rtc = s.rtc := rfl
@[simp] theorem sisSet_tap (m : Nat) : (sisSet m s).tap = s.tap := rfl
@[simp] theorem sisSet_trst (m : Nat) : (sisSet m s).trst = s.trst := rfl
@[simp] theorem sisSet_io (m : Nat) : (sisSet m s).io = s.io := rfl
@[simp] theorem sisSet_free (m : Nat) : (sisSet m s).free = s.free := rfl

/-! ### sfltSet -/

@[simp] theorem sfltSet_pending (m : Nat) : (sfltSet m s).pending = s.pending := rfl
@[simp] theorem sfltSet_ksc (m : Nat) : (sfltSet m s).ksc = s.ksc := rfl
@[simp] theorem sfltSet_lgt (m : Nat) : (sfltSet m s).lgt = s.lgt := rfl
@[simp] theorem sfltSet_lgb (m : Nat) : (sfltSet m s).lgb = s.lgb := rfl
@[simp] theorem sfltSet_chg (m : Nat) : (sfltSet m s).chg = s.chg := rfl
@[simp] theorem sfltSet_chp (m : Nat) : (sfltSet m s).chp = s.chp := rfl
@[simp] theorem sfltSet_cht (m : Nat) : (sfltSet m s).cht = s.cht := rfl
@[simp] theorem sfltSet_chs (m : Nat) : (sfltSet m s).chs = s.chs := rfl
@[simp] theorem sfltSet_seq (m : Nat) : (sfltSet m s).seq = { s.seq with sflt := s.seq.sflt ||| m, sis := s.seq.sis ||| 0x08 } := rfl
@[simp] theorem sfltSet_tha (m : Nat) : (sfltSet m s).tha = s.tha := rfl
@[simp] theorem sfltSet_thd (m : Nat) : (sfltSet m s).thd = s.thd := rfl
@[simp] theorem sfltSet_smb (m : Nat) : (sfltSet m s).smb = s.smb := rfl
@[simp] theorem sfltSet_hp (m : Nat) : (sfltSet m s).hp = s.hp := rfl
@[simp] theorem sfltSet_hsh (m : Nat) : (sfltSet m s).hsh = s.hsh := rfl
@[simp] theorem sfltSet_mbx (m : Nat) : (sfltSet m s).mbx = s.mbx := rfl
@[simp] theorem sfltSet_lck (m : Nat) : (sfltSet m s).lck = s.lck := rfl
@[simp] theorem sfltSet_eng (m : Nat) : (sfltSet m s).eng = s.eng := rfl
@[simp] theorem sfltSet_emem (m : Nat) : (sfltSet m s).emem = s.emem := rfl
@[simp] theorem sfltSet_shm (m : Nat) : (sfltSet m s).shm = s.shm := rfl
@[simp] theorem sfltSet_cpy (m : Nat) : (sfltSet m s).cpy = s.cpy := rfl
@[simp] theorem sfltSet_clk (m : Nat) : (sfltSet m s).clk = s.clk := rfl
@[simp] theorem sfltSet_rst (m : Nat) : (sfltSet m s).rst = s.rst := rfl
@[simp] theorem sfltSet_prt (m : Nat) : (sfltSet m s).prt = s.prt := rfl
@[simp] theorem sfltSet_fls (m : Nat) : (sfltSet m s).fls = s.fls := rfl
@[simp] theorem sfltSet_dct (m : Nat) : (sfltSet m s).dct = s.dct := rfl
@[simp] theorem sfltSet_fbk (m : Nat) : (sfltSet m s).fbk = s.fbk := rfl
@[simp] theorem sfltSet_svy (m : Nat) : (sfltSet m s).svy = s.svy := rfl
@[simp] theorem sfltSet_bmk (m : Nat) : (sfltSet m s).bmk = s.bmk := rfl
@[simp] theorem sfltSet_gpio (m : Nat) : (sfltSet m s).gpio = s.gpio := rfl
@[simp] theorem sfltSet_rtc (m : Nat) : (sfltSet m s).rtc = s.rtc := rfl
@[simp] theorem sfltSet_tap (m : Nat) : (sfltSet m s).tap = s.tap := rfl
@[simp] theorem sfltSet_trst (m : Nat) : (sfltSet m s).trst = s.trst := rfl
@[simp] theorem sfltSet_io (m : Nat) : (sfltSet m s).io = s.io := rfl
@[simp] theorem sfltSet_free (m : Nat) : (sfltSet m s).free = s.free := rfl

/-! ### tisSet -/

@[simp] theorem tisSet_pending (m : Nat) : (tisSet m s).pending = s.pending := rfl
@[simp] theorem tisSet_ksc (m : Nat) : (tisSet m s).ksc = s.ksc := rfl
@[simp] theorem tisSet_lgt (m : Nat) : (tisSet m s).lgt = s.lgt := rfl
@[simp] theorem tisSet_lgb (m : Nat) : (tisSet m s).lgb = s.lgb := rfl
@[simp] theorem tisSet_chg (m : Nat) : (tisSet m s).chg = s.chg := rfl
@[simp] theorem tisSet_chp (m : Nat) : (tisSet m s).chp = s.chp := rfl
@[simp] theorem tisSet_cht (m : Nat) : (tisSet m s).cht = s.cht := rfl
@[simp] theorem tisSet_chs (m : Nat) : (tisSet m s).chs = s.chs := rfl
@[simp] theorem tisSet_seq (m : Nat) : (tisSet m s).seq = s.seq := rfl
@[simp] theorem tisSet_tha (m : Nat) : (tisSet m s).tha = { s.tha with tis := s.tha.tis ||| m } := rfl
@[simp] theorem tisSet_thd (m : Nat) : (tisSet m s).thd = s.thd := rfl
@[simp] theorem tisSet_smb (m : Nat) : (tisSet m s).smb = s.smb := rfl
@[simp] theorem tisSet_hp (m : Nat) : (tisSet m s).hp = s.hp := rfl
@[simp] theorem tisSet_hsh (m : Nat) : (tisSet m s).hsh = s.hsh := rfl
@[simp] theorem tisSet_mbx (m : Nat) : (tisSet m s).mbx = s.mbx := rfl
@[simp] theorem tisSet_lck (m : Nat) : (tisSet m s).lck = s.lck := rfl
@[simp] theorem tisSet_eng (m : Nat) : (tisSet m s).eng = s.eng := rfl
@[simp] theorem tisSet_emem (m : Nat) : (tisSet m s).emem = s.emem := rfl
@[simp] theorem tisSet_shm (m : Nat) : (tisSet m s).shm = s.shm := rfl
@[simp] theorem tisSet_cpy (m : Nat) : (tisSet m s).cpy = s.cpy := rfl
@[simp] theorem tisSet_clk (m : Nat) : (tisSet m s).clk = s.clk := rfl
@[simp] theorem tisSet_rst (m : Nat) : (tisSet m s).rst = s.rst := rfl
@[simp] theorem tisSet_prt (m : Nat) : (tisSet m s).prt = s.prt := rfl
@[simp] theorem tisSet_fls (m : Nat) : (tisSet m s).fls = s.fls := rfl
@[simp] theorem tisSet_dct (m : Nat) : (tisSet m s).dct = s.dct := rfl
@[simp] theorem tisSet_fbk (m : Nat) : (tisSet m s).fbk = s.fbk := rfl
@[simp] theorem tisSet_svy (m : Nat) : (tisSet m s).svy = s.svy := rfl
@[simp] theorem tisSet_bmk (m : Nat) : (tisSet m s).bmk = s.bmk := rfl
@[simp] theorem tisSet_gpio (m : Nat) : (tisSet m s).gpio = s.gpio := rfl
@[simp] theorem tisSet_rtc (m : Nat) : (tisSet m s).rtc = s.rtc := rfl
@[simp] theorem tisSet_tap (m : Nat) : (tisSet m s).tap = s.tap := rfl
@[simp] theorem tisSet_trst (m : Nat) : (tisSet m s).trst = s.trst := rfl
@[simp] theorem tisSet_io (m : Nat) : (tisSet m s).io = s.io := rfl
@[simp] theorem tisSet_free (m : Nat) : (tisSet m s).free = s.free := rfl

/-! ### tfltSet -/

@[simp] theorem tfltSet_pending (m : Nat) : (tfltSet m s).pending = s.pending := rfl
@[simp] theorem tfltSet_ksc (m : Nat) : (tfltSet m s).ksc = s.ksc := rfl
@[simp] theorem tfltSet_lgt (m : Nat) : (tfltSet m s).lgt = s.lgt := rfl
@[simp] theorem tfltSet_lgb (m : Nat) : (tfltSet m s).lgb = s.lgb := rfl
@[simp] theorem tfltSet_chg (m : Nat) : (tfltSet m s).chg = s.chg := rfl
@[simp] theorem tfltSet_chp (m : Nat) : (tfltSet m s).chp = s.chp := rfl
@[simp] theorem tfltSet_cht (m : Nat) : (tfltSet m s).cht = s.cht := rfl
@[simp] theorem tfltSet_chs (m : Nat) : (tfltSet m s).chs = s.chs := rfl
@[simp] theorem tfltSet_seq (m : Nat) : (tfltSet m s).seq = s.seq := rfl
@[simp] theorem tfltSet_tha (m : Nat) : (tfltSet m s).tha = { s.tha with tflt := s.tha.tflt ||| m } := rfl
@[simp] theorem tfltSet_thd (m : Nat) : (tfltSet m s).thd = s.thd := rfl
@[simp] theorem tfltSet_smb (m : Nat) : (tfltSet m s).smb = s.smb := rfl
@[simp] theorem tfltSet_hp (m : Nat) : (tfltSet m s).hp = s.hp := rfl
@[simp] theorem tfltSet_hsh (m : Nat) : (tfltSet m s).hsh = s.hsh := rfl
@[simp] theorem tfltSet_mbx (m : Nat) : (tfltSet m s).mbx = s.mbx := rfl
@[simp] theorem tfltSet_lck (m : Nat) : (tfltSet m s).lck = s.lck := rfl
@[simp] theorem tfltSet_eng (m : Nat) : (tfltSet m s).eng = s.eng := rfl
@[simp] theorem tfltSet_emem (m : Nat) : (tfltSet m s).emem = s.emem := rfl
@[simp] theorem tfltSet_shm (m : Nat) : (tfltSet m s).shm = s.shm := rfl
@[simp] theorem tfltSet_cpy (m : Nat) : (tfltSet m s).cpy = s.cpy := rfl
@[simp] theorem tfltSet_clk (m : Nat) : (tfltSet m s).clk = s.clk := rfl
@[simp] theorem tfltSet_rst (m : Nat) : (tfltSet m s).rst = s.rst := rfl
@[simp] theorem tfltSet_prt (m : Nat) : (tfltSet m s).prt = s.prt := rfl
@[simp] theorem tfltSet_fls (m : Nat) : (tfltSet m s).fls = s.fls := rfl
@[simp] theorem tfltSet_dct (m : Nat) : (tfltSet m s).dct = s.dct := rfl
@[simp] theorem tfltSet_fbk (m : Nat) : (tfltSet m s).fbk = s.fbk := rfl
@[simp] theorem tfltSet_svy (m : Nat) : (tfltSet m s).svy = s.svy := rfl
@[simp] theorem tfltSet_bmk (m : Nat) : (tfltSet m s).bmk = s.bmk := rfl
@[simp] theorem tfltSet_gpio (m : Nat) : (tfltSet m s).gpio = s.gpio := rfl
@[simp] theorem tfltSet_rtc (m : Nat) : (tfltSet m s).rtc = s.rtc := rfl
@[simp] theorem tfltSet_tap (m : Nat) : (tfltSet m s).tap = s.tap := rfl
@[simp] theorem tfltSet_trst (m : Nat) : (tfltSet m s).trst = s.trst := rfl
@[simp] theorem tfltSet_io (m : Nat) : (tfltSet m s).io = s.io := rfl
@[simp] theorem tfltSet_free (m : Nat) : (tfltSet m s).free = s.free := rfl

/-! ### Elements of the vectors that an update writes -/

theorem putEng_ne (e n : Fin 6) (q : Ceng) (h : n ≠ e) : (putEng e q s).eng[n] = s.eng[n] := by
  have : e.val ≠ n.val := fun k => h (Fin.ext k.symm)
  simp [putEng, this]
@[simp] theorem putPort_self (p : Port) (x : HPort) : (putPort p x s).hp[p] = x := by simp [putPort]
theorem putPort_ne (p n : Port) (x : HPort) (h : n ≠ p) : (putPort p x s).hp[n] = s.hp[n] := by
  have : p.val ≠ n.val := fun k => h (Fin.ext k.symm)
  simp [putPort, this]
@[simp] theorem putSmb_self (c : Fin 4) (q : Smb) : (putSmb c q s).smb[c] = q := by simp [putSmb]
theorem putSmb_ne (c n : Fin 4) (q : Smb) (h : n ≠ c) : (putSmb c q s).smb[n] = s.smb[n] := by
  have : c.val ≠ n.val := fun k => h (Fin.ext k.symm)
  simp [putSmb, this]

/-! ### Hints and wake requests: what they leave alone -/

theorem setHintP_eq (p : Port) (n : Nat) : setHintP p n s = { s with hp := (setHintP p n s).hp } := rfl

theorem setHint_eq (n : Nat) : setHint n s = { s with hp := (setHint n s).hp } := by
  unfold setHint; split <;> rfl

theorem raiseWake_eq (c : Nat) : raiseWake c s = { s with dct := { s.dct with wakes := (raiseWake c s).dct.wakes } } := by
  unfold raiseWake; split <;> rfl

end Sys2Proof.Machine
end

