-- ==== Sys2Proof/WellFormed.lean ====
section
/-! DEFINITION. The operands that the block can be given: what the types of Syntax.lean do not already say. -/

namespace Sys2Proof

/-- A command whose operands can occur. -/
def Instr.wf : Instr → Bool
  -- a window offset has 6 bits (R277); an engine writes a byte (R13)
  | .registerWrite (.hp _ _) adr _ _ => decide (adr.toNat < 64)
  | .registerWrite (.ce _) _ v _ => decide (v.toNat < 256)
  | .registerRead (.hp _ _) adr _ => decide (adr.toNat < 64)
  -- the fault map has 1152 entries (R101, R116)
  | .ledFault n => decide (n.toNat < 1152)
  -- the cells are numbered 1 to 5 (R166, R168)
  | .cellOv c _ => decide (c.val ≠ 0)
  | .cellUv c _ => decide (c.val ≠ 0)
  -- a removal decision comes from a detector (R174)
  | .battRemoved rise bid _ => rise || bid
  -- short presses, the lid and wake inputs ask for S0, a long press for S5 (R217 to R220)
  | .platformRequest _ (.mst _) _ => true
  | .platformRequest tgt .long _ => tgt = 5
  | .platformRequest tgt _ _ => tgt = 0
  -- a record has nine payload words (R447)
  | .fieldBookRecord _ _ pay => decide (pay.length ≤ 9)
  -- requests on one edge come from different masters (R309)
  | .lockAcquire m others => decide ((m :: others).map (fun x => match x with | .ce e => e.val | .hp p _ => 6 + p.val)).Nodup
  | _ => true

end Sys2Proof
end

