-- ==== Sys2Proof/Tests/Slice0.lean ====
section
/-! SUPPORT. Tests: states at which the hypotheses of the statements meet, the operand checks, engine words written out from the
spec's encodings, and examples of the spec. -/

namespace Sys2Proof.Tests

open Sys2Proof Sys2Proof.Machine

set_option Elab.async false

/-! ### States for the tests -/

def base : State := {
  fbk := { bootno := 1, nonce := 1 }
  hp := #v[{ powered := true, cs := true, driven := true }, {}]
  prt := { pright := #v[0xAAAAAAAA, 0], pflags := #v[1, 0] } }
/-- Engine 0 at q. -/
def at0 (q : Ceng) : State := { base with eng := base.eng.set 0 q }
def cx : Ceng :=
  { run := .running, g := #v[{ base := 0xFF }, { base := 0x80 }, { base := 0x10 }, { base := 0x00 }, { base := 0x05 }, { base := 0x11 }, { base := 0x39 }, { base := 0x47 },
  { base := 0x09 }, { base := 0x00 }, { base := 0x00 }, { base := 0x40 }, { base := 0x00 }, { base := 0xC0 }, { base := 0xFE }, { base := 0xFF }] }
def cxMem : State := { at0 cx with
  emem := base.emem.set 0 { dmem := [(0x10, 7), (0x1F, 9)], imem := [(0x10, 0x123456)] }, shm := [(0x0005, 3), (0x4000, 8)] }

def dog (w : Wdog) : State := at0 { run := .running, wd := w }

def tmr1 (x : Tmr) : State := at0 { run := .running, tmr := #v[x, {}] }

def job (r : Option CpyRun) : State := { base with cpy := { queued := 0b100, run := r }, shm := [(4, 7), (0x11, 9)] }

def embB (q : EngMb) (x : Sparse Chan) (dir : Nat) : State :=
  { base with mbx := { eng := base.mbx.eng.set 0 q, chans := x }, prt := { base.prt with chan := [(0, dir)], routes := #v[[(3, 0)], []] } }

def bytes32 : List Nat := List.range 32

def port0 (q : PortSel) : State :=
  { base with hp := base.hp.set 0 { base.hp[0] with sel := q }, prt := { base.prt with chan := [(0, 0x10)], routes := #v[[(3, 0)], []], wreg := base.prt.wreg.set 0 { b0 := 0xD0, start := 0x10000, stop := 0x1FFFF } }, shm := [(5, 7), (6, 8)] }

def port0c (d : Nat) (x : Sparse Chan) : State :=
  { port0 { mbuf := [(0, 5), (1, 6)] } with prt := { base.prt with chan := [(0, d)], routes := #v[[(3, 0)], []] }, mbx := { chans := x } }

def port0B (q : PortSel) : State :=
  { base with hp := base.hp.set 0 { base.hp[0] with sel := q }, prt := { base.prt with chan := [(0, 0x10)], routes := #v[[(3, 0)], []], wreg := base.prt.wreg.set 0 { b0 := 0xD0, start := 0x10000, stop := 0x1FFFF } }, shm := [(0x10005, 7), (0x10006, 8)] }

def rec1 (src typ : Nat) (n : BitVec 16) : FbRec := { src := src, typ := typ, seq := n, bootno := 1, time := 5, p := [1] }

def ring1 (w : Bool) : Fbk := { bootno := 1, nonce := 1, newest := 2, ring := [⟨rec1 6 1 1, w⟩, ⟨rec1 6 2 2, false⟩] }

def book (q : Fbk) : State := { base with fbk := q }

def clk1 (c : Clk) : State := { base with clk := c, eng := base.eng.set 0 { run := .running } }

def rtc1 (c : RtcHold) : State :=
  { base with rtc := { eng := c }, hp := base.hp.set 0 { base.hp[0] with sel := { rtc := c } } }

def fl (f : Fls) : State := { base with fls := f }

def cells (a : Nat) (bs : List Nat) : List Host.Cell := bs.zipIdx.map (fun x => (a + x.2, BitVec.ofNat 8 x.1))

def image (a role d0 : Nat) : List Host.Cell :=
  cells (a + 0x14) [1, 0] ++ cells (a + 0x58) [1, role, 0x00, 0x08, 0x00, 0x01, 0, 0, 3, 0, 0, 0, 0x00, 0x08, 0, 0, d0, 158, 128, 200, 132, 135, 162, 65, 30, 30, 228, 223, 185, 242, 42, 134, 20, 146, 210, 12, 71, 101, 21, 12, 12, 121, 74, 189, 112, 248, 20, 124] ++ cells (a + 0x100) [0, 0, 0]

def loader (d0 : Nat) : State :=
  { base with eng := base.eng.set 1 { run := .loading, role := 2, cause := 1 }, rst := { bootstat := 0 }, fls := { mem := image 0 2 d0 } }

def bootRec (crc : List Nat) : List Host.Cell := cells 0x1F0000 ([1, 0, 0, 0xFF, 0x5A, 0, 0, 0] ++ crc)

def slotA : State := { base with fls := { mem := image 0 0 112 ++ bootRec [189, 247, 92, 199] } }

def emptyBook : State := { base with fls := { mem := cells 0x1F0000 [1, 0, 0, 0xFF, 0, 0, 0, 0, 123, 24, 236, 99] } }

def bmk1 (q : Bmk) : State := { base with bmk := q }

def ksc1 (q : Ksc) : State := { base with ksc := q }

def planeA : KeyPlane := { conf := 0x00003, seen := 0x00001, withheld := 0x00040, cnt := [] }

def keyCfg (deb : Nat) : Stg := { live := [(0x08, deb), (0x09, 3)] ++ (List.range 25).map (fun i => (0x10000 + i, 1)) }

def jobB (r : CpyRun) : State :=
  { base with cpy := { queued := 0b100, run := some r, eng := base.cpy.eng.set 1 3 }, shm := [(4, 7), (0x11, 9), (0x21, 5), (0x102, 8)], prt := { base.prt with chan := [(3, 0x70), (4, 0x30), (5, 0xF0), (6, 7)] }, lgb := { back := [(4, 4), (9, 9)] }, mbx := { chans := [(4, { full := true, len := 3, seq := 9, slot := [1, 2, 3], epend := true }), (5, { full := true, len := 3, seq := 9, slot := [1, 2, 3], epend := true })] } }

def nv : Fbk :=
  { ring1 false with nvmSlot := 2039, nvm := [(3, rec1 1 1 0xFFF0), (2039, rec1 1 2 0xFFF1), (0, rec1 1 2 0xFFF2)], shadow := [(2039, rec1 1 2 0xFFE0), (0, rec1 1 1 0xFFE1), (7, rec1 1 1 5)] }

def cur (q : Fbk) (c : FbCursor) : State :=
  { base with fbk := { q with ecur := q.ecur.set 0 c }, hp := base.hp.set 0 { base.hp[0] with sel := { fbcur := c } } }

def surv (q : Svy) : State := { base with svy := q }

def ring1B (w : Bool) : Fbk :=
  { bootno := 1, nonce := 1, newest := 2, ring := [⟨rec1 6 1 1, w⟩, ⟨rec1 6 2 2, false⟩], nvm := [(0, rec1 6 1 0xFFF0), (2, rec1 6 1 1)], nvmSlot := 3 }

def rst1B (a : Nat) : State :=
  { base with rst := { active := a, hist := 9, step := 4 }, gpio := { base.gpio with oe := 0xF, out := 3, pin := 5 }, seq := { psout := 0x35, pg := 9, cfg := { live := [(0x20, 0xFFFFFFFF)] } }, dct := { mode := .run }, chp := { acg := true }, fbk := ring1B false, trst := true, rtc := { err := true } }

def pw (d : Dct) : State := { base with dct := d }

def pwOff (d : Dct) : State := { base with dct := d, hp := #v[{}, {}], eng := #v[{}, {}, {}, {}, {}, {}] }

def wreq : DctReq := { tgt := 1, by_ := 6 }

def sreq : DctReq := { tgt := 2, by_ := 0 }

def pnd2 : Stg :=
  { live := [(0x21, 7), (0x2A, 3), (0x33, 5)], pnd := some [(0x20, 1), (0x29, 6), (0x60, 2)], stg := [(9, 9)] }

def lgt1 (q : Lgt) (b : LgtBank) : State := { base with lgt := q, lgb := b }

def twoB : LgtBank := { front := [(0, 9), (3, 8)], back := [(1, 7)] }

def ledOn : Stg := { live := [(0x10, 2), (0x17, 0xFF), (0x16, 3), (0x2B, 6), (0x50, 1)] }

def big : State :=
  lgt1 { run := true, running := true, next := 3, line := 2, pulses := [(1, (7, 9))], cfg := { live := [(0x10, 8), (0x11, 90), (0x13, 40), (0x14, 20), (0x17, 0xFF), (0x15, 2)] }, pq := 0, pp := 2, probe := 5 } twoB

def bigG : State := { big with gpio := { big.gpio with lsgv := true } }

def ccfg : Stg :=
  { live := [(0x10, 4), (0x11, 2), (0x12, 2), (0x13, 2), (0x17, 0), (0x18, 10), (0x19, 20), (0x1A, 40), (0x1B, 50), (0x1C, 2), (0x1D, 10), (0x1F, 20), (0x21, 3000), (0x23, 100), (0x25, 4300), (0x27, 100), (0x28, 2800), (0x2A, 40), (0x2C, 200), (0x2E, 1200), (0x30, 800), (0x32, 400), (0x37, 1), (0x39, 1), (0x3A, 1), (0x3D, 1), (0x40, 100), (0x41, 3380), (0x43, 1000), (0x45, 300), (0x47, 10)] }

def meas (v : Int) : ChgMeas :=
  { vin := v, vchg := 15000, vsys := 15000, pack := 15000, cells := #v[3700, 3700, 3700, 3700, 0], iin := 100, ibat := 500, il := 3000, tj := 500 }

def chg1 (q : Chg) (p : ChgPort) (c : ChgTel) : State := { base with chg := { q with cfg := ccfg }, chp := p, cht := c }

def at1 : ChgPort := { attached := true, acg := true, vinOk := true, ithlim := 100, mpdt := 3 }

def ct1 (q : Chg) : State :=
  { chg1 q at1 {} with chg := { q with cfg := { ccfg with live := ccfg.live ++ [(0x10000, 3), (0x10001, 4100), (0x10002, 200), (0x10003, 4150), (0x10004, 100), (0x10005, 4200), (0x10006, 50)] } } }

def scfg : Stg :=
  { live := [(47, 9), (48, 27), (49, 1), (50, 255), (64, 5), (65, 137), (66, 3), (68, 48), (69, 137), (70, 3), (72, 3), (73, 137), (74, 3), (76, 80), (77, 137), (78, 11), (80, 83), (81, 137), (82, 3), (84, 4), (85, 137), (86, 3), (65536, 268435722), (65537, 536959743), (65538, 805306624), (65539, 1107623936), (65540, 1342177539), (65541, 1342177539), (65542, 1610612736), (65543, 1879048258), (65544, 1074069504), (65545, 0), (65728, 268435722), (65729, 536959743), (65730, 805306624), (65731, 1107623936), (65732, 1342177539), (65733, 1342177539), (65734, 1610612736), (65735, 1879048258), (65736, 1074069504), (65737, 0)] }

def seq1 (q : Seq) : State :=
  { base with seq := { q with cfg := { scfg with stg := q.cfg.stg, pnd := q.cfg.pnd } }, hp := #v[{ powered := true, cs := true, driven := true }, {}] }

def tcfg : Stg :=
  { live := [(0x42, 0x3), (0x44, 0x1FF), (0x46, 0x3), (0x48, 0x3), (0x4C, 10), (0x50, 0x80), (0x51, 0x40), (0x80, 0x02), (0x81, 0x0B), (0x82, 0x20), (0x83, 0x3), (0x84, 4), (0x85, 2), (0x86, 0xA9), (0x87, 0x06), (0x88, 0x50), (0x8A, 2), (0x8B, 2), (0x8C, 0x20), (0x8D, 6), (0x91, 2), (0xB0, 0xA4), (0xB1, 0), (0xB2, 0x1F), (0xB3, 0x1F), (0xB4, 0x1F), (0xB5, 3), (0xB6, 20), (0xB7, 60), (0xB8, 10), (0xB9, 5), (0xBC, 30), (0xC0, 0xC0), (0xC1, 0), (0xC2, 0x1F), (0xC3, 0x1F), (0xC4, 0x1F), (0xC5, 3), (0xC6, 20), (0xC7, 60), (0xC8, 10), (0xC9, 5), (0xCC, 30), (0xD0, 0x80), (0xD1, 0x1F), (0xD2, 0x1F), (0xD3, 0x1F), (0xD4, 0x1F), (0x10000, 10), (0x10001, 20), (0x10002, 30), (0x10003, 40), (0x10004, 50), (0x10005, 60), (0x10006, 70), (0x10007, 80), (0x10008, 10), (0x10009, 20), (0x1000A, 30), (0x1000B, 40), (0x1000C, 50), (0x1000D, 60), (0x1000E, 70), (0x1000F, 80), (0x20000, 50), (0x20001, 100), (0x20002, 150), (0x20003, 160), (0x20004, 170), (0x20005, 180), (0x20006, 190), (0x20007, 200), (0x20008, 50), (0x20009, 100), (0x2000A, 150), (0x2000B, 160), (0x2000C, 170), (0x2000D, 180), (0x2000E, 190), (0x2000F, 200)] }

def tha1 (q : Tha) (d : ThaDat) : State :=
  { base with tha := { q with cfg := { tcfg with pnd := q.cfg.pnd }, rcfg := tcfg.live }, thd := d }

def hot : ThaDat := { sens := (({} : ThaDat).sens.set 0 { t := 500, valid := true }) }

def sCxArithmetic1 : State := at0 cx
def sCxLogicAndShifts4 : State := at0 cx
def sCxDecimal2 : State := at0 cx
def sCxImmediate1 : State := at0 cx
def sCarryPairsExact2 : State := at0 cx
def sNextAddress1 : State := at0 cx
def sCxPairsAndSpecials1 : State := at0 cx
def sCxLoads1 : State := cxMem
def sCxStores1 : State := cxMem
def sCxStores2 : State := cxMem
def sCxInstructionStore1 : State := cxMem
def sCxInOut2 : State := at0 {cx with g := cx.g.set 7 {base := 2} |>.set 6 {base := 0x39}}
def sCxBranches1 : State := at0 cx
def sCxJumps1 : State := at0 cx
def sCxJumps2 : State := at0 {cx with rom := true}
def sCxTraps1 : State := at0 cx
def sCxTraps2 : State := at0 { cx with pc := 0x4000 }
def sCxTraps3 : State := at0 { cx with intrap := true}
def sCxTraps4 : State := at0 { cx with badKick := true }
def sCxTraps5 : State := at0 { cx with badKick := true, pc := 0x4000 }
def sBusErrorsAndDelaySlots2 : State := { at0 cx with dct := {on := 0x7F} }
def sBusErrorsAndDelaySlots3 : State := at0 {cx with iob := 0x3800}
def sBusErrorsAndDelaySlots4 : State := { at0 {cx with iob := 0x400} with dct := {on := 0xDF} }
def sBusErrorsAndDelaySlots5 : State := at0 { cx with ds := some 8 }
def sCxReturnAndWait1 : State :=
  at0 { cx with intrap := true, tf := { pc := 5, ds := true, tgt := 9, repv := true, rep := 3 } }
def sCxRepeats1 : State := at0 { cx with idx := 3, cnt := { base := 7 } }
def sCxRepeats4 : State := at0 cx
def sInterrupts1 : State := at0 { cx with ie := true, irqen := 0xFFFFFF, xpend := 2 }
def sInterrupts2 : State := at0 { cx with ie := true, irqen := 0xFFFFFF, xpend := 2, rep := some ⟨3, 0x800004, false, 2⟩ }
def sInterrupts3 : State := at0 { cx with ie := true, irqen := 0xFFFFFF, xpend := 2, rep := some ⟨3, 0x810004, true, 2⟩ }
def sInterrupts4 : State := at0 { cx with run := .waiting, ie := true, irqen := 0xFFFFFF, xpend := 2 }
def sInterrupts5 : State := at0 { cx with run := .waiting, ie := false, irqen := 0xFFFFFF, xpend := 2 }
def sInterrupts6 : State := at0 { cx with ie := true, irqen := 0xFFFFFF, xpend := 2, badKick := true }
def sStoreFrame1 : State := cxMem
def sEngineEvents2 : State := dog { en := true, left := 0, warn := 1 }
def sEngineEvents3 : State := dog { en := true, warn := 3, first := true, left := 100 }
def sEngineEvents4 : State := dog { en := true, warn := 2, left := 100 }
def sEngineEvents5 : State := tmr1 { en := true, cnt := 0, rld := 5, per := true}
def sEngineEvents7 : State := at0 { run := .running, badKick := true, pc := 5 }
def sCopyJobs2 : State := job none
def sCopyJobs4 : State := job (some ⟨1, 0, 2, 8, 1, 0, []⟩)
def sCopyJobs10 : State := jobB ⟨1, 0x40, 0x804, 3, 3, 0, [5,6,7,8,9,10,11]⟩
def sCopyJobs13 : State := jobB ⟨1, 0x10, 8, 0x803, 3, 0, []⟩
def sCopyJobs14 : State := jobB ⟨1, 0x18, 8, 0x803, 3, 0, []⟩
def sCopyJobs16 : State := jobB ⟨1, 0x18, 8, 0x804, 3, 0, []⟩
def sCopyJobs19 : State :=
  { jobB ⟨1, 0x1A, 8, 0x803, 3, 0x45, []⟩ with mbx := { chans := [(5, { full := true, coll := true, len := 3, seq := 9 }), (3, { full := true, seq := 3 })] } }
def sCopyJobs22 : State := jobB ⟨1, 0x20, 8, 7, 3, 0, []⟩
def sCopyJobs25 : State :=
  { jobB ⟨1, 0x1A, 8, 0x803, 3, 0x45, []⟩ with mbx := { rolemap := #v[5,5,5,5,5,5] }, dct := { on := 0xEF } }
def sCopyJobs27 : State := { base with rst := { active := 1 }, cpy := { queued := 4 } }
def sCopyJobs28 : State := jobB ⟨1, 0x60, 0x804, 7, 3, 0, [5,6,7,8,9,10,11]⟩
def sEngineMailboxes3 : State := embB {embptr := 3, latch := some (0, bytes32)} [] 0x50
def sEngineMailboxes4 : State :=
  embB { buf := [(0, 7), (3, 8)] } [(0, { full := true, len := 2, seq := 4, slot := [1, 2] })] 0x50
def sEngineMailboxes6 : State :=
  embB { buf := [(0, 7), (3, 8)] } [(0, { full := true, len := 2, seq := 4, slot := [0x1234, 2] })] 0x10
def sHostErrorResponse2 : State := base
def sRegisterAccess4 : State := port0 { mbsel := 3 * 1024, mlatch := some (0, List.range 16) }
def sRegisterAccess7 : State := port0B { winsel := 0x8900 , winadr := 5 }
def sRegisterAccess8 : State := port0B { winsel := 0x8B00 , winadr := 5 }
def sHostMailboxes2 : State := port0c 0x10 []
def sHostMailboxes3 : State := port0c 0x10 [(0, { full := true, len := 2, seq := 4, slot := [0x1234, 2] })]
def sHostMailboxes4 : State := port0c 0x50 [(0, { full := true, len := 2, seq := 4, slot := [0x1234, 2] })]
def sLocks1 : State := base
def sLocks2 : State := { base with lck := { held := [(0, 1), (3, 1)] } }
def sLocks3 : State := { base with lck := { held := [(3, 7)] } }
def sFieldBookRecords2 : State := book { ring1 false with drops := 3 }
def sFieldBookRecords3 : State := book (ring1 false)
def sFieldBookRecords4 : State := book { ring1 false with ring := List.replicate 256 ⟨rec1 6 1 1, false⟩ }
def sFieldBookRecords8 : State :=
  book { nv with nvmSlot := 7, ring := [⟨rec1 0 1 4, false⟩, ⟨rec1 6 2 4, false⟩, ⟨rec1 6 2 9, false⟩] }
def sFieldBookRecords10 : State := { base with prt := { base.prt with eflags := #v[2, 0, 0, 0, 0, 0] } }
def sResetProtectFlash3 : State := { base with prt := { base.prt with eflags := #v[0,0,0,0,0,0] } }
def sResetProtectFlash4 : State := fl { cmd := some (1, 0x3000), mem := [(0x3001, 5), (0x7000, 4)] }
def sResetProtectFlash5 : State :=
  fl { cmd := some (2, 0x3000), mem := [(0x3001, 5), (0x7000, 4)], page := [(1, 4), (2, 3)] }
def sResetProtectFlash6 : State := fl { cmd := some (3, 5) }
def sResetProtectFlash7 : State := fl { dat := 5, adr := 0x10000 }
def sBootAndRoles1 : State := loader 112
def sBootAndRoles2 : State := loader 0
def sBootAndRoles3 : State := slotA
def sBootAndRoles6 : State := emptyBook
def sBootAndRoles7 : State := { base with fls := { mem := cells 0x1F0000 [1, 0, 0, 255, 0, 90, 0, 0, 29, 179, 199, 2] } }
def sBootAndRoles8 : State := { base with fls := { mem := cells 0x1F0000 [1, 0, 0, 255, 0, 255, 0, 3, 44, 125, 125, 68] } }
def sBootAndRoles9 : State := { base with fls := { mem := cells 0x1F0000 [1, 0, 0, 255, 0, 255, 0, 1, 0, 28, 115, 170] } }
def sBootAndRoles10 : State := { base with fls := { mem := cells 0x1F0000 [1, 0, 0, 255, 255, 0, 3, 0, 73, 77, 196, 150] } }
def sBootAndRoles15 : State :=
  { base with fls := { mem := cells 0x1F0000 [1, 0, 0, 255, 255, 90, 3, 0, 47, 230, 239, 247] } }
def sBootAndRoles16 : State :=
  { base with fls := { mem := cells 0x1F0000 [1, 0, 0, 255, 255, 255, 3, 3, 30, 40, 85, 177] } }
def sBootAndRoles17 : State := { base with fls := { mem := cells 0x1F0000 [1, 0, 0, 255, 255, 255, 3, 1, 50, 73, 91, 95] } }
def sKeySamples1 : State := ksc1 { scanen := true, scanning := true, fr := .line 0, plane := planeA, cfg := keyCfg 3 }
def sKeySamples4 : State := { base with dct := { on := 0xDF } }
def sPortPins1 : State := { base with hp := #v[{}, {}] }
def sPortPins2 : State := { base with dct := { mode := .ship, on := 0x80 }, hp := #v[{}, {}] }
def sPortPins9 : State := { base with hp := base.hp.set 0 { base.hp[0] with driven := false } }
def sFieldBookReaders1 : State := cur (ring1 false) { seq := 3 }
def sFieldBookReaders2 : State := cur { ring1 false with ring := [⟨rec1 6 2 2, false⟩] } { seq := 1 }
def sFieldBookReaders3 : State := cur (ring1 false) { gone := true }
def sFieldBookReaders4 : State := cur (ring1 false) { seq := 2 }
def sFieldBookReaders5 : State := cur (ring1 false) { seq := 1, ptr := 4, latch := List.range 32 }
def sFieldBookReaders6 : State := cur (ring1 false) { seq := 1, ptr := 15, latch := List.range 32 }
def sFieldBookReaders7 : State := cur (ring1 false) { seq := 1, ptr := 31, latch := List.range 32 }
def sFieldBookReaders8 : State := cur (ring1 false) { seq := 1, ptr := 3, gone := true, latch := [0xFE, 0xFF, 7, 9] }
def sFieldBookReaders9 : State := cur (ring1 false) { seq := 1, ptr := 2, gone := true, latch := [0xFE, 0xFF, 7, 9] }
def sSurveySnapshots1 : State := surv { words := [(2, [5, 6])], svblk := 2, miss := 3, svword := 1, src := 3 }
def sSurveySnapshots2 : State := surv { held := true }
def sSurveySnapshots6 : State :=
  surv { words := [(1, [0x0309, 6])], svfsel := 0xFF, latched := true, src := 5, held := true, holdflt := true, count := 9 }
/-- A double trap with no CK since a latched trigger (O31). -/
def sSurveySnapshots7 : State :=
  { surv { svfsel := 8, fresh := true, latched := true, src := 2, count := 4 } with eng := base.eng.set 0 { run := .running, intrap := true } }
def sResets1 : State := rst1B 0
def sResets2 : State := rst1B 9
def sResets3 : State := { rst1B 0 with dct := { mode := .ship, on := 0 }, rst := { hist := 9, step := 1 } }
def sResets4 : State := { rst1B 0 with dct := { mode := .ship, on := 0 } }
def sClockSource1 : State := base
def sClockSource6 : State :=
  { clk1 { ckPll := false, prep := true, fallback := true } with dct := { phase := .committed, cur := some { tgt := 1, by_ := 6 } } }
def sClockSource7 : State := { clk1 { ckPll := true, prep := true, lock := false } with chg := { gates := 3, mode := 1 } }
def sClockSource11 : State :=
  { clk1 { ckPll := false, prep := true, pllOn := true, lock := true, fallback := true } with ksc := { scanning := true, scanen := true, fr := .idle } }
/-- A planned return to the PLL under a gather that holds KSC for D5 (O33). -/
def sClockSource12 : State := { sClockSource11 with dct := { phase := .gather, cur := some { tgt := 5, by_ := 0 }, dom := some 5 } }
def sBoardCommands1 : State := base
def sBoardCommands2 : State := rtc1 { hold := true, written := true }
def sBoardCommands4 : State := { base with trst := true, seq := { psout := 5, cfg := { live := [(0x33, 5)] } } }
def sModeRequests1 : State := base
def sModeRequests2 : State := pw { mode := .watch }
def sModeRequests3 : State := pw { on := 0xDF }
def sModeRequests4 : State := base
def sModeRequests5 : State := pw { phase := .committed, cur := some wreq, held := some sreq, heldWakes := 5 }
def sModeRequests7 : State := pw { phase := .notice, cur := some wreq, held := some sreq, heldWakes := 5 }
def sModeEntries1 : State := pw { phase := .notice, cur := some wreq }
def sModeEntries2 : State := pw { phase := .gather, cur := some wreq, veto := 1 }
def sModeEntries6 : State := { pwOff { phase := .committed, cur := some wreq } with clk := { ckPll := false } }
def sModeEntries7 : State := { pwOff { phase := .committed, cur := some sreq } with clk := { ckPll := false } }
def sModeEntries8 : State := pwOff { mode := .ship, on := 0, cfg := { live := [(0x1D, 5)] } }
def sModeEntries9 : State := pwOff { mode := .ship, on := 0, cfg := { live := [(0x1D, 5)] } }
def sModeEntries13 : State := pw { phase := .gather, cur := some wreq, veto := 0x10 }
def sModeEntries16 : State := pw { phase := .notice, cur := some wreq, veto := 0x10 }
def sModeEntries17 : State := { pw { mode := .watch, phase := .gather, cur := some sreq, veto := 4 } with clk := { ckPll := false } }
def sModeEntries18 : State := pw { phase := .gather, cur := some { tgt := 0, by_ := 0 }, dom := some 5, veto := 0x20 }
def sModeEntries19 : State := pw { phase := .gather, cur := some { tgt := 0, by_ := 0 }, dom := some 4 }
def sModeEntries20 : State := { pw { phase := .committed, cur := some wreq, on := 0x7F } with clk := { ckPll := false } }
def sModeEntries21 : State := pw { phase := .notice, cur := some sreq, cfg := { live := [(0x1D, 5)] } }
def sModeEntries15 : State :=
  { pw { phase := .committed, cur := some { tgt := 2, by_ := 6 } } with fbk := { bootno := 1, newest := 2, ring := [⟨rec1 6 1 1, true⟩, ⟨rec1 6 2 2, false⟩] } }
def sWakes1 : State := pw { phase := .waking, up := [4], on := 0xEF, cur := some { tgt := 4, by_ := 0 }, dom := some 4 }
def sWakes2 : State :=
  pw { phase := .waking, up := [4], on := 0xEF, cur := some { tgt := 4, by_ := 0 }, dom := some 4, stage := 3 }
def sWakes3 : State :=
  pw { phase := .waking, up := [7, 4], on := 0x6F, cur := some { tgt := 0, by_ := 0 }, stage := 3, mode := .watch }
def sWakes6 : State := pwOff { mode := .watch, wakes := 0x80, on := 0xA7, cfg := { live := [(0x34, 0x7FF)]} }
def sWakes10 : State :=
  { pwOff { phase := .waking, mode := .watch, cur := some { tgt := 0, by_ := 0x107 }, cfg := { live := [(0x38, 0x3FFFF)] } } with clk := { lock := false, ckPll := false } }
def sWakes13 : State :=
  pw { phase := .waking, up := [4], on := 0x6F, cur := some { tgt := 0, by_ := 0 }, stage := 1, mode := .watch, d7 := some 2, heldWakes := 0x88, wakes := 4 }
/-- D7 comes up for a port during a gather to SHIP; the gather with D7 on and no port (O39). -/
def sWakes14 : State := pw { phase := .gather, mode := .watch, cur := some sreq, on := 0x6F, d7 := some 3 }
def sWakes15 : State := pwOff { phase := .gather, mode := .watch, cur := some sreq, on := 0xA7, wakes := 0x80 }
def sWakes16 : State := pwOff { phase := .notice, mode := .watch, cur := some sreq, on := 0x2F }
def sCommitAndApply8 : State := { base with chg := { cfg := pnd2 }, dct := { mode := .watch } }
def sCommitAndApply10 : State := { base with tha := { cfg := pnd2, en := true } }
def sCommitAndApply11 : State := { base with cpy := { cfg := pnd2 } }
def sBenchmarkBlock1 : State :=
  bmk1 { restore := false, age := Vector.replicate 11 2000, tjb := 1360, cfg := { live := [(0x80, 0x7FF), (0xA0, 5), (0xA1, 5), (0x91, 0xFC)] } }
def sBenchmarkBlock2 : State := base
/-- A sample of line 0 with a full FIFO and key lights; a request that powers D5 down with keys lit (O42). -/
def sKeySamples5 : State :=
  { ksc1 { scanen := true, scanning := true, fr := .line 0, cfg := keyCfg 1, plane := planeA, fifo := List.replicate 16 ⟨1, 2, 3⟩ } with
    lgt := { cfg := { live := [(0x3B, 4), (0x20002, 7)] } } }
def sKeySamples6 : State :=
  { base with dct := { phase := .gather, cur := some { tgt := 5, by_ := 0 }, dom := some 5 }, lgb := { keys := { lit := 7, provLit := 2 } } }
def sScanAndSounding1 : State := ksc1 {}
def sScanAndSounding2 : State := ksc1 { scanen := true, scanning := true, fr := .start, sndReq := true }
def sScanAndSounding3 : State :=
  ksc1 { scanen := true, scanning := true, fr := .start, run := some ⟨false, 0⟩, snd := [(0, { m := some 5 }), (1, { hasS := true, s := 9, overRun := true })] }
def sScanAndSounding4 : State := ksc1 { scanen := false, scanning := true, fr := .idle, resolving := true }
/-- A stop in the dwell of the first line; one with no line enabled; a gather that holds KSC; the end of a run's last frame under it (O43). -/
def sScanAndSounding6 : State := ksc1 { scanen := false, scanning := true, fr := .start, cfg := keyCfg 1 }
def sScanAndSounding7 : State := ksc1 { scanen := false, scanning := true, fr := .start, cfg := { live := [(0x09, 0)] } }
def sScanAndSounding8 : State :=
  { ksc1 { scanen := false, scanning := true, fr := .idle } with dct := { phase := .gather, cur := some { tgt := 0, by_ := 0 }, dom := some 5 } }
def sScanAndSounding9 : State := ksc1 { scanen := true, scanning := true, fr := .idle, resolving := true, run := some ⟨false, 0⟩ }
def sScanAndSounding5 : State := { ksc1 { scanen := true, scanning := true, fr := .idle } with dct := { mode := .watch } }
def sEncodersAndKeyReads1 : State := base
def sEncodersAndKeyReads2 : State :=
  ksc1 { encctl := 0x22, enc := #v[{ count := 3 }, {count := 7}, {}, {}], fifo := [⟨1, 2, 3⟩] }
def sEncodersAndKeyReads3 : State :=
  { ksc1 { encctl := 0x22, katlsel := 479, enc := #v[{ count := 3 }, {count := 7}, {}, {}] } with hp := base.hp.set 0 { base.hp[0] with sel := { keysel := 0x20 + 29 + 1024 } } }
def sLightingFrames1 : State := lgt1 { run := true, running := true, blanked := false, cfg := ledOn, next := 1 } twoB
def sLightingFrames2 : State :=
  lgt1 { run := true, running := true, atB := true, blankReq := true } { twoB with swap := some ⟨false, false, true⟩ }
def sLightingFrames3 : State := lgt1 {} { twoB with swap := some ⟨true, true, true⟩ }
def sLightingFrames4 : State :=
  lgt1 { running := true, atB := true, unblankReq := true } { twoB with copying := true, written := [1, 3] }
def sLightingFrames22 : State := bigG
def sLightingChainAndFaults3 : State :=
  lgt1 { run := true, flt := 0x7F, esopen := 3, cfg := ledOn } { twoB with chain := 0x00_0000050003, lixsel := 0, lixidx := 1159, verdict := [(4, (1, 3)), (5, (2, 3))] }
def sLightingChainAndFaults4 : State := lgt1 { run := true } { twoB with chain := 0x10_0000050003 }
def sLightingChainAndFaults5 : State := lgt1 { run := true } { twoB with chain := 0x11_0000030003 }
def sLightingChainAndFaults7 : State := lgt1 { run := true } { twoB with chain := 0x20_0000050003 }
def sLightingChainAndFaults8 : State := lgt1 { run := true, running := true } { twoB with chain := 0x21_0000050003 }
def sLightingChainAndFaults9 : State := lgt1 { run := true, running := true } { twoB with chain := 0x22_0000050003 }
def sLightingChainAndFaults12 : State := lgt1 { } { twoB with chain := 0x30_0000050043 }
def sLightingChainAndFaults13 : State := lgt1 { } { twoB with chain := 0x40_0000000010 }
def sLightingChainAndFaults14 : State := lgt1 { } { twoB with chain := 0x77_0000000010 }
def sLightingChainAndFaults15 : State :=
  { lgt1 { } { twoB with chain := 0x10_0000000010 } with rst := { bootPhase := false } }
def sLightingChainAndFaults16 : State :=
  lgt1 { run := true, cfg := { live := [(0x42, 2)] } } { twoB with lixsel := 0, lixidx := 1160 }
def sLightingChainAndFaults17 : State :=
  lgt1 { run := true, running := true, cfg := { live := [(0x42, 2)] } } { twoB with lixsel := 0, lixidx := 1159, synclost := true }
def sLightingChainAndFaults19 : State :=
  lgt1 { run := true, running := true, atB := true, cfg := { live := [(0x42, 2)] } } { twoB with lixsel := 0, lixidx := 1159, synclost := false }
def sLightingChainAndFaults38 : State :=
  lgt1 { run := true, blanked := false, cfg := ledOn, rails := #v[{ lows := 64, st := .on }, {}, {}] } { twoB with lixsel := 4, lixidx := 1151, verdict := [(4, (1, 3)), (5, (2, 3))] }
def sLightingChainAndFaults45 : State := lgt1 { run := false, cfg := { live := [(0x42, 2)] } } twoB
def sChargerPeriods7 : State :=
  ct1 { en := true, st := 5, flt := 5, mode := 1, modeNext := 2, zoneP := 2, zone := 0 , cend := 3, inProg := true, dith := 7, stepNext := some 1, rb := 0}
def sChargerPeriods12 : State :=
  ct1 { en := false, st := 5, termHeld := true, mode := 1, modeNext := 2, zoneP := 2, zone := 0 , cend := 3, inProg := true, dith := 7, stepNext := some 1, rb := 0}
def sChargerPeriods13 : State :=
  ct1 { en := true, st := 5, termHeld := true, mode := 1, modeNext := 2, zoneP := 2, zone := 0 , cend := 3, inProg := true, dith := 7, stepNext := some 1, rb := 0}
def sChargerPeriods16 : State := ct1 { en := true, st := 5, mode := 2, gates := 10 }
def sChargerPeriods17 : State := ct1 { en := true, st := 5, mode := 2, gates := 5, rb := 2 }
def sChargerPeriods18 : State := ct1 { en := true, st := 5, mode := 1, gates := 9 }
def sChargerPeriods19 : State := ct1 { en := true, st := 5, mode := 1, gates := 5 }
def sChargerFaults1 : State := chg1 { en := true, st := 5, zone := 2 } { ntcBad := 3, fcc := 300 } { termCnt := 16 }
def sChargerFaults2 : State := chg1 { en := true, st := 8, zone := 7 } { ntcGood := 3, tbat := 300 } { }
def sChargerFaults4 : State :=
  chg1 { en := true, st := 5, zone := 2, timer := 240, exp1 := true, flt := 0x3FF } {} { last := meas 20000 }
def sChargerFaults5 : State :=
  chg1 { en := true, st := 4, zone := 2, timer := 240, pre := 240 } {} { threg := true, last := { meas 20000 with cells := #v[4300, 4250, 4300, 4300, 4300] } }
def sChargerFaults7 : State :=
  chg1 { en := true, st := 4, zone := 2, timer := 240, pre := 10, rb := 2 } {} { threg := true }
def sPowerPath2 : State :=
  chg1 { en := true, st := 1 } { acg := true, vinOk := true } { last := { meas 500 with cells := #v[3700,3700,3700,3700,3700] } }
def sPowerPath3 : State :=
  chg1 { en := true, st := 1, rb := 1 } { isol := true, remSecond := true, remP0 := 1, remVsys := 77, vinOk := true } { last := { meas 900 with cells := #v[3700,3700,3700,3700,3700] } }
def sPowerPath5 : State :=
  chg1 { en := true, st := 3, rb := 0 } { isol := true, remSecond := true, remP0 := 2, remVsys := 77, acg := true } { last := { meas 900 with cells := #v[3700,3700,3700,3700,3700] } }
def sPowerPath8 : State :=
  chg1 { en := true, st := 4, mode := 2, gates := 10, rb := 1 } { at1 with insPack := some 5, isol := true } { last := { meas 500 with cells := #v[3700,3700,3700,3700,3700] } }
def sPowerPath13 : State :=
  chg1 { en := true, st := 1, rb := 1 } { } { last := { meas 500 with cells := #v[3700,3700,3700,3700,3700] } }
def sChargerMeasurements1 : State :=
  { chg1 { en := true, st := 5, mode := 2 } {} { last := meas 20000, lfm := true, lossCnt := 16 } with chs := { base.chs with ctsel := 5 } }
def sChargerMeasurements2 : State :=
  { chg1 { en := true, st := 5, mode := 1 } {} { last := meas 20000, lfm := true, lossCnt := 16 } with chs := { base.chs with ctsel := 60, qg := #v[1,1,1,1] } }
def sPlatformRequests2 : State := seq1 { en := true, cur := 5 }
def sPlatformRequests5 : State := seq1 { en := true, cur := 3 }
def sPlatformRequests6 : State := seq1 { en := true, cur := 3, pressed := true }
def sPlatformRequests7 : State := seq1 { en := true, cur := 3, pressed := true, longDone := true }
def sPlatformRequests9 : State := seq1 { en := true, cur := 5, kind := .ordinary, trv := 0, step := 2 }
def sPlatformRequests10 : State := seq1 { en := true, cur := 5, kind := .ordinary, trv := 0, step := 2 }
def sPlatformRequests11 : State := seq1 { en := true, cur := 5, kind := .ordinary, trv := 0, step := 2, pastcmt := true }
def sPlatformRequests12 : State := seq1 { en := true, cur := 5, kind := .ordinary, trv := 0, step := 2, pastcmt := true }
def sPlatformRequests13 : State := seq1 { en := true, cur := 5, kind := .unwind, trv := 0, step := 2 }
def sPlatformRequests18 : State := { base with seq := { en := true, cur := 5, cfg := { live := [(0x30, 1)] } } }
def sPlatformRequests23 : State :=
  { seq1 { en := true, cur := 3, lidOpen := false, cfg := { } } with gpio := { vios := false } }
def sPlatformRequests24 : State := { base with dct := { on := 0xFB }, seq := { wk := 0 } }
def sTraverseSteps1 : State :=
  seq1 { en := true, cur := 5, kind := .ordinary, trv := 0, step := 0, psout := 0xF0F00F0F, watch := [(3, 4)], cfg := { pnd := some [(1,2)] } }
def sTraverseSteps2 : State :=
  seq1 { en := true, cur := 5, kind := .ordinary, trv := 0, step := 1, psout := 0xF0F00F0F, watch := [(3, 4)], cfg := { pnd := some [(1,2)] } }
def sTraverseSteps3 : State :=
  seq1 { en := true, cur := 5, kind := .ordinary, trv := 0, step := 2, psout := 0xF0F00F0F, watch := [(3, 4)], cfg := { pnd := some [(1,2)] } }
def sTraverseSteps4 : State :=
  seq1 { en := true, cur := 5, kind := .ordinary, trv := 0, step := 3, psout := 0xF0F00F0F, watch := [(3, 4)], cfg := { pnd := some [(1,2)] } }
def sTraverseSteps6 : State :=
  seq1 { en := true, cur := 5, kind := .ordinary, waiting := true, trv := 0, step := 3, psout := 0xF0F00F0F }
def sTraverseSteps7 : State :=
  seq1 { en := true, cur := 5, kind := .fault, waiting := true, trv := 3, step := 3, psout := 0xF0F00F0F }
def sTraverseSteps8 : State :=
  seq1 { en := true, cur := 5, kind := .ordinary, trv := 0, step := 4, psout := 0xF0F00F0F, watch := [(3, 4)], cfg := { pnd := some [(1,2)] } }
def sTraverseSteps10 : State :=
  seq1 { en := true, cur := 5, kind := .ordinary, trv := 0, step := 6, psout := 0xF0F00F0F, watch := [(3, 4)], cfg := { pnd := some [(1,2)] } }
def sTraverseSteps11 : State :=
  seq1 { en := true, cur := 5, kind := .ordinary, trv := 0, step := 7, psout := 0xF0F00F0F, watch := [(3, 4)], cfg := { pnd := some [(1,2)] } }
def sTraverseSteps16 : State :=
  seq1 { en := true, cur := 5, kind := .ordinary, trv := 0, step := 9, psout := 0xF0F00F0F, watch := [(3, 4)], cfg := { pnd := some [(1,2)] } }
def sTraverseSteps18 : State :=
  seq1 { en := true, cur := 5, kind := .unwind, trv := 0, undo := [{ step := 1, mask := 0x5A00, old := 0xFFFF0FFF }], psout := 0x1234 }
def sTraverseSteps19 : State :=
  seq1 { en := true, cur := 5, kind := .unwind, trv := 0, undo := [], psout := 0x1234, pend := some { tgt := 5, src := 3 }, sstsel := 64 }
def sTraverseSteps22 : State :=
  { seq1 { en := true, cur := 5, watch := [(3, 4)], fltPg := 7 } with seq := { en := true, cur := 5, watch := [(3, 8)], fltPg := 7, cfg := { scfg with pnd := some [(7,7)] } } }
def sThermalReadings1 : State := tha1 { en := true, sensor := some 3, anOn := 0x7 } {}
def sThermalReadings3 : State :=
  { tha1 { en := true, sensor := some 2 } { sens := (({} : ThaDat).sens.set 2 { t := 500, valid := true, faults := 2, verdict := 1 }), vt := #v[{}, { valid := true, t := 5 }, {}, {}] } with hp := #v[{ powered := true, cs := true, driven := true, sel := { thermsel := 26 } }, {}] }
def sThermalReadings4 : State := tha1 { en := false, sensor := some 2 } {}
def sTripsAndFans1 : State :=
  tha1 { en := true } { hot with trips := (({} : ThaDat).trips.set 0 { acts := 2, rels := 0, last := 900 }) }
def sTripsAndFans3 : State := tha1 { en := true, tract := 2, fanTrip := true } hot
def sTripsAndFans4 : State :=
  { tha1 { en := true, tract := 4, fanTrip := true } { hot with fans := #v[{ teff := some 400, pwm := 40, kicks := 3 }, { teff := some 600, pwm := 40, speed := 30, i := 9000 }, {}, {}] } with hp := #v[{ powered := true, cs := true, driven := true, sel := { fansel := 0x20 } }, {}] }
def sTripsAndFans5 : State :=
  { tha1 { en := true, tract := 4, fanTrip := true } { hot with foven := 2, fans := #v[{ teff := some 505, pwm := 40, kicks := 1 }, { teff := some 600, pwm := 40, speed := 30, i := 9000 }, {}, {}] } with hp := #v[{ powered := true, cs := true, driven := true, sel := { fansel := 0x21 } }, {}] }
def sTripsAndFans6 : State :=
  { tha1 { en := true, tract := 4, fanTrip := true } { hot with foven := 2, fans := #v[{ teff := some 505, pwm := 40, kicks := 1 }, { teff := some 600, pwm := 40, speed := 30, i := 9000 }, {}, {}] } with hp := #v[{ powered := true, cs := true, driven := true, sel := { fansel := 0x21 } }, {}] }
def sTripsAndFans9 : State :=
  { base with tha := { en := true, tract := 0x10, rcfg := [], cfg := { live := [(0x98, 0x88), (0x99, 3), (0x9A, 50), (0x9C, 5)] } } }
def sSmbusControllers2 : State :=
  { base with smb := base.smb.set 1 { busy := true, prot := 7, pec := false, addr := 0x20, code := 5 } }
def sSmbusControllers3 : State :=
  { base with smb := base.smb.set 1 { busy := true, prot := 7, pec := true, addr := 0x20, code := 5 } }
def sSmbusControllers4 : State :=
  { base with smb := base.smb.set 1 { busy := true, prot := 5, pec := true, addr := 0x20, code := 5 } }
def sSmbusControllers6 : State := { base with smb := base.smb.set 1 { busy := true, prot := 1, addr := 0x20, code := 5 } }
def sSmbusControllers7 : State :=
  { base with smb := base.smb.set 1 { busy := true, prot := 7, pec := true, addr := 0x20, code := 5 } }
def sSmbusControllers17 : State :=
  { base with smb := base.smb.set 1 { busy := false, prot := 9, len := 5, pec := true, addr := 0x20, code := 5 } }
def sSmbusControllers18 : State :=
  { base with smb := base.smb.set 1 { busy := true, prot := 10, len := 5, pec := true, addr := 0x20, code := 5 } }
def sSmbusControllers19 : State :=
  { base with smb := base.smb.set 1 { busy := true, prot := 10, len := 5, pec := true, addr := 0x20, code := 5 } }
def sSmbusControllers22 : State :=
  { base with smb := base.smb.set 1 { busy := true, prot := 8, len := 5, pec := true, addr := 0x20, code := 5 } }
def sSmbusControllers23 : State :=
  { base with smb := base.smb.set 1 { busy := true, prot := 8, len := 5, pec := true, addr := 0x20, code := 5 } }
def sSmbusControllers24 : State :=
  { base with smb := base.smb.set 1 { busy := true, lost := true, prot := 8, len := 5, pec := true, addr := 0x20, code := 5 } }

/-! ### The hypotheses of each statement meet: its clauses at concrete states and operands -/

theorem witness_CxArithmetic :
    CxReady sCxArithmetic1 0 := by
  decide +kernel

theorem witness_CxLogicAndShifts :
    CxReady sCxLogicAndShifts4 0 ∧ gRead sCxLogicAndShifts4.eng[0] 3 = 0 := by
  decide +kernel

theorem witness_CxDecimal :
    CxReady sCxDecimal2 0 ∧ gRead sCxDecimal2.eng[0] 6 / 16 ≤ 9 ∧ gRead sCxDecimal2.eng[0] 6 % 16 ≤ 9
      ∧ gRead sCxDecimal2.eng[0] 7 / 16 ≤ 9 ∧ gRead sCxDecimal2.eng[0] 7 % 16 ≤ 9 := by
  decide +kernel

theorem witness_CxImmediate :
    CxReady sCxImmediate1 0 := by
  decide +kernel

theorem witness_CarryPairsExact :
    CxReady sCarryPairsExact2 0 ∧ gRead sCarryPairsExact2.eng[0] 3 % 2 = 0 := by
  decide +kernel

theorem witness_NextAddress :
    CxReady sNextAddress1 0 := by
  decide +kernel

theorem witness_CxPairsAndSpecials :
    CxReady sCxPairsAndSpecials1 0 ∧ gRead sCxPairsAndSpecials1.eng[0] 4 < 8 := by
  decide +kernel

theorem witness_CxLoads :
    CxReady sCxLoads1 0
      ∧ (16384 ≤ (gpRead sCxLoads1.eng[0] 1 + (BitVec.signExtend 16 (15 : Byte)).toNat) % 65536 → (gpRead sCxLoads1.eng[0] 1 + (BitVec.signExtend 16 (15 : Byte)).toNat) % 65536 < 32768 → domOn sCxLoads1 7 = true)
      ∧ (16384 ≤ gpRead sCxLoads1.eng[0] 1 → gpRead sCxLoads1.eng[0] 1 < 32768 → domOn sCxLoads1 7 = true)
      ∧ gpRead sCxLoads1.eng[0] 1 < 16384 := by
  decide +kernel

theorem witness_CxStores :
    (CxReady sCxStores1 0 ∧ (gpRead sCxStores1.eng[0] 1 + (BitVec.signExtend 16 (15 : Byte)).toNat) % 65536 < 16384
      ∧ gpRead sCxStores1.eng[0] 1 < 16384
      ∧ (16384 ≤ gpRead sCxStores1.eng[0] 1 → gpRead sCxStores1.eng[0] 1 < 32768 → domOn sCxStores1 7 = true))
    ∧ (CxReady sCxStores2 0 ∧ 16384 ≤ (gpRead sCxStores2.eng[0] 5 + (BitVec.signExtend 16 (15 : Byte)).toNat) % 65536
      ∧ (gpRead sCxStores2.eng[0] 5 + (BitVec.signExtend 16 (15 : Byte)).toNat) % 65536 < 32768
      ∧ domOn sCxStores2 7 = true ∧ 16384 ≤ gpRead sCxStores2.eng[0] 5 ∧ gpRead sCxStores2.eng[0] 5 < 32768
      ∧ (16384 ≤ gpRead sCxStores2.eng[0] 1 → gpRead sCxStores2.eng[0] 1 < 32768 → domOn sCxStores2 7 = true)) := by
  decide +kernel

theorem witness_StoreFrame :
    CxReady sStoreFrame1 0 ∧ sStoreFrame1.MemWf
    ∧ exec (.cxSt 0 3 1 15) sStoreFrame1 = .next (issueStore 0 (Cx.mem .st 3 1 15).word 3 1 15 false sStoreFrame1) := by
  refine ⟨?_, ?_, rfl⟩ <;> decide +kernel

theorem witness_CxInstructionStore :
    CxReady sCxInstructionStore1 0 ∧ gpRead sCxInstructionStore1.eng[0] 1 < 16384 := by
  decide +kernel

theorem witness_CxInOut :
    CxReady sCxInOut2 0 ∧ ioDenied sCxInOut2 0 ((sCxInOut2.eng[0].iob + 30) % 65536) false = false
      ∧ ioOff sCxInOut2 0 ((sCxInOut2.eng[0].iob + 30) % 65536) = false
      ∧ readRefused sCxInOut2 0 ((sCxInOut2.eng[0].iob + 30) % 65536) = false
      ∧ ioDenied sCxInOut2 0 ((gpRead sCxInOut2.eng[0] 3 + (BitVec.signExtend 16 (255 : Byte)).toNat) % 65536) false = false
      ∧ ioOff sCxInOut2 0 ((gpRead sCxInOut2.eng[0] 3 + (BitVec.signExtend 16 (255 : Byte)).toNat) % 65536) = false
      ∧ readRefused sCxInOut2 0 ((gpRead sCxInOut2.eng[0] 3 + (BitVec.signExtend 16 (255 : Byte)).toNat) % 65536) = false
      ∧ ioDenied sCxInOut2 0 ((sCxInOut2.eng[0].iob + 30) % 65536) true = false
      ∧ writeRefused sCxInOut2 (Mst.ce 0) 0 ((sCxInOut2.eng[0].iob + 30) % 65536) (gRead sCxInOut2.eng[0] 7) = false
      ∧ ioDenied sCxInOut2 0 ((gpRead sCxInOut2.eng[0] 3 + (BitVec.signExtend 16 (255 : Byte)).toNat) % 65536) true = false
      ∧ writeRefused sCxInOut2 (Mst.ce 0) 0 ((gpRead sCxInOut2.eng[0] 3 + (BitVec.signExtend 16 (255 : Byte)).toNat) % 65536) (gRead sCxInOut2.eng[0] 7) = false := by
  decide +kernel

theorem witness_CxBranches :
    CxReady sCxBranches1 0 ∧ CxFree sCxBranches1 0 := by
  decide +kernel

theorem witness_CxJumps :
    (CxReady sCxJumps1 0 ∧ CxFree sCxJumps1 0 ∧ (sCxJumps1.eng[0].rom = false ∨ 1792 < 2048))
    ∧ (CxReady sCxJumps2 0 ∧ CxFree sCxJumps2 0 ∧ sCxJumps2.eng[0].rom = true) := by
  decide +kernel

theorem witness_CxTraps :
    (domOn sCxTraps1 (engDom 0) = true ∧ sCxTraps1.eng[0].run = EngRun.running ∧ CxFree sCxTraps1 0
      ∧ sCxTraps1.eng[0].intrap = false ∧ sCxTraps1.eng[0].badKick = false ∧ sCxTraps1.eng[0].pc < 16384)
    ∧ (domOn sCxTraps4 (engDom 0) = true ∧ sCxTraps4.eng[0].run = EngRun.running ∧ CxFree sCxTraps4 0
      ∧ sCxTraps4.eng[0].intrap = false ∧ sCxTraps4.eng[0].badKick = true ∧ sCxTraps4.eng[0].pc < 16384)
    ∧ (domOn sCxTraps2 (engDom 0) = true ∧ sCxTraps2.eng[0].run = EngRun.running ∧ CxFree sCxTraps2 0
      ∧ sCxTraps2.eng[0].intrap = false ∧ sCxTraps2.eng[0].badKick = false ∧ 16384 ≤ sCxTraps2.eng[0].pc)
    ∧ (CxReady sCxTraps3 0 ∧ sCxTraps3.eng[0].intrap = true)
    ∧ (domOn sCxTraps5 (engDom 0) = true ∧ sCxTraps5.eng[0].run = EngRun.running ∧ CxFree sCxTraps5 0
      ∧ sCxTraps5.eng[0].intrap = false ∧ sCxTraps5.eng[0].badKick = true ∧ 16384 ≤ sCxTraps5.eng[0].pc) := by
  constructorm* _ ∧ _ <;> decide +kernel

theorem witness_BusErrorsAndDelaySlots :
    (CxReady sBusErrorsAndDelaySlots5 0 ∧ sBusErrorsAndDelaySlots5.eng[0].ds = some 8
      ∧ sBusErrorsAndDelaySlots5.eng[0].rep = none ∧ sBusErrorsAndDelaySlots5.eng[0].intrap = false
      ∧ sBusErrorsAndDelaySlots5.eng[0].rom = false)
    ∧ (CxReady sBusErrorsAndDelaySlots3 0 ∧ CxFree sBusErrorsAndDelaySlots3 0
      ∧ sBusErrorsAndDelaySlots3.eng[0].intrap = false ∧ 8 ≤ gRead sBusErrorsAndDelaySlots3.eng[0] 1
      ∧ 32768 ≤ (gpRead sBusErrorsAndDelaySlots3.eng[0] 6 + (BitVec.signExtend 16 (1 : Byte)).toNat) % 65536
      ∧ 32768 ≤ gpRead sBusErrorsAndDelaySlots3.eng[0] 6 ∧ 16384 ≤ gpRead sBusErrorsAndDelaySlots3.eng[0] 6
      ∧ ioDenied sBusErrorsAndDelaySlots3 0 ((sBusErrorsAndDelaySlots3.eng[0].iob + 1) % 65536) false = true
      ∧ ioDenied sBusErrorsAndDelaySlots3 0 ((sBusErrorsAndDelaySlots3.eng[0].iob + 1) % 65536) true = true)
    ∧ (CxReady sBusErrorsAndDelaySlots2 0 ∧ CxFree sBusErrorsAndDelaySlots2 0
      ∧ sBusErrorsAndDelaySlots2.eng[0].intrap = false
      ∧ 16384 ≤ (gpRead sBusErrorsAndDelaySlots2.eng[0] 5 + (BitVec.signExtend 16 (1 : Byte)).toNat) % 65536
      ∧ (gpRead sBusErrorsAndDelaySlots2.eng[0] 5 + (BitVec.signExtend 16 (1 : Byte)).toNat) % 65536 < 32768
      ∧ domOn sBusErrorsAndDelaySlots2 7 = false)
    ∧ (CxReady sBusErrorsAndDelaySlots4 0 ∧ CxFree sBusErrorsAndDelaySlots4 0
      ∧ sBusErrorsAndDelaySlots4.eng[0].intrap = false
      ∧ ioDenied sBusErrorsAndDelaySlots4 0 ((sBusErrorsAndDelaySlots4.eng[0].iob + 1) % 65536) false = false
      ∧ ioOff sBusErrorsAndDelaySlots4 0 ((sBusErrorsAndDelaySlots4.eng[0].iob + 1) % 65536) = true
      ∧ ioDenied sBusErrorsAndDelaySlots4 0 ((sBusErrorsAndDelaySlots4.eng[0].iob + 1) % 65536) true = false) := by
  constructorm* _ ∧ _ <;> decide +kernel

theorem witness_CxReturnAndWait :
    CxReady sCxReturnAndWait1 0 ∧ CxFree sCxReturnAndWait1 0 := by
  decide +kernel

theorem witness_CxRepeats :
    (CxReady sCxRepeats1 0 ∧ CxFree sCxRepeats1 0
      ∧ 66051 / 65536 ∉ [96, 97, 98, 99, 100, 101, 104, 105, 112, 113, 114, 115, 116, 120, 121, 122, 123, 128, 129, 130, 131])
    ∧ (CxReady sCxRepeats4 0 ∧ CxFree sCxRepeats4 0
      ∧ 7602176 / 65536 ∈ [96, 97, 98, 99, 100, 101, 104, 105, 112, 113, 114, 115, 116, 120, 121, 122, 123, 128, 129, 130, 131]
      ∧ sCxRepeats4.eng[0].pc + 1 < 16384 ∧ sCxRepeats4.eng[0].intrap = false) := by
  decide +kernel

theorem witness_Interrupts :
    (domOn sInterrupts1 (engDom 0) = true ∧ sInterrupts1.eng[0].gov = none ∧ sInterrupts1.eng[0].ie = true
      ∧ sInterrupts1.eng[0].intrap = false ∧ sInterrupts1.eng[0].ds = none
      ∧ lowestBit 24 (irqReady sInterrupts1 0 sInterrupts1.eng[0].irqen) = some 3
      ∧ sInterrupts1.eng[0].run = EngRun.running ∧ sInterrupts1.eng[0].rep = none ∧ sInterrupts1.eng[0].badKick = false)
    ∧ (domOn sInterrupts2 (engDom 0) = true ∧ sInterrupts2.eng[0].gov = none ∧ sInterrupts2.eng[0].ie = true
      ∧ sInterrupts2.eng[0].intrap = false ∧ sInterrupts2.eng[0].ds = none
      ∧ lowestBit 24 (irqReady sInterrupts2 0 sInterrupts2.eng[0].irqen) = some 3
      ∧ sInterrupts2.eng[0].run = EngRun.running
      ∧ sInterrupts2.eng[0].rep = some { pc := 3, word := 8388612, unint := false, left := 2 }
      ∧ sInterrupts2.eng[0].badKick = false)
    ∧ (domOn sInterrupts3 (engDom 0) = true ∧ sInterrupts3.eng[0].gov = none ∧ sInterrupts3.eng[0].ie = true
      ∧ sInterrupts3.eng[0].intrap = false ∧ sInterrupts3.eng[0].ds = none
      ∧ lowestBit 24 (irqReady sInterrupts3 0 sInterrupts3.eng[0].irqen) = some 3
      ∧ sInterrupts3.eng[0].run = EngRun.running
      ∧ sInterrupts3.eng[0].rep = some { pc := 3, word := 8454148, unint := true, left := 2 })
    ∧ (domOn sInterrupts4 (engDom 0) = true ∧ sInterrupts4.eng[0].gov = none ∧ sInterrupts4.eng[0].ie = true
      ∧ sInterrupts4.eng[0].intrap = false ∧ sInterrupts4.eng[0].ds = none
      ∧ lowestBit 24 (irqReady sInterrupts4 0 sInterrupts4.eng[0].irqen) = some 3
      ∧ sInterrupts4.eng[0].run = EngRun.waiting ∧ sInterrupts4.eng[0].rep = none)
    ∧ (domOn sInterrupts5 (engDom 0) = true ∧ sInterrupts5.eng[0].run = EngRun.waiting
      ∧ (sInterrupts5.eng[0].ie = false ∨ sInterrupts5.eng[0].intrap = true)
      ∧ lowestBit 24 (irqReady sInterrupts5 0 sInterrupts5.eng[0].irqen) = some 3) := by
  constructorm* _ ∧ _ <;> decide +kernel

theorem witness_Interrupts_2 :
    domOn sInterrupts6 (engDom 0) = true ∧ sInterrupts6.eng[0].gov = none ∧ sInterrupts6.eng[0].ie = true
      ∧ sInterrupts6.eng[0].intrap = false ∧ sInterrupts6.eng[0].ds = none
      ∧ lowestBit 24 (irqReady sInterrupts6 0 sInterrupts6.eng[0].irqen) = some 3
      ∧ sInterrupts6.eng[0].run = EngRun.running ∧ sInterrupts6.eng[0].badKick = true
      ∧ (∀ (r : RepSt), sInterrupts6.eng[0].rep = some r → r.unint = false) := by
  decide +kernel

theorem witness_EngineEvents :
    (EngMay sEngineEvents2 0 0x0010 true ∧ EngMay sEngineEvents2 0 0x0043 true ∧ sEngineEvents2.eng[0].wd.en = true
      ∧ domOn sEngineEvents2 (engDom 0) = true ∧ sEngineEvents2.eng[0].run ≠ EngRun.stopped
      ∧ (sEngineEvents2.eng[0].wd.warn = 1 ∧ 2 * sEngineEvents2.eng[0].wd.left ≤ sEngineEvents2.eng[0].wd.cur * 24000 ∨ sEngineEvents2.eng[0].wd.warn = 2 ∧ 4 * sEngineEvents2.eng[0].wd.left ≤ sEngineEvents2.eng[0].wd.cur * 24000 ∨ sEngineEvents2.eng[0].wd.warn = 3 ∧ 8 * sEngineEvents2.eng[0].wd.left ≤ sEngineEvents2.eng[0].wd.cur * 24000)
      ∧ sEngineEvents2.eng[0].wd.left = 0
      ∧ (sEngineEvents2.eng[0].run = EngRun.running ∨ sEngineEvents2.eng[0].run = EngRun.waiting)
      ∧ EngMay sEngineEvents2 0 (32 + 8 * 0) true ∧ sEngineEvents2.eng[0].tmr[0].en = false
      ∧ (sEngineEvents2.eng[0].tmr[0].en = false ∨ sEngineEvents2.eng[0].tmr[0].cnt ≠ 0))
    ∧ (EngMay sEngineEvents5 0 0x0040 true ∧ sEngineEvents5.eng[0].wd.en = false ∧ EngMay sEngineEvents5 0 0x0043 true
      ∧ domOn sEngineEvents5 (engDom 0) = true ∧ sEngineEvents5.eng[0].tmr[0].en = true
      ∧ sEngineEvents5.eng[0].tmr[0].cnt = 0)
    ∧ (domOn sEngineEvents7 (engDom 0) = true ∧ sEngineEvents7.eng[0].run = EngRun.running
      ∧ sEngineEvents7.eng[0].pc < 16384 ∧ sEngineEvents7.eng[0].badKick = true ∧ sEngineEvents7.eng[0].rep = none
      ∧ sEngineEvents7.eng[0].ds = none ∧ ckRuns sEngineEvents7 = true
      ∧ (∀ (m : Eng), m ≠ 0 → sEngineEvents7.eng[m].badKick = false))
    ∧ (EngMay sEngineEvents3 0 0x0043 true ∧ sEngineEvents3.eng[0].wd.en = true ∧ sEngineEvents3.eng[0].wd.first = true)
    ∧ (EngMay sEngineEvents4 0 0x0043 true ∧ sEngineEvents4.eng[0].wd.en = true
      ∧ (165 = 165 → sEngineEvents4.eng[0].wd.first = false)) := by
  constructorm* _ ∧ _ <;> decide +kernel

theorem witness_CopyJobs :
    (ckRuns sCopyJobs4 = true ∧ domOn sCopyJobs4 7 = true
      ∧ sCopyJobs4.cpy.run = some { j := 1, mode := 0, sadr := 2, dadr := 8, len := 1, db := 0, latch := [] }
      ∧ sCopyJobs4.MemWf ∧ 2 + 1 ≤ 65536 ∧ 8 + 1 ≤ 65536 ∧ EngMay sCopyJobs4 0 0x3005 true
      ∧ sCopyJobs4.cpy.queued.testBit 2 = true ∧ (∀ r ∈ sCopyJobs4.cpy.run, r.j ≠ 2))
    ∧ (EngMay sCopyJobs27 0 0x3004 true ∧ (cpyBusy sCopyJobs27).testBit 1 = false ∧ ckRuns sCopyJobs27 = false)
    ∧ (ckRuns sCopyJobs10 = true ∧ domOn sCopyJobs10 7 = true
      ∧ sCopyJobs10.cpy.run = some { j := 1, mode := 64, sadr := 2052, dadr := 3, len := 3, db := 0, latch := [5, 6, 7, 8, 9, 10, 11] }
      ∧ sCopyJobs10.MemWf ∧ 3 + 3 ≤ 65536 ∧ EngMay sCopyJobs10 0 0x3005 true)
    ∧ (ckRuns sCopyJobs13 = true ∧ domOn sCopyJobs13 7 = true
      ∧ sCopyJobs13.cpy.run = some { j := 1, mode := 16, sadr := 8, dadr := 2051, len := 3, db := 0, latch := [] }
      ∧ chanOff sCopyJobs13 (2051 % 1024) = false ∧ EngMay sCopyJobs13 0 0x3005 true)
    ∧ (ckRuns sCopyJobs22 = true ∧ domOn sCopyJobs22 7 = true
      ∧ sCopyJobs22.cpy.run = some { j := 1, mode := 32, sadr := 8, dadr := 7, len := 3, db := 0, latch := [] }
      ∧ fld 7 10 0 + 3 ≤ 1160 ∧ spWf (fun _ => 0) sCopyJobs22.lgb.back = true ∧ EngMay sCopyJobs22 0 0x3005 true
      ∧ domOn sCopyJobs22 6 = true ∧ sCopyJobs22.lgb.swap = none) := by
  constructorm* _ ∧ _ <;> decide +kernel

theorem witness_CopyJobs_2 :
    (ckRuns sCopyJobs2 = true ∧ domOn sCopyJobs2 7 = true ∧ sCopyJobs2.cpy.run = none
      ∧ lowestBit 8 sCopyJobs2.cpy.queued = some 2)
    ∧ (ckRuns sCopyJobs14 = true ∧ domOn sCopyJobs14 7 = true
      ∧ sCopyJobs14.cpy.run = some { j := 1, mode := 24, sadr := 8, dadr := 2051, len := 3, db := 0, latch := [] }
      ∧ chanOff sCopyJobs14 (2051 % 1024) = false ∧ chanDir sCopyJobs14 (2051 % 1024) = true
      ∧ ((spGet { } sCopyJobs14.mbx.chans (2051 % 1024)).full = false ∨ chanLatest sCopyJobs14 (2051 % 1024) = true))
    ∧ (ckRuns sCopyJobs16 = true ∧ domOn sCopyJobs16 7 = true
      ∧ sCopyJobs16.cpy.run = some { j := 1, mode := 24, sadr := 8, dadr := 2052, len := 3, db := 0, latch := [] }
      ∧ chanOff sCopyJobs16 (2052 % 1024) = false ∧ chanDir sCopyJobs16 (2052 % 1024) = false)
    ∧ (ckRuns sCopyJobs19 = true ∧ domOn sCopyJobs19 7 = true
      ∧ sCopyJobs19.cpy.run = some { j := 1, mode := 26, sadr := 8, dadr := 2051, len := 3, db := 69, latch := [] }
      ∧ chanOff sCopyJobs19 (2051 % 1024) = false ∧ chanDir sCopyJobs19 (2051 % 1024) = true
      ∧ (spGet { } sCopyJobs19.mbx.chans (2051 % 1024)).full = true ∧ chanLatest sCopyJobs19 (2051 % 1024) = false)
    ∧ (ckRuns sCopyJobs25 = true ∧ domOn sCopyJobs25 7 = true
      ∧ sCopyJobs25.cpy.run = some { j := 1, mode := 26, sadr := 8, dadr := 2051, len := 3, db := 69, latch := [] }
      ∧ chanOff sCopyJobs25 (2051 % 1024) = true) := by
  constructorm* _ ∧ _ <;> decide +kernel

theorem witness_CopyJobs_3 :
    ckRuns sCopyJobs28 = true ∧ domOn sCopyJobs28 7 = true
      ∧ sCopyJobs28.cpy.run = some { j := 1, mode := 96, sadr := 2052, dadr := 7, len := 3, db := 0, latch := [5, 6, 7, 8, 9, 10, 11] }
      ∧ domOn sCopyJobs28 6 = true ∧ fld 7 10 0 + 3 ≤ 1160 ∧ spWf (fun _ => 0) sCopyJobs28.lgb.back = true := by
  decide +kernel

theorem witness_EngineMailboxes :
    (EngMay sEngineMailboxes6 0 0x0104 true ∧ EngMay sEngineMailboxes6 0 0x0105 true
      ∧ EngMay sEngineMailboxes6 0 0x010A false ∧ mbMine sEngineMailboxes6 (0) sEngineMailboxes6.mbx.eng[0].echsel = true
      ∧ sEngineMailboxes6.mbx.eng[0].embptr = 0 ∧ EngMay sEngineMailboxes6 0 0x010B true
      ∧ chanDir sEngineMailboxes6 sEngineMailboxes6.mbx.eng[0].echsel = false
      ∧ (spGet { } sEngineMailboxes6.mbx.chans sEngineMailboxes6.mbx.eng[0].echsel).full = true
      ∧ spWf (fun _ => { }) sEngineMailboxes6.mbx.chans = true ∧ EngMay sEngineMailboxes6 0 0x141 true
      ∧ sEngineMailboxes6.prt.eflags[0].testBit 0 = true ∧ EngMay sEngineMailboxes6 0 0x0131 true
      ∧ dbMine sEngineMailboxes6 0 (0) (3) = true ∧ EngMay sEngineMailboxes6 0 0x0130 true)
    ∧ (EngMay sEngineMailboxes3 0 0x010A false ∧ mbMine sEngineMailboxes3 (0) sEngineMailboxes3.mbx.eng[0].echsel = true
      ∧ sEngineMailboxes3.mbx.eng[0].latch = some (sEngineMailboxes3.mbx.eng[0].echsel, bytes32)
      ∧ 0 < sEngineMailboxes3.mbx.eng[0].embptr ∧ sEngineMailboxes3.mbx.eng[0].embptr < 32
      ∧ EngMay sEngineMailboxes3 0 0x010B true ∧ chanDir sEngineMailboxes3 sEngineMailboxes3.mbx.eng[0].echsel = true
      ∧ ((spGet { } sEngineMailboxes3.mbx.chans sEngineMailboxes3.mbx.eng[0].echsel).full = false ∨ chanLatest sEngineMailboxes3 sEngineMailboxes3.mbx.eng[0].echsel = true)
      ∧ (false = true → dbMine sEngineMailboxes3 (if sEngineMailboxes3.mbx.eng[0].embdb.testBit 7 = true then 1 else 0) (0) (sEngineMailboxes3.mbx.eng[0].embdb % 64) = true))
    ∧ (EngMay sEngineMailboxes4 0 0x010B true ∧ mbMine sEngineMailboxes4 (0) sEngineMailboxes4.mbx.eng[0].echsel = true
      ∧ chanDir sEngineMailboxes4 sEngineMailboxes4.mbx.eng[0].echsel = true
      ∧ (spGet { } sEngineMailboxes4.mbx.chans sEngineMailboxes4.mbx.eng[0].echsel).full = true
      ∧ chanLatest sEngineMailboxes4 sEngineMailboxes4.mbx.eng[0].echsel = false) := by
  constructorm* _ ∧ _ <;> decide +kernel

theorem witness_PortPins :
    (sPortPins9.hp[0].powered = true ∧ PortMay sPortPins9 0 true 0x05 true ∧ portServes sPortPins9 0 = true
      ∧ PortMay sPortPins9 0 true 0x2F false ∧ sPortPins9.rst.active = 0 ∧ 2 ≤ sPortPins9.rst.step
      ∧ PortMay sPortPins9 0 true 0x03 true ∧ sPortPins9.dct.mode ≠ Mode.ship ∧ domOn sPortPins9 7 = true
      ∧ sPortPins9.hp[0].driven = false)
    ∧ (sPortPins1.hp[0].powered = false ∧ sPortPins1.rst.recovery = false ∧ domOn sPortPins1 7 = true
      ∧ sPortPins1.dct.mode ≠ Mode.ship
      ∧ (sPortPins1.hp[0].powered = false ∨ sPortPins1.dct.mode = Mode.ship ∨ sPortPins1.rst.active ≠ 0 ∨ domOn sPortPins1 7 = false))
    ∧ (sPortPins2.hp[0].powered = false ∧ sPortPins2.rst.recovery = false ∧ sPortPins2.dct.mode = Mode.ship
      ∧ sPortPins2.rst.active = 0) := by
  constructorm* _ ∧ _ <;> decide +kernel

theorem witness_HostErrorResponse :
    portServes sHostErrorResponse2 0 = true ∧ portCheck sHostErrorResponse2 0 false (61 % 64) false = 1
      ∧ portCheck sHostErrorResponse2 0 false (61 % 64) true = 1 ∧ 60 ≤ 61 % 64 := by
  decide +kernel

theorem witness_RegisterAccess :
    (PortMay sRegisterAccess7 0 true 0x03 true ∧ PortMay sRegisterAccess7 0 true 0x04 true
      ∧ PortMay sRegisterAccess7 0 true 0x2F false ∧ PortMay sRegisterAccess7 0 true 0x0C true
      ∧ PortMay sRegisterAccess7 0 true 0x0E true ∧ mbAccess sRegisterAccess7 0 = 0
      ∧ PortMay sRegisterAccess7 0 true 0x0E false ∧ sRegisterAccess7.hp[0].sel.mbsel / 1024 % 16 = 0
      ∧ PortMay sRegisterAccess7 0 true 0x18 false ∧ PortMay sRegisterAccess7 0 true 0x18 true
      ∧ EngMay sRegisterAccess7 0 0x1813 true ∧ EngMay sRegisterAccess7 0 0x3400 true
      ∧ EngMay sRegisterAccess7 0 0x0002 true ∧ 8 ≤ 4660 % 256 ∧ EngMay sRegisterAccess7 0 0x0002 false
      ∧ engRuns sRegisterAccess7 0 = true ∧ fld sRegisterAccess7.hp[0].sel.winsel 11 10 = 2
      ∧ PortMay sRegisterAccess7 0 true 0x3A false ∧ winCheck sRegisterAccess7 0 false = 0
      ∧ sRegisterAccess7.hp[0].sel.winsel.testBit 9 = false ∧ PortMay sRegisterAccess7 0 true 0x3A true
      ∧ winCheck sRegisterAccess7 0 true = 0)
    ∧ (PortMay sRegisterAccess4 0 true 0x0E false ∧ mbAccess sRegisterAccess4 0 = 0
      ∧ sRegisterAccess4.hp[0].sel.mbsel / 1024 % 16 ≠ 0
      ∧ sRegisterAccess4.hp[0].sel.mlatch = some (sRegisterAccess4.hp[0].sel.mbsel % 1024, List.range 16)
      ∧ EngMay sRegisterAccess4 0 0x0002 true ∧ 3 % 256 < 8)
    ∧ (fld sRegisterAccess8.hp[0].sel.winsel 11 10 = 2 ∧ PortMay sRegisterAccess8 0 true 0x3A false
      ∧ winCheck sRegisterAccess8 0 false = 0 ∧ sRegisterAccess8.hp[0].sel.winsel.testBit 9 = true
      ∧ PortMay sRegisterAccess8 0 true 0x3A true ∧ winCheck sRegisterAccess8 0 true = 0) := by
  constructorm* _ ∧ _ <;> decide +kernel

theorem witness_HostMailboxes :
    (PortMay sHostMailboxes2 0 true 0x0F true ∧ mbAccess sHostMailboxes2 0 = 0
      ∧ chanDir sHostMailboxes2 (sHostMailboxes2.hp[0].sel.mbsel % 1024) = false
      ∧ ((spGet { } sHostMailboxes2.mbx.chans (sHostMailboxes2.hp[0].sel.mbsel % 1024)).full = false ∨ chanLatest sHostMailboxes2 (sHostMailboxes2.hp[0].sel.mbsel % 1024) = true)
      ∧ PortMay sHostMailboxes2 0 true 0x10 true ∧ dbRoute sHostMailboxes2 0 (3) ≠ 7
      ∧ sHostMailboxes2.dct.mode = Mode.run ∧ PortMay sHostMailboxes2 0 true 0x12 true)
    ∧ (PortMay sHostMailboxes3 0 true 0x0F true ∧ mbAccess sHostMailboxes3 0 = 0
      ∧ chanDir sHostMailboxes3 (sHostMailboxes3.hp[0].sel.mbsel % 1024) = false
      ∧ (spGet { } sHostMailboxes3.mbx.chans (sHostMailboxes3.hp[0].sel.mbsel % 1024)).full = true
      ∧ chanLatest sHostMailboxes3 (sHostMailboxes3.hp[0].sel.mbsel % 1024) = false)
    ∧ (PortMay sHostMailboxes4 0 true 0x0F true ∧ mbAccess sHostMailboxes4 0 = 0
      ∧ chanDir sHostMailboxes4 (sHostMailboxes4.hp[0].sel.mbsel % 1024) = true
      ∧ (spGet { } sHostMailboxes4.mbx.chans (sHostMailboxes4.hp[0].sel.mbsel % 1024)).full = true
      ∧ spWf (fun _ => { }) sHostMailboxes4.mbx.chans = true) := by
  constructorm* _ ∧ _ <;> decide +kernel

theorem witness_Locks :
    (EngMay sLocks1 0 0x0305 false ∧ lockOwner sLocks1 sLocks1.lck.lksel[0] = none ∧ PortMay sLocks1 0 true 0x14 false
      ∧ lockOwner sLocks1 sLocks1.hp[0].sel.locksel = none ∧ EngMay sLocks1 0 0x0306 true
      ∧ lockOwner sLocks1 (3) ≠ some 0 ∧ PortMay sLocks1 0 true 0x15 true ∧ lockOwner sLocks1 (3) ≠ some (6 + 0)
      ∧ EngMay sLocks1 0 0x0311 true ∧ sLocks1.prt.eflags[0].testBit 0 = true ∧ spWf (fun _ => 0) sLocks1.lck.held = true)
    ∧ (EngMay sLocks2 0 0x0306 true ∧ spWf (fun _ => 0) sLocks2.lck.held = true ∧ lockOwner sLocks2 (3) = some 0)
    ∧ (PortMay sLocks3 0 true 0x15 true ∧ spWf (fun _ => 0) sLocks3.lck.held = true ∧ lockOwner sLocks3 (3) = some (6 + 0)) := by
  constructorm* _ ∧ _ <;> decide +kernel

theorem witness_FieldBookRecords :
    (EngMay sFieldBookRecords3 0 0x1C27 true ∧ sFieldBookRecords3.fbk.ring.length < 256
      ∧ sFieldBookRecords3.fbk.drops = 0 ∧ sFieldBookRecords3.svy.svfsel = 0
      ∧ PortMay sFieldBookRecords3 0 true 0x28 true ∧ fbHeld sFieldBookRecords3 ≠ [] ∧ 5 ≠ sFieldBookRecords3.fbk.nonce
      ∧ ckRuns sFieldBookRecords3 = true
      ∧ sFieldBookRecords3.fbk.ring = [{ r := rec1 6 1 1, written := false }, { r := rec1 6 2 2, written := false }]
      ∧ sFieldBookRecords3.fbk.raise = none)
    ∧ (ckRuns sFieldBookRecords8 = true
      ∧ sFieldBookRecords8.fbk.ring = [{ r := rec1 0 1 4, written := false }, { r := rec1 6 2 4, written := false }, { r := rec1 6 2 9, written := false }]
      ∧ sFieldBookRecords8.fbk.drops = 0 ∧ sFieldBookRecords8.fbk.raise = none)
    ∧ (ckRuns sFieldBookRecords2 = true ∧ sFieldBookRecords2.fbk.ring.length < 256 ∧ sFieldBookRecords2.fbk.drops ≠ 0)
    ∧ (ckRuns sFieldBookRecords4 = true ∧ 256 ≤ sFieldBookRecords4.fbk.ring.length
      ∧ (∀ r ∈ sFieldBookRecords4.fbk.ring, r.written = false))
    ∧ (EngMay sFieldBookRecords10 0 0x1C28 true ∧ EngMay sFieldBookRecords10 0 0x1C29 true
      ∧ sFieldBookRecords10.prt.eflags[0].testBit 1 = true ∧ sFieldBookRecords10.fbk.drops = 0
      ∧ fbHeld sFieldBookRecords10 = []) := by
  constructorm* _ ∧ _ <;> decide +kernel

theorem witness_FieldBookReaders :
    (PortMay sFieldBookReaders1 0 false 0x25 false ∧ sFieldBookReaders1.hp[0].sel.fbcur.ptr = 0
      ∧ sFieldBookReaders1.hp[0].sel.fbcur.gone = false
      ∧ seqNewer sFieldBookReaders1.hp[0].sel.fbcur.seq sFieldBookReaders1.fbk.newest = true
      ∧ EngMay sFieldBookReaders1 0 0x1C10 false ∧ sFieldBookReaders1.fbk.ecur[0].ptr = 0
      ∧ seqNewer sFieldBookReaders1.fbk.ecur[0].seq sFieldBookReaders1.fbk.newest = true)
    ∧ (PortMay sFieldBookReaders2 0 false 0x25 false ∧ sFieldBookReaders2.hp[0].sel.fbcur.ptr = 0
      ∧ sFieldBookReaders2.hp[0].sel.fbcur.gone = false
      ∧ seqNewer sFieldBookReaders2.hp[0].sel.fbcur.seq sFieldBookReaders2.fbk.newest = false
      ∧ seqNewer (fbOldest sFieldBookReaders2) sFieldBookReaders2.hp[0].sel.fbcur.seq = true
      ∧ EngMay sFieldBookReaders2 0 0x1C10 false ∧ sFieldBookReaders2.fbk.ecur[0].ptr = 0
      ∧ seqNewer sFieldBookReaders2.fbk.ecur[0].seq sFieldBookReaders2.fbk.newest = false
      ∧ seqNewer (fbOldest sFieldBookReaders2) sFieldBookReaders2.fbk.ecur[0].seq = true)
    ∧ (PortMay sFieldBookReaders3 0 false 0x25 false ∧ sFieldBookReaders3.hp[0].sel.fbcur.ptr = 0
      ∧ sFieldBookReaders3.hp[0].sel.fbcur.gone = true ∧ EngMay sFieldBookReaders3 0 0x1C10 false
      ∧ sFieldBookReaders3.fbk.ecur[0].ptr = 0
      ∧ seqNewer sFieldBookReaders3.fbk.ecur[0].seq sFieldBookReaders3.fbk.newest = false
      ∧ seqNewer (fbOldest sFieldBookReaders3) sFieldBookReaders3.fbk.ecur[0].seq = false
      ∧ fbFind sFieldBookReaders3 sFieldBookReaders3.fbk.ecur[0].seq = some (rec1 6 1 1))
    ∧ (PortMay sFieldBookReaders5 0 false 0x25 false ∧ sFieldBookReaders5.hp[0].sel.fbcur.ptr ≠ 0
      ∧ sFieldBookReaders5.hp[0].sel.fbcur.ptr < 15 ∧ EngMay sFieldBookReaders5 0 0x1C10 false
      ∧ sFieldBookReaders5.fbk.ecur[0].ptr ≠ 0 ∧ sFieldBookReaders5.fbk.ecur[0].ptr < 31
      ∧ sFieldBookReaders5.fbk.ecur[0].gone = false)
    ∧ (PortMay sFieldBookReaders4 0 false 0x25 false ∧ sFieldBookReaders4.hp[0].sel.fbcur.ptr = 0
      ∧ sFieldBookReaders4.hp[0].sel.fbcur.gone = false
      ∧ seqNewer sFieldBookReaders4.hp[0].sel.fbcur.seq sFieldBookReaders4.fbk.newest = false
      ∧ seqNewer (fbOldest sFieldBookReaders4) sFieldBookReaders4.hp[0].sel.fbcur.seq = false
      ∧ fbFind sFieldBookReaders4 sFieldBookReaders4.hp[0].sel.fbcur.seq = some (rec1 6 2 2)) := by
  constructorm* _ ∧ _ <;> decide +kernel

theorem witness_FieldBookReaders_2 :
    (PortMay sFieldBookReaders6 0 false 0x25 false ∧ sFieldBookReaders6.hp[0].sel.fbcur.ptr = 15)
    ∧ (EngMay sFieldBookReaders7 0 0x1C10 false ∧ sFieldBookReaders7.fbk.ecur[0].ptr = 31
      ∧ sFieldBookReaders7.fbk.ecur[0].gone = false)
    ∧ (EngMay sFieldBookReaders8 0 0x1C10 false ∧ sFieldBookReaders8.fbk.ecur[0].gone = true
      ∧ sFieldBookReaders8.fbk.ecur[0].ptr = 3)
    ∧ (EngMay sFieldBookReaders9 0 0x1C10 false ∧ sFieldBookReaders9.fbk.ecur[0].gone = true
      ∧ 1 ≤ sFieldBookReaders9.fbk.ecur[0].ptr ∧ sFieldBookReaders9.fbk.ecur[0].ptr ≤ 2) := by
  decide +kernel

theorem witness_SurveySnapshots :
    (EngMay sSurveySnapshots6 0 0x1E04 true ∧ sSurveySnapshots6.svy.held = true
      ∧ PortMay sSurveySnapshots6 0 true 0x29 true ∧ ckRuns sSurveySnapshots6 = true ∧ sSurveySnapshots6.gpio.viom = true
      ∧ sSurveySnapshots6.svy.latched = true ∧ sSurveySnapshots6.svy.src ≠ 0
      ∧ sSurveySnapshots6.svy.svfsel.testBit 0 = true ∧ sSurveySnapshots6.fbk.ring.length < 255
      ∧ sSurveySnapshots6.fbk.drops = 0 ∧ CxReady sSurveySnapshots6 0 ∧ EngMay sSurveySnapshots6 0 0x1E03 true
      ∧ PortMay sSurveySnapshots6 0 true 0x2B false ∧ EngMay sSurveySnapshots6 0 0x1E0C false
      ∧ EngMay sSurveySnapshots6 0 0x1E0D false ∧ EngMay sSurveySnapshots6 0 0x1E09 false)
    ∧ (EngMay sSurveySnapshots1 0 0x1E04 true ∧ sSurveySnapshots1.svy.held = false
      ∧ PortMay sSurveySnapshots1 0 false 0x29 true ∧ ckRuns sSurveySnapshots1 = true
      ∧ sSurveySnapshots1.gpio.viom = true ∧ sSurveySnapshots1.svy.latched = false)
    ∧ (sSurveySnapshots2.svy.latched = false ∧ EngMay sSurveySnapshots2 0 0x1E04 true ∧ sSurveySnapshots2.svy.held = true
      ∧ PortMay sSurveySnapshots2 0 false 0x29 true ∧ ckRuns sSurveySnapshots2 = true
      ∧ sSurveySnapshots2.gpio.viom = true)
    ∧ (CxReady sSurveySnapshots7 0 ∧ sSurveySnapshots7.eng[0].intrap = true ∧ Cx.decode 0xFFFFFF#24 = none ∧ sSurveySnapshots7.svy.svfsel.testBit 3 = true
      ∧ sSurveySnapshots7.svy.held = false ∧ sSurveySnapshots7.svy.join = none ∧ sSurveySnapshots7.fbk.ring.length < 255 ∧ sSurveySnapshots7.fbk.drops = 0
      ∧ sSurveySnapshots7.svy.fresh = true ∧ sSurveySnapshots7.svy.latched = true) := by
  constructorm* _ ∧ _ <;> decide +kernel

theorem witness_Resets :
    (sResets2.dct.mode ≠ Mode.ship ∧ EngMay sResets2 0 0x182C true ∧ sResets2.prt.eflags[0].testBit 0 = true
      ∧ lowestBit 6 sResets2.rst.active = some 0 ∧ sResets2.fls.cmd = none ∧ sResets2.rst.active ≠ 0)
    ∧ (sResets1.rst.active = 0 ∧ 3 < sResets1.rst.step)
    ∧ (sResets3.dct.mode = .ship ∧ sResets3.rst.step = 1 ∧ sResets4.dct.mode = .ship ∧ sResets4.rst.step ≠ 1) := by
  decide +kernel

theorem witness_ClockSource :
    (ckRuns sClockSource6 = true ∧ sClockSource6.clk.fallback = true ∧ sClockSource6.clk.retry < 3
      ∧ sClockSource6.dct.mode = Mode.run ∧ sClockSource6.clk.lock = true ∧ sClockSource6.clk.ckPll = false
      ∧ sClockSource6.clk.pllOn = true
      ∧ (sClockSource6.clk.prep = true → sClockSource6.dct.mode = Mode.run → sClockSource6.ksc.scanning = true → sClockSource6.ksc.fr ≠ FramePos.idle)
      ∧ EngMay sClockSource6 0 0x1829 true ∧ sClockSource6.clk.prep = true ∧ kscIdle sClockSource6 = true
      ∧ gatesOff sClockSource6 = true ∧ (sClockSource6.clk.ckPll = true ∨ sClockSource6.clk.lock = true))
    ∧ (ckRuns sClockSource7 = true ∧ sClockSource7.clk.pllOn = true ∧ sClockSource7.clk.lock = false
      ∧ wakeReady sClockSource7 = false ∧ sClockSource7.clk.prep = true
      ∧ (kscIdle sClockSource7 = false ∨ gatesOff sClockSource7 = false ∨ sClockSource7.clk.ckPll = false ∧ sClockSource7.clk.lock = false))
    ∧ (ckRuns sClockSource1 = true ∧ sClockSource1.clk.pllOn = true ∧ sClockSource1.clk.lock = true
      ∧ sClockSource1.clk.ckPll = true)
    ∧ (ckRuns sClockSource11 = true ∧ sClockSource11.clk.pllOn = true ∧ sClockSource11.clk.lock = true
      ∧ sClockSource11.clk.ckPll = false ∧ sClockSource11.clk.prep = true ∧ sClockSource11.dct.mode = Mode.run
      ∧ sClockSource11.ksc.scanning = true ∧ sClockSource11.ksc.scanen = true ∧ sClockSource11.ksc.fr = FramePos.idle
      ∧ sClockSource11.dct.phase ≠ DctPhase.gather)
    ∧ (ckRuns sClockSource12 = true ∧ sClockSource12.clk.pllOn = true ∧ sClockSource12.clk.lock = true
      ∧ sClockSource12.clk.ckPll = false ∧ sClockSource12.clk.prep = true ∧ sClockSource12.dct.mode = Mode.run
      ∧ sClockSource12.dct.phase = DctPhase.gather ∧ sClockSource12.dct.dom = some 5) := by
  constructorm* _ ∧ _ <;> decide +kernel

theorem witness_BoardCommands :
    (EngMay sBoardCommands2 0 0x2C08 true ∧ PortMay sBoardCommands2 0 false 0x2D true
      ∧ sBoardCommands2.hp[0].sel.rtcsel % 8 < 7 ∧ sBoardCommands2.rtc.eng.hold = true
      ∧ sBoardCommands2.rtc.eng.written = true ∧ dateOk sBoardCommands2.rtc.eng.copy = true
      ∧ sBoardCommands2.hp[0].sel.rtc.hold = true ∧ sBoardCommands2.hp[0].sel.rtc.written = true
      ∧ dateOk sBoardCommands2.hp[0].sel.rtc.copy = true ∧ EngMay sBoardCommands2 0 0x2c09 true
      ∧ PortMay sBoardCommands2 0 false 0x2E true ∧ sBoardCommands2.hp[0].sel.rtcsel % 8 = 0
      ∧ ckRuns sBoardCommands2 = true ∧ sBoardCommands2.gpio.viom = true ∧ sBoardCommands2.trst = false
      ∧ sBoardCommands2.dct.mode ≠ Mode.ship ∧ sBoardCommands2.rst.active.testBit 0 = false
      ∧ sBoardCommands2.rst.active.testBit 1 = false ∧ (∀ (n : Fin 7), rtcOk (↑n) sBoardCommands2.rtc.f[n] = true)
      ∧ dateOk sBoardCommands2.rtc.f = true ∧ (∀ (n : Fin 7), sBoardCommands2.rtc.f[n] < 256))
    ∧ (EngMay sBoardCommands4 0 0x2c09 true ∧ sBoardCommands4.trst = true)
    ∧ (EngMay sBoardCommands1 0 0x2c09 true ∧ sBoardCommands1.rtc.eng.hold = false
      ∧ dateOk (sBoardCommands1.rtc.f.set 0 35 ) = true) := by
  constructorm* _ ∧ _ <;> decide +kernel

theorem witness_ResetProtectFlash :
    (EngMay sResetProtectFlash4 0 0x1820 true ∧ sResetProtectFlash4.prt.eflags[0].testBit 0 = true
      ∧ domOn sResetProtectFlash4 (engDom 1) = true ∧ EngMay sResetProtectFlash4 0 0x2801 true
      ∧ EngMay sResetProtectFlash4 0 0x28A3 false ∧ EngMay sResetProtectFlash4 0 0x28A3 true ∧ 85 % 8 ≠ 6
      ∧ sResetProtectFlash4.prt.ixsel = 0
      ∧ EngMay sResetProtectFlash4 0 0x2C85 true ∧ sResetProtectFlash4.prt.eflags[0].testBit 2 = true
      ∧ sResetProtectFlash4.fls.cmd ≠ none ∧ EngMay sResetProtectFlash4 0 0x2C84 true
      ∧ EngMay sResetProtectFlash4 0 0x2C84 false ∧ ckRuns sResetProtectFlash4 = true
      ∧ sResetProtectFlash4.fls.cmd = some (1, 12288) ∧ sResetProtectFlash4.MemWf)
    ∧ (EngMay sResetProtectFlash7 0 0x2C85 true ∧ sResetProtectFlash7.prt.eflags[0].testBit 2 = true
      ∧ sResetProtectFlash7.fls.cmd = none ∧ flashRefused sResetProtectFlash7 1 = false
      ∧ flashRefused sResetProtectFlash7 2 = false ∧ flashRefused sResetProtectFlash7 3 = false
      ∧ sResetProtectFlash7.fls.otpSvn < sResetProtectFlash7.fls.dat ∧ sResetProtectFlash7.fls.dat ≤ 63)
    ∧ (EngMay sResetProtectFlash3 0 0x1820 true ∧ sResetProtectFlash3.prt.eflags[0].testBit 0 = false)
    ∧ (ckRuns sResetProtectFlash5 = true ∧ sResetProtectFlash5.fls.cmd = some (2, 12288) ∧ sResetProtectFlash5.MemWf)
    ∧ (ckRuns sResetProtectFlash6 = true ∧ sResetProtectFlash6.fls.cmd = some (3, 5)) := by
  constructorm* _ ∧ _ <;> decide +kernel

theorem witness_BootAndRoles :
    (domOn sBootAndRoles1 (engDom 1) = true ∧ sBootAndRoles1.eng[1].run = EngRun.loading
      ∧ List.find? (fun x => decide (x.typ = 1)) (roleSecs sBootAndRoles1 (sBootAndRoles1.rst.bootstat / 64) sBootAndRoles1.eng[1].role) = some (imgSec sBootAndRoles1 (sBootAndRoles1.rst.bootstat / 64) 0)
      ∧ sBootAndRoles1.rst.bootstat / 64 ≠ 3
      ∧ (roleSecs sBootAndRoles1 (sBootAndRoles1.rst.bootstat / 64) sBootAndRoles1.eng[1].role).all (digestOk sBootAndRoles1 (sBootAndRoles1.rst.bootstat / 64)) = true
      ∧ PortMay sBootAndRoles1 (Fin.ofNat 2 0) false 48 true ∧ romRuns sBootAndRoles1 = true
      ∧ sBootAndRoles1.rst.recovery = false ∧ sBootAndRoles1.prt.err = false ∧ (brCurrent sBootAndRoles1).1.active = 0
      ∧ brState (brCurrent sBootAndRoles1).1 0 = 255 ∧ brTries (brCurrent sBootAndRoles1).1 0 < 3)
    ∧ (romRuns sBootAndRoles6 = true ∧ sBootAndRoles6.rst.recovery = false ∧ (brCurrent sBootAndRoles6).1.st = (0, 0)
      ∧ sBootAndRoles6.prt.err = false ∧ (brCurrent sBootAndRoles6).1.active = 0
      ∧ brState (brCurrent sBootAndRoles6).1 0 = 0 ∧ brState (brCurrent sBootAndRoles6).1 (1 - 0) = 0)
    ∧ (domOn sBootAndRoles2 (engDom 1) = true ∧ sBootAndRoles2.eng[1].run = EngRun.loading
      ∧ (roleSecs sBootAndRoles2 (sBootAndRoles2.rst.bootstat / 64) sBootAndRoles2.eng[1].role).all (digestOk sBootAndRoles2 (sBootAndRoles2.rst.bootstat / 64)) = false)
    ∧ (romRuns sBootAndRoles3 = true ∧ sBootAndRoles3.rst.recovery = false ∧ sBootAndRoles3.prt.err = false
      ∧ (brCurrent sBootAndRoles3).1.active = 0 ∧ brState (brCurrent sBootAndRoles3).1 0 = 90)
    ∧ (romRuns sBootAndRoles7 = true ∧ sBootAndRoles7.rst.recovery = false ∧ sBootAndRoles7.prt.err = false
      ∧ (brCurrent sBootAndRoles7).1.active = 0 ∧ brState (brCurrent sBootAndRoles7).1 0 = 0
      ∧ brState (brCurrent sBootAndRoles7).1 (1 - 0) = 90) := by
  constructorm* _ ∧ _ <;> decide +kernel

theorem witness_BootAndRoles_2 :
    (romRuns sBootAndRoles8 = true ∧ sBootAndRoles8.rst.recovery = false ∧ sBootAndRoles8.prt.err = false
      ∧ (brCurrent sBootAndRoles8).1.active = 0 ∧ brState (brCurrent sBootAndRoles8).1 0 = 0
      ∧ brState (brCurrent sBootAndRoles8).1 (1 - 0) = 255 ∧ 3 ≤ brTries (brCurrent sBootAndRoles8).1 (1 - 0))
    ∧ (romRuns sBootAndRoles9 = true ∧ sBootAndRoles9.rst.recovery = false ∧ sBootAndRoles9.prt.err = false
      ∧ (brCurrent sBootAndRoles9).1.active = 0 ∧ brState (brCurrent sBootAndRoles9).1 0 = 0
      ∧ brState (brCurrent sBootAndRoles9).1 (1 - 0) = 255 ∧ brTries (brCurrent sBootAndRoles9).1 (1 - 0) < 3)
    ∧ (romRuns sBootAndRoles10 = true ∧ sBootAndRoles10.rst.recovery = false ∧ sBootAndRoles10.prt.err = false
      ∧ (brCurrent sBootAndRoles10).1.active = 0 ∧ brState (brCurrent sBootAndRoles10).1 0 = 255
      ∧ 3 ≤ brTries (brCurrent sBootAndRoles10).1 0
      ∧ brState (brCurrent (brUpdate (brBad 0 (brCurrent sBootAndRoles10).1) sBootAndRoles10)).1 (1 - 0) = 0)
    ∧ (romRuns sBootAndRoles15 = true ∧ sBootAndRoles15.rst.recovery = false ∧ sBootAndRoles15.prt.err = false
      ∧ (brCurrent sBootAndRoles15).1.active = 0 ∧ brState (brCurrent sBootAndRoles15).1 0 = 255
      ∧ 3 ≤ brTries (brCurrent sBootAndRoles15).1 0
      ∧ brState (brCurrent (brUpdate (brBad 0 (brCurrent sBootAndRoles15).1) sBootAndRoles15)).1 (1 - 0) = 90)
    ∧ (romRuns sBootAndRoles16 = true ∧ sBootAndRoles16.rst.recovery = false ∧ sBootAndRoles16.prt.err = false
      ∧ (brCurrent sBootAndRoles16).1.active = 0 ∧ brState (brCurrent sBootAndRoles16).1 0 = 255
      ∧ 3 ≤ brTries (brCurrent sBootAndRoles16).1 0
      ∧ brState (brCurrent (brUpdate (brBad 0 (brCurrent sBootAndRoles16).1) sBootAndRoles16)).1 (1 - 0) = 255
      ∧ 3 ≤ brTries (brCurrent (brUpdate (brBad 0 (brCurrent sBootAndRoles16).1) sBootAndRoles16)).1 (1 - 0)) := by
  constructorm* _ ∧ _ <;> decide +kernel

theorem witness_BootAndRoles_3 :
    romRuns sBootAndRoles17 = true ∧ sBootAndRoles17.rst.recovery = false ∧ sBootAndRoles17.prt.err = false
      ∧ (brCurrent sBootAndRoles17).1.active = 0 ∧ brState (brCurrent sBootAndRoles17).1 0 = 255
      ∧ 3 ≤ brTries (brCurrent sBootAndRoles17).1 0
      ∧ brState (brCurrent (brUpdate (brBad 0 (brCurrent sBootAndRoles17).1) sBootAndRoles17)).1 (1 - 0) = 255
      ∧ brTries (brCurrent (brUpdate (brBad 0 (brCurrent sBootAndRoles17).1) sBootAndRoles17)).1 (1 - 0) < 3 := by
  decide +kernel

theorem witness_ModeRequests :
    (sModeRequests4.dct.phase = DctPhase.idle ∧ EngMay sModeRequests4 0 0x1804 true ∧ sModeRequests4.dct.mode = Mode.run
      ∧ (sModeRequests4.dct.mode = Mode.run ∨ sModeRequests4.dct.mode = Mode.watch)
      ∧ PortMay sModeRequests4 0 true 0x16 true ∧ EngMay sModeRequests4 0 0x1807 true ∧ (¬(4 ≤ 3 ∧ 3 ≤ 6)))
    ∧ (sModeRequests5.dct.mode ≠ Mode.ship
      ∧ (sModeRequests5.dct.phase = DctPhase.committed ∨ sModeRequests5.dct.phase = DctPhase.waking)
      ∧ EngMay sModeRequests5 0 0x1804 true ∧ PortMay sModeRequests5 0 false 0x16 true)
    ∧ (sModeRequests2.dct.phase = DctPhase.idle ∧ EngMay sModeRequests2 0 0x1804 true
      ∧ sModeRequests2.dct.mode = Mode.watch ∧ sModeRequests2.dct.wakes = 0 ∧ PortMay sModeRequests2 0 true 0x16 true)
    ∧ (sModeRequests7.dct.mode ≠ Mode.ship
      ∧ (sModeRequests7.dct.phase = DctPhase.notice ∨ sModeRequests7.dct.phase = DctPhase.gather)
      ∧ sModeRequests7.dct.mode = Mode.run ∧ sModeRequests7.dct.heldDom = none ∧ EngMay sModeRequests7 0 0x1804 true
      ∧ PortMay sModeRequests7 0 true 0x16 true)
    ∧ (sModeRequests1.dct.phase = DctPhase.idle ∧ EngMay sModeRequests1 0 0x1807 true ∧ sModeRequests1.dct.mode = Mode.run
      ∧ domOn sModeRequests1 (5) = true) := by
  constructorm* _ ∧ _ <;> decide +kernel

theorem witness_ModeRequests_2 :
    sModeRequests3.dct.phase = DctPhase.idle ∧ EngMay sModeRequests3 0 0x1807 true ∧ sModeRequests3.dct.mode = Mode.run
      ∧ domOn sModeRequests3 (5) = false := by
  decide +kernel

theorem witness_ModeEntries :
    (ckRuns sModeEntries1 = true ∧ sModeEntries1.dct.phase = DctPhase.notice)
    ∧ (ckRuns sModeEntries2 = true ∧ sModeEntries2.dct.phase = DctPhase.gather ∧ sModeEntries2.dct.cur = some wreq
      ∧ sModeEntries2.dct.dom = none ∧ entryFails sModeEntries2 true true = none)
    ∧ (ckRuns sModeEntries6 = true ∧ sModeEntries6.dct.phase = DctPhase.committed ∧ sModeEntries6.dct.dom = none
      ∧ Option.map DctReq.tgt sModeEntries6.dct.cur = some 1 ∧ sModeEntries6.clk.ckPll = false
      ∧ sModeEntries6.dct.held = none ∧ sModeEntries6.dct.heldDom = none ∧ portUp sModeEntries6 = false)
    ∧ (ckRuns sModeEntries7 = true ∧ sModeEntries7.dct.phase = DctPhase.committed ∧ sModeEntries7.dct.dom = none
      ∧ Option.map DctReq.tgt sModeEntries7.dct.cur = some 2 ∧ fbPend sModeEntries7 = 0)
    ∧ (sModeEntries8.dct.mode = Mode.ship ∧ (dctLive sModeEntries8 0x1D).testBit 0 = true) := by
  constructorm* _ ∧ _ <;> decide +kernel

theorem witness_ModeEntries_2 :
    (sModeEntries9.dct.mode = Mode.ship ∧ (dctLive sModeEntries9 0x1D).testBit 1 = false)
    ∧ (ckRuns sModeEntries13 = true ∧ sModeEntries13.dct.mode = Mode.run ∧ sModeEntries13.dct.phase = DctPhase.gather
      ∧ sModeEntries13.dct.dom = none ∧ sModeEntries13.dct.cur = some wreq ∧ sModeEntries13.dct.held = none
      ∧ sModeEntries13.dct.heldDom = none ∧ entryFails sModeEntries13 true true = some (4, 2, 0))
    ∧ fbPend sModeEntries15 ≠ 0 := by
  decide +kernel

theorem witness_ModeEntries_3 :
    (ckRuns sModeEntries16 = true ∧ sModeEntries16.dct.phase = .notice ∧ sModeEntries16.dct.cur = some wreq ∧ sModeEntries16.dct.dom = none
      ∧ sModeEntries16.dct.held = none ∧ sModeEntries16.dct.heldDom = none ∧ sModeEntries16.dct.mode = .run ∧ entryFails sModeEntries16 true true = some (4, 2, 0))
    ∧ (ckRuns sModeEntries17 = true ∧ sModeEntries17.dct.phase = .gather ∧ sModeEntries17.dct.cur = some sreq ∧ sModeEntries17.dct.mode = .watch
      ∧ sModeEntries17.dct.held = none ∧ sModeEntries17.dct.heldDom = none ∧ domOn sModeEntries17 7 = true ∧ entryFails sModeEntries17 true true = some (2, 2, 0))
    ∧ (ckRuns sModeEntries18 = true ∧ sModeEntries18.dct.phase = .gather ∧ sModeEntries18.dct.dom = some 5 ∧ sModeEntries18.dct.mode = .run
      ∧ sModeEntries18.dct.cur = some { tgt := 0, by_ := 0 } ∧ sModeEntries18.dct.held = none ∧ sModeEntries18.dct.heldDom = none
      ∧ entryFails sModeEntries18 true true = some (5, 2, 0))
    ∧ (ckRuns sModeEntries19 = true ∧ sModeEntries19.dct.phase = .gather ∧ sModeEntries19.dct.dom = some 4 ∧ sModeEntries19.dct.mode = .run
      ∧ sModeEntries19.dct.cur = some { tgt := 0, by_ := 0 } ∧ sModeEntries19.dct.held = none ∧ sModeEntries19.dct.heldDom = none
      ∧ entryFails sModeEntries19 true true = none ∧ domOn sModeEntries19 4 = true ∧ engDom (3 : Fin 6).val = 4) := by
  decide +kernel

theorem witness_ModeEntries_4 :
    (ckRuns sModeEntries20 = true ∧ sModeEntries20.dct.phase = .committed ∧ sModeEntries20.dct.dom = none
      ∧ Option.map DctReq.tgt sModeEntries20.dct.cur = some 1 ∧ sModeEntries20.clk.ckPll = false ∧ sModeEntries20.dct.held = none
      ∧ sModeEntries20.dct.heldDom = none ∧ domOn sModeEntries20 7 = false ∧ portUp sModeEntries20 = true ∧ sModeEntries20.fbk.ring.length < 256
      ∧ sModeEntries20.fbk.drops = 0 ∧ sModeEntries20.svy.svfsel = 0)
    ∧ (ckRuns sModeEntries21 = true ∧ sModeEntries21.dct.phase = .notice ∧ sModeEntries21.dct.dom = none
      ∧ Option.map DctReq.tgt sModeEntries21.dct.cur = some 2 ∧ dctLive sModeEntries21 0x1D = 5 ∧ sModeEntries21.fbk.ring.length < 256
      ∧ sModeEntries21.fbk.drops = 0 ∧ sModeEntries21.svy.svfsel = 0) := by
  decide +kernel

theorem witness_Wakes :
    (ckRuns sWakes6 = true ∧ sWakes6.dct.mode = Mode.watch ∧ sWakes6.dct.wakes ≠ 0 ∧ sWakes6.dct.phase = DctPhase.idle
      ∧ (dctLive sWakes6 0x34).testBit 10 = true ∧ domOn sWakes6 7 = true ∧ portUp sWakes6 = false
      ∧ (∀ r ∈ sWakes6.cpy.run, r.j < 8))
    ∧ (ckRuns sWakes1 = true ∧ sWakes1.dct.phase = DctPhase.waking ∧ sWakes1.dct.up = [4] ∧ sWakes1.dct.stage < 3
      ∧ sWakes1.dct.mode ≠ Mode.watch)
    ∧ (ckRuns sWakes13 = true ∧ sWakes13.dct.phase = DctPhase.waking ∧ sWakes13.dct.up = [4] ∧ sWakes13.dct.d7 = some 2
      ∧ 7 ∉ sWakes13.dct.up ∧ sWakes13.dct.mode = Mode.watch ∧ sWakes13.dct.wakes ≠ 0)
    ∧ (ckRuns sWakes14 = true ∧ sWakes14.dct.d7 = some 3 ∧ sWakes14.dct.phase ≠ DctPhase.waking)
    ∧ (ckRuns sWakes15 = true ∧ sWakes15.dct.mode = Mode.watch ∧ sWakes15.dct.wakes ≠ 0 ∧ sWakes15.dct.phase = DctPhase.gather
      ∧ domOn sWakes15 7 = true ∧ portUp sWakes15 = false ∧ (∀ r ∈ sWakes15.cpy.run, r.j < 8))
    ∧ (ckRuns sWakes16 = true ∧ sWakes16.hp[0].powered = false ∧ sWakes16.rst.recovery = false ∧ sWakes16.dct.mode = Mode.watch
      ∧ domOn sWakes16 7 = false ∧ sWakes16.dct.d7 = none ∧ ¬ (sWakes16.dct.phase = DctPhase.waking ∧ 7 ∈ sWakes16.dct.up))
    ∧ (ckRuns sWakes2 = true ∧ sWakes2.dct.phase = DctPhase.waking ∧ sWakes2.dct.up = [4] ∧ sWakes2.dct.stage = 3
      ∧ sWakes2.dct.dom = some 4 ∧ sWakes2.dct.cur = some { tgt := 4, by_ := 0 } ∧ sWakes2.dct.held = none
      ∧ sWakes2.dct.heldDom = none ∧ sWakes2.dct.mode = Mode.run)
    ∧ (ckRuns sWakes3 = true ∧ sWakes3.dct.phase = DctPhase.waking ∧ sWakes3.dct.up = [7, 4] ∧ sWakes3.dct.stage = 3
      ∧ sWakes3.dct.dom = none) := by
  constructorm* _ ∧ _ <;> decide +kernel

theorem witness_Wakes_2 :
    ckRuns sWakes10 = true ∧ wakeReady sWakes10 = true ∧ sWakes10.clk.lock = false ∧ sWakes10.dct.held = none
      ∧ sWakes10.dct.heldDom = none := by
  decide +kernel

theorem witness_BenchmarkBlock :
    (EngMay sBenchmarkBlock1 0 0x2008 true ∧ planCode sBenchmarkBlock1 1 (itemStep sBenchmarkBlock1 1 + 1) = 0
      ∧ planCode sBenchmarkBlock1 1 (itemStep sBenchmarkBlock1 1 - 1) = 0 ∧ EngMay sBenchmarkBlock1 0 0x2004 true
      ∧ EngMay sBenchmarkBlock1 0 0x200C true ∧ ckRuns sBenchmarkBlock1 = true ∧ domOn sBenchmarkBlock1 2 = true
      ∧ sBenchmarkBlock1.bmk.monen = true ∧ sBenchmarkBlock1.dct.mode = Mode.run ∧ sBenchmarkBlock1.bmk.runMs < 60000)
    ∧ (EngMay sBenchmarkBlock2 0 0x2008 true ∧ planCode sBenchmarkBlock2 0 (itemStep sBenchmarkBlock2 0 + 1) = 1
      ∧ planCode sBenchmarkBlock2 0 (itemStep sBenchmarkBlock2 0 - 1) = 1) := by
  decide +kernel

theorem witness_CommitAndApply :
    (EngMay sCommitAndApply8 0 (blkBase SBlk.chg + 1) true ∧ commitCheck SBlk.chg sCommitAndApply8 = 4
      ∧ ckRuns sCommitAndApply8 = true ∧ (stgOf SBlk.chg sCommitAndApply8).pnd = some [(32, 1), (41, 6), (96, 2)]
      ∧ domOn sCommitAndApply8 (blkDom SBlk.chg) = true
      ∧ (SBlk.chg = SBlk.dct ∨ SBlk.chg = SBlk.bmk ∨ SBlk.chg = SBlk.ksc ∧ sCommitAndApply8.ksc.fr = FramePos.start ∨ SBlk.chg = SBlk.lgt ∧ sCommitAndApply8.lgt.atB = true ∨ SBlk.chg = SBlk.seq ∧ sCommitAndApply8.seq.kind = SeqKind.idle ∨ SBlk.chg = SBlk.chg ∧ sCommitAndApply8.dct.mode = Mode.watch ∧ sCommitAndApply8.chg.mode = 0 ∨ SBlk.chg = SBlk.tha ∧ sCommitAndApply8.tha.en = true ∧ sCommitAndApply8.tha.anOn = 0 ∧ sCommitAndApply8.tha.sensor = none)
      ∧ domOn sCommitAndApply8 1 = true)
    ∧ (EngMay sCommitAndApply10 0 (blkBase SBlk.tha + 1) true ∧ commitCheck SBlk.tha sCommitAndApply10 = 0
      ∧ domOn sCommitAndApply10 2 = true ∧ sCommitAndApply10.tha.en = true
      ∧ (stgOf SBlk.tha sCommitAndApply10).pnd = some [(32, 1), (41, 6), (96, 2)])
    ∧ (ckRuns sCommitAndApply11 = true ∧ (stgOf SBlk.cpy sCommitAndApply11).pnd = some [(32, 1), (41, 6), (96, 2)]
      ∧ domOn sCommitAndApply11 7 = true ∧ spWf (fun _ => 0) [(32, 1), (41, 6), (96, 2)] = true) := by
  constructorm* _ ∧ _ <;> decide +kernel

theorem witness_KeySamples :
    (domOn sKeySamples1 5 = true ∧ sampleLine sKeySamples1 = some 0)
    ∧ (domOn sKeySamples5 5 = true ∧ sampleLine sKeySamples5 = some 0 ∧ domOn sKeySamples5 6 = true ∧ sKeySamples5.dct.mode = .run
      ∧ sKeySamples5.ksc.fifo.length = 16 ∧ sKeySamples5.ksc.ovf = false ∧ sKeySamples5.fbk.ring.length < 256 ∧ sKeySamples5.fbk.drops = 0
      ∧ sKeySamples5.svy.svfsel = 0 ∧ lgtLive sKeySamples5 0x20002 = 7)
    ∧ (ckRuns sKeySamples6 = true ∧ sKeySamples6.dct.mode = .run ∧ sKeySamples6.dct.phase = .gather ∧ sKeySamples6.dct.dom = some 5
      ∧ domOn sKeySamples6 5 = true ∧ domOn sKeySamples6 6 = true ∧ entryFails sKeySamples6 true true = none ∧ sKeySamples6.dct.held = none
      ∧ sKeySamples6.dct.heldDom = none ∧ sKeySamples6.lgb.keys.lit = 7)
    ∧ (domOn sKeySamples4 5 = false ∨ sampleLine sKeySamples4 = none) := by
  decide +kernel

theorem witness_ScanAndSounding :
    (EngMay sScanAndSounding1 0 0x0404 true
      ∧ (sScanAndSounding1.ksc.scanen = true → sScanAndSounding1.ksc.scanning = true) ∧ sScanAndSounding1.ksc.run = none
      ∧ sScanAndSounding1.ksc.scanning = false ∧ domOn sScanAndSounding1 5 = true ∧ sScanAndSounding1.dct.mode = Mode.run
      ∧ kscLive sScanAndSounding1 0x18 ≠ 0)
    ∧ (domOn sScanAndSounding2 5 = true ∧ sScanAndSounding2.ksc.fr = FramePos.start ∧ sScanAndSounding2.ksc.slow = false
      ∧ sScanAndSounding2.ksc.scanen = true ∧ sScanAndSounding2.dct.mode = Mode.run ∧ sScanAndSounding2.clk.ckPll = true
      ∧ sScanAndSounding2.clk.prep = false ∧ sScanAndSounding2.ksc.run = none
      ∧ (sScanAndSounding2.ksc.sndReq = true ∨ sScanAndSounding2.ksc.sndFirst = true))
    ∧ (domOn sScanAndSounding3 5 = true ∧ sScanAndSounding3.ksc.fr = FramePos.start
      ∧ sScanAndSounding3.ksc.run = some { first := false, left := 0 } ∧ sScanAndSounding3.dct.mode = Mode.run)
    ∧ (domOn sScanAndSounding4 5 = true ∧ sScanAndSounding4.ksc.scanning = true ∧ sScanAndSounding4.ksc.scanen = false
      ∧ sScanAndSounding4.ksc.fr = FramePos.idle)
    ∧ (domOn sScanAndSounding6 5 = true ∧ sScanAndSounding6.ksc.scanning = true ∧ sScanAndSounding6.ksc.scanen = false
      ∧ sScanAndSounding6.ksc.fr = FramePos.start ∧ scanLines sScanAndSounding6 ≠ [])
    ∧ (domOn sScanAndSounding7 5 = true ∧ sScanAndSounding7.ksc.scanning = true ∧ sScanAndSounding7.ksc.scanen = false
      ∧ sScanAndSounding7.ksc.fr = FramePos.start ∧ scanLines sScanAndSounding7 = [])
    ∧ (EngMay sScanAndSounding8 0 0x404 true ∧ sScanAndSounding8.ksc.scanning = true ∧ sScanAndSounding8.ksc.scanen = false
      ∧ sScanAndSounding8.dct.phase = DctPhase.gather ∧ sScanAndSounding8.dct.dom = some 5)
    ∧ (domOn sScanAndSounding9 5 = true ∧ sScanAndSounding9.ksc.fr = FramePos.idle ∧ sScanAndSounding9.ksc.resolving = true
      ∧ sScanAndSounding9.ksc.run = some { first := false, left := 0 } ∧ sScanAndSounding9.dct.mode = Mode.run)
    ∧ (domOn sScanAndSounding5 5 = true ∧ sScanAndSounding5.dct.mode = Mode.watch ∧ sScanAndSounding5.ksc.scanen = true
      ∧ sScanAndSounding5.ksc.scanning = true ∧ sScanAndSounding5.ksc.fr = FramePos.idle
      ∧ sScanAndSounding5.clk.prep = false) := by
  constructorm* _ ∧ _ <;> decide +kernel

theorem witness_EncodersAndKeyReads :
    (sEncodersAndKeyReads2.gpio.viok = true ∧ domOn sEncodersAndKeyReads2 5 = true
      ∧ sEncodersAndKeyReads2.ksc.encctl.testBit 1 = true ∧ EngMay sEncodersAndKeyReads2 0 0x043C true
      ∧ PortMay sEncodersAndKeyReads2 0 false 0x0B false ∧ EngMay sEncodersAndKeyReads2 0 (1072 + 2 * 1) false
      ∧ EngMay sEncodersAndKeyReads2 0 (1073 + 2 * 1) false ∧ EngMay sEncodersAndKeyReads2 0 0x0439 false
      ∧ PortMay sEncodersAndKeyReads2 0 false 0x06 true ∧ sEncodersAndKeyReads2.hp[0].sel.keysel < 4096
      ∧ sEncodersAndKeyReads2.hp[0].sel.keysel % 32 < 30 ∧ fld sEncodersAndKeyReads2.hp[0].sel.keysel 9 8 ≠ 3
      ∧ sEncodersAndKeyReads2.hp[0].sel.keysel.testBit 7 = false ∧ PortMay sEncodersAndKeyReads2 0 false 0x07 false
      ∧ PortMay sEncodersAndKeyReads2 0 false 0x09 false ∧ EngMay sEncodersAndKeyReads2 0 0x042B false
      ∧ EngMay sEncodersAndKeyReads2 0 0x042C false ∧ sEncodersAndKeyReads2.ksc.fifo = [{ seq := 1, typ := 2, pos := 3 }]
      ∧ EngMay sEncodersAndKeyReads2 0 0x041C false ∧ sEncodersAndKeyReads2.ksc.katlsel < 480
      ∧ EngMay sEncodersAndKeyReads2 0 0x041C true)
    ∧ (sEncodersAndKeyReads1.gpio.viok = true ∧ domOn sEncodersAndKeyReads1 5 = true
      ∧ sEncodersAndKeyReads1.ksc.encctl.testBit 1 = false)
    ∧ (sEncodersAndKeyReads3.gpio.viok = true ∧ domOn sEncodersAndKeyReads3 5 = true
      ∧ sEncodersAndKeyReads3.ksc.encctl.testBit 1 = true
      ∧ quadStep sEncodersAndKeyReads3.ksc.enc[1].a sEncodersAndKeyReads3.ksc.enc[1].b true true = none) := by
  constructorm* _ ∧ _ <;> decide +kernel

theorem witness_LightingFrames :
    (domOn sLightingFrames1 6 = true ∧ sLightingFrames1.lgt.running = true ∧ sLightingFrames1.lgt.atB = false
      ∧ padsOn sLightingFrames1 = true ∧ slotRuns sLightingFrames1 = true ∧ sLightingFrames1.gpio.lsgv = true
      ∧ lgtLive sLightingFrames1 0x13 ≤ lgtLive sLightingFrames1 0x11 ∧ 3 < lgtLive sLightingFrames1 0x11
      ∧ EngMay sLightingFrames1 0 0x0804 true ∧ EngMay sLightingFrames1 0 0x0805 true ∧ sLightingFrames1.lgb.swap = none
      ∧ PortMay sLightingFrames1 0 false 0x22 true)
    ∧ (domOn sLightingFrames2 6 = true ∧ sLightingFrames2.lgt.running = true ∧ sLightingFrames2.lgt.atB = true
      ∧ sLightingFrames2.lgt.run = true
      ∧ (lgtRole sLightingFrames2 ≠ 2 ∨ sLightingFrames2.lgb.synclost = true ∨ sLightingFrames2.lgt.begins = true)
      ∧ EngMay sLightingFrames2 0 0x0805 true ∧ sLightingFrames2.lgb.swap ≠ none ∧ swapDue sLightingFrames2 = true)
    ∧ (domOn sLightingFrames4 6 = true ∧ sLightingFrames4.lgt.running = true ∧ sLightingFrames4.lgt.atB = true
      ∧ sLightingFrames4.lgt.run = false ∧ sLightingFrames4.lgb.copying = true
      ∧ spWf (fun _ => 0) sLightingFrames4.lgb.front = true ∧ spWf (fun _ => 0) sLightingFrames4.lgb.back = true
      ∧ sLightingFrames4.lgb.copied ≤ 3)
    ∧ (domOn sLightingFrames3 6 = true ∧ EngMay sLightingFrames3 0 0x0804 true ∧ sLightingFrames3.lgt.running = false
      ∧ sLightingFrames3.lgt.run = false ∧ lgtRole sLightingFrames3 ≠ 2)
    ∧ (domOn sLightingFrames22 6 = true ∧ padsOn sLightingFrames22 = true ∧ slotRuns sLightingFrames22 = true
      ∧ (spGet (0, 0) sLightingFrames22.lgt.pulses 0).2 ≤ 4095 ∧ lgtLive sLightingFrames22 0x11 ≤ 90
      ∧ lgtLive sLightingFrames22 0x13 ≤ lgtLive sLightingFrames22 0x11 ∧ 90 < lgtSlot sLightingFrames22) := by
  constructorm* _ ∧ _ <;> decide +kernel

theorem witness_LightingChainAndFaults :
    (domOn sLightingChainAndFaults38 6 = true ∧ spGet (0, 0) sLightingChainAndFaults38.lgb.verdict (4) = (1, 3)
      ∧ lgtLive sLightingChainAndFaults38 0x16 ≤ 3 ∧ spGet 0 sLightingChainAndFaults38.lgb.fault (4) = 0
      ∧ 64 ≤ sLightingChainAndFaults38.lgt.rails[0].lows ∧ EngMay sLightingChainAndFaults38 0 0x0807 true
      ∧ ((lgtLive sLightingChainAndFaults38 (80 + 8 * 0)).testBit 0 = true ∧ (sLightingChainAndFaults38.lgt.run = true ∨ sLightingChainAndFaults38.lgt.running = true) ∧ sLightingChainAndFaults38.lgt.blanked = false ∧ (sLightingChainAndFaults38.lgt.esopen ||| sLightingChainAndFaults38.lgt.esshort ||| sLightingChainAndFaults38.lgt.esOff).testBit 0 = false)
      ∧ EngMay sLightingChainAndFaults38 0 0x0890 true ∧ EngMay sLightingChainAndFaults38 0 0x08A3 true
      ∧ EngMay sLightingChainAndFaults38 0 0x08A4 true ∧ sLightingChainAndFaults38.lgb.lixsel = 4
      ∧ sLightingChainAndFaults38.lgb.lixidx < 1152 ∧ EngMay sLightingChainAndFaults38 0 0x08A3 false
      ∧ EngMay sLightingChainAndFaults38 0 0x08A4 false ∧ EngMay sLightingChainAndFaults38 0 0x0892 true
      ∧ EngMay sLightingChainAndFaults38 0 0x0893 true ∧ fld (lgtLive sLightingChainAndFaults38 0x2B) 1 0 = 2
      ∧ ckRuns sLightingChainAndFaults38 = true ∧ sLightingChainAndFaults38.dct.mode = Mode.run
      ∧ fld (lgtLive sLightingChainAndFaults38 0x2B) 1 0 ≠ 0 ∧ lgtLive sLightingChainAndFaults38 0x2B / 4 ≠ 0
      ∧ sLightingChainAndFaults38.gpio.viom = true)
    ∧ (domOn sLightingChainAndFaults3 6 = true ∧ EngMay sLightingChainAndFaults3 0 0x08A3 true
      ∧ EngMay sLightingChainAndFaults3 0 0x08A4 true ∧ sLightingChainAndFaults3.lgb.lixsel = 0
      ∧ sLightingChainAndFaults3.lgb.lixidx < 1160 ∧ sLightingChainAndFaults3.lgb.swap = none
      ∧ sLightingChainAndFaults3.lgb.copying = false ∧ sLightingChainAndFaults3.gpio.viom = true
      ∧ sLightingChainAndFaults3.lgb.chain.toNat / 2 ^ 40 = 0 ∧ sLightingChainAndFaults3.lgb.chain.toNat % 2 ^ 40 = 327683)
    ∧ (domOn sLightingChainAndFaults16 6 = true ∧ EngMay sLightingChainAndFaults16 0 0x08A3 true
      ∧ EngMay sLightingChainAndFaults16 0 0x08A4 true ∧ sLightingChainAndFaults16.lgb.lixsel = 0
      ∧ 1160 ≤ sLightingChainAndFaults16.lgb.lixidx ∧ sLightingChainAndFaults16.gpio.viom = true
      ∧ lgtRole sLightingChainAndFaults16 = 2 ∧ sLightingChainAndFaults16.lgt.run = true
      ∧ sLightingChainAndFaults16.lgt.running = false ∧ sLightingChainAndFaults16.lgb.swap = none)
    ∧ (domOn sLightingChainAndFaults4 6 = true ∧ sLightingChainAndFaults4.gpio.viom = true
      ∧ (sLightingChainAndFaults4.rst.bootPhase = true ∨ sLightingChainAndFaults4.prt.gflags.testBit 0 = true)
      ∧ sLightingChainAndFaults4.lgb.chain.toNat / 2 ^ 40 = 16 ∧ sLightingChainAndFaults4.lgb.chain.toNat % 2 ^ 40 = 327683
      ∧ sLightingChainAndFaults4.lgb.swap = none)
    ∧ (domOn sLightingChainAndFaults5 6 = true ∧ sLightingChainAndFaults5.gpio.viom = true
      ∧ (sLightingChainAndFaults5.rst.bootPhase = true ∨ sLightingChainAndFaults5.prt.gflags.testBit 0 = true)
      ∧ sLightingChainAndFaults5.lgb.chain.toNat / 2 ^ 40 = 17 ∧ sLightingChainAndFaults5.lgb.chain.toNat % 2 ^ 40 = 196611
      ∧ sLightingChainAndFaults5.lgb.swap = none ∧ spWf (fun _ => 0) sLightingChainAndFaults5.lgb.back = true) := by
  constructorm* _ ∧ _ <;> decide +kernel

theorem witness_LightingChainAndFaults_2 :
    (domOn sLightingChainAndFaults7 6 = true ∧ sLightingChainAndFaults7.gpio.viom = true
      ∧ (sLightingChainAndFaults7.rst.bootPhase = true ∨ sLightingChainAndFaults7.prt.gflags.testBit 0 = true)
      ∧ sLightingChainAndFaults7.lgb.chain.toNat / 2 ^ 40 = 32 ∧ sLightingChainAndFaults7.lgb.chain.toNat % 2 ^ 40 = 327683
      ∧ sLightingChainAndFaults7.lgb.swap = none)
    ∧ (domOn sLightingChainAndFaults8 6 = true ∧ sLightingChainAndFaults8.gpio.viom = true
      ∧ (sLightingChainAndFaults8.rst.bootPhase = true ∨ sLightingChainAndFaults8.prt.gflags.testBit 0 = true)
      ∧ sLightingChainAndFaults8.lgb.chain.toNat / 2 ^ 40 = 33 ∧ sLightingChainAndFaults8.lgb.chain.toNat % 2 ^ 40 = 327683)
    ∧ (domOn sLightingChainAndFaults9 6 = true ∧ sLightingChainAndFaults9.gpio.viom = true
      ∧ (sLightingChainAndFaults9.rst.bootPhase = true ∨ sLightingChainAndFaults9.prt.gflags.testBit 0 = true)
      ∧ sLightingChainAndFaults9.lgb.chain.toNat / 2 ^ 40 = 34 ∧ sLightingChainAndFaults9.lgb.chain.toNat % 2 ^ 40 = 327683)
    ∧ (domOn sLightingChainAndFaults12 6 = true ∧ sLightingChainAndFaults12.gpio.viom = true
      ∧ (sLightingChainAndFaults12.rst.bootPhase = true ∨ sLightingChainAndFaults12.prt.gflags.testBit 0 = true)
      ∧ sLightingChainAndFaults12.lgb.chain.toNat / 2 ^ 40 = 48 ∧ sLightingChainAndFaults12.lgb.chain.toNat % 2 ^ 40 = 327747
      ∧ sLightingChainAndFaults12.lgt.running = false)
    ∧ (domOn sLightingChainAndFaults13 6 = true ∧ sLightingChainAndFaults13.gpio.viom = true
      ∧ (sLightingChainAndFaults13.rst.bootPhase = true ∨ sLightingChainAndFaults13.prt.gflags.testBit 0 = true)
      ∧ sLightingChainAndFaults13.lgb.chain.toNat / 2 ^ 40 = 64 ∧ sLightingChainAndFaults13.lgb.chain.toNat % 2 ^ 40 = 16) := by
  constructorm* _ ∧ _ <;> decide +kernel

theorem witness_LightingChainAndFaults_3 :
    (domOn sLightingChainAndFaults14 6 = true ∧ sLightingChainAndFaults14.gpio.viom = true
      ∧ (sLightingChainAndFaults14.rst.bootPhase = true ∨ sLightingChainAndFaults14.prt.gflags.testBit 0 = true)
      ∧ sLightingChainAndFaults14.lgb.chain.toNat / 2 ^ 40 = 119 ∧ sLightingChainAndFaults14.lgb.chain.toNat % 2 ^ 40 = 16
      ∧ 119 ∉ chainCodes)
    ∧ (domOn sLightingChainAndFaults15 6 = true ∧ sLightingChainAndFaults15.gpio.viom = true
      ∧ (¬(sLightingChainAndFaults15.rst.bootPhase = true ∨ sLightingChainAndFaults15.prt.gflags.testBit 0 = true))
      ∧ sLightingChainAndFaults15.lgb.chain.toNat / 2 ^ 40 = 16 ∧ sLightingChainAndFaults15.lgb.chain.toNat % 2 ^ 40 = 16)
    ∧ (domOn sLightingChainAndFaults17 6 = true ∧ sLightingChainAndFaults17.gpio.viom = true
      ∧ lgtRole sLightingChainAndFaults17 = 2 ∧ sLightingChainAndFaults17.lgt.run = true
      ∧ sLightingChainAndFaults17.lgt.running = true ∧ sLightingChainAndFaults17.lgb.synclost = true ∧ |(1 : Int)| ≤ 2)
    ∧ (domOn sLightingChainAndFaults19 6 = true ∧ lgtRole sLightingChainAndFaults19 = 2
      ∧ sLightingChainAndFaults19.lgt.running = true ∧ sLightingChainAndFaults19.lgb.synclost = false)
    ∧ (domOn sLightingChainAndFaults45 6 = true ∧ sLightingChainAndFaults45.gpio.viom = true
      ∧ lgtRole sLightingChainAndFaults45 = 2 ∧ sLightingChainAndFaults45.lgt.run = false
      ∧ sLightingChainAndFaults45.lgb.swap = none) := by
  constructorm* _ ∧ _ <;> decide +kernel

theorem witness_ChargerPeriods :
    (domOn sChargerPeriods7 1 = true ∧ sChargerPeriods7.chg.rb = 0 ∧ sChargerPeriods7.chg.rbStop = 0
      ∧ sChargerPeriods7.chg.en = true
      ∧ (sChargerPeriods7.chg.flt.testBit 0 = true ∨ sChargerPeriods7.tha.chgTrip = true)
      ∧ (sChargerPeriods7.chg.rb = 0 ∨ sChargerPeriods7.chg.en = true)
      ∧ (sChargerPeriods7.chg.mode = 0 ∨ sChargerPeriods7.chg.gates ≠ startGates false sChargerPeriods7.chg.mode) ∧ EngMay sChargerPeriods7 0 0x0C04 true)
    ∧ (domOn sChargerPeriods12 1 = true ∧ sChargerPeriods12.chg.rb = 0 ∧ sChargerPeriods12.chg.rbStop = 0
      ∧ sChargerPeriods12.chg.en = false)
    ∧ (domOn sChargerPeriods13 1 = true ∧ sChargerPeriods13.chg.rb = 0 ∧ sChargerPeriods13.chg.rbStop = 0
      ∧ sChargerPeriods13.chg.en = true ∧ sChargerPeriods13.chg.flt.testBit 0 = false
      ∧ sChargerPeriods13.tha.chgTrip = false
      ∧ ((meas 1000).vin < 3300 ∨ 20 * ↑(chgLive (chgTakeSet sChargerPeriods13) 46) < (meas 1000).vin ∨ sChargerPeriods13.chp.blocked = true))
    ∧ (domOn sChargerPeriods16 1 = true ∧ sChargerPeriods16.chg.mode ≠ 0 ∧ sChargerPeriods16.chg.mode ≠ 1 ∧ sChargerPeriods16.chg.gates = 0b1010
      ∧ sChargerPeriods16.chg.rb = 0)
    ∧ (domOn sChargerPeriods17 1 = true ∧ sChargerPeriods17.chg.mode ≠ 0 ∧ sChargerPeriods17.chg.mode ≠ 1 ∧ sChargerPeriods17.chg.gates = 0b0101
      ∧ sChargerPeriods17.chg.rb ≠ 0)
    ∧ (domOn sChargerPeriods18 1 = true ∧ sChargerPeriods18.chg.mode = 1 ∧ sChargerPeriods18.chg.gates = 0b1001 ∧ sChargerPeriods18.chg.rb = 0)
    ∧ (domOn sChargerPeriods19 1 = true ∧ sChargerPeriods19.chg.mode ≠ 0 ∧ sChargerPeriods19.chg.gates ≠ startGates false sChargerPeriods19.chg.mode) := by
  constructorm* _ ∧ _ <;> decide +kernel

theorem witness_ChargerFaults :
    (domOn sChargerFaults1 1 = true ∧ 3 ≤ sChargerFaults1.chp.ntcBad ∧ sChargerFaults1.chg.zone ≠ 7
      ∧ sChargerFaults1.chg.st = 5 ∧ 16 ≤ sChargerFaults1.cht.termCnt ∧ EngMay sChargerFaults1 0 0x0C07 true
      ∧ EngMay sChargerFaults1 0 0x0C08 true ∧ 1 ≤ chgLive sChargerFaults1 0x10 ∧ sChargerFaults1.chg.rb = 0
      ∧ inputValid sChargerFaults1 = false)
    ∧ (domOn sChargerFaults2 1 = true ∧ 3 ≤ sChargerFaults2.chp.ntcGood ∧ sChargerFaults2.chg.zone = 7
      ∧ sChargerFaults2.chg.st = 8)
    ∧ (domOn sChargerFaults7 1 = true ∧ (sChargerFaults7.chg.st = 4 ∨ sChargerFaults7.chg.st = 5)
      ∧ 240 * chgLive sChargerFaults7 0x37 ≤ sChargerFaults7.chg.timer ∧ preExpired sChargerFaults7 = false
      ∧ sChargerFaults7.chg.exp1 = false ∧ 1 ≤ chgLive sChargerFaults7 0x10 ∧ sChargerFaults7.chg.rb ≠ 0)
    ∧ (domOn sChargerFaults4 1 = true ∧ (sChargerFaults4.chg.st = 4 ∨ sChargerFaults4.chg.st = 5)
      ∧ 240 * chgLive sChargerFaults4 0x37 ≤ sChargerFaults4.chg.timer ∧ preExpired sChargerFaults4 = false
      ∧ sChargerFaults4.chg.exp1 = true)
    ∧ (domOn sChargerFaults5 1 = true ∧ sChargerFaults5.chg.st = 4
      ∧ 240 * chgLive sChargerFaults5 0x39 ≤ sChargerFaults5.chg.pre) := by
  constructorm* _ ∧ _ <;> decide +kernel

theorem witness_PowerPath :
    (domOn sPowerPath3 1 = true ∧ sPowerPath3.chp.isol = true ∧ sPowerPath3.chp.remSecond = true
      ∧ secondActive sPowerPath3 = true ∧ sPowerPath3.chp.insPack = none ∧ inputValid sPowerPath3 = true
      ∧ EngMay sPowerPath3 0 0x0C04 true ∧ rbFails sPowerPath3 = 4 ∧ sPowerPath3.chg.rb ≠ 0 ∧ sPowerPath3.chg.rbStop = 0)
    ∧ (domOn sPowerPath2 1 = true ∧ sPowerPath2.chg.rb = 0 ∧ 5000 ≤ 20 * chgLive sPowerPath2 0x2E
      ∧ sPowerPath2.chp.acg = true ∧ sPowerPath2.chp.attached = false
      ∧ (sPowerPath2.chp.acg = true ∨ sPowerPath2.chp.vinOk = true)
      ∧ (sPowerPath2.chp.isol = false ∨ sPowerPath2.chp.insPack.isSome = true)
      ∧ (true = true ∧ (chgLive sPowerPath2 0x3A).testBit 0 = true ∨ false = true ∧ chgLive sPowerPath2 0x3D ≠ 0 ∧ (sPowerPath2.chg.st = 4 ∨ sPowerPath2.chg.st = 5))
      ∧ EngMay sPowerPath2 0 0x0C04 true ∧ rbFails sPowerPath2 = 0)
    ∧ (domOn sPowerPath8 1 = true ∧ sPowerPath8.chp.isol = true ∧ sPowerPath8.chp.insPack = some 5
      ∧ sPowerPath8.chg.rb = 1 ∧ sPowerPath8.chg.st ≠ 13 ∧ sPowerPath8.chp.acg = true)
    ∧ (domOn sPowerPath5 1 = true ∧ sPowerPath5.chp.isol = true ∧ sPowerPath5.chp.insPack = none
      ∧ inputValid sPowerPath5 = false)
    ∧ (domOn sPowerPath13 1 = true ∧ EngMay sPowerPath13 0 0x0C04 true ∧ rbFails sPowerPath13 = 0
      ∧ sPowerPath13.chg.rb ≠ 0) := by
  constructorm* _ ∧ _ <;> decide +kernel

theorem witness_ChargerMeasurements :
    (domOn sChargerMeasurements1 1 = true ∧ EngMay sChargerMeasurements1 0 0x0C04 true
      ∧ sChargerMeasurements1.dct.mode = Mode.run ∧ (sChargerMeasurements1.chg.st = 5 ∨ sChargerMeasurements1.chg.st = 3)
      ∧ 2000 ≤ |sChargerMeasurements1.cht.last.il| ∧ sChargerMeasurements1.cht.lfm = true
      ∧ 16 ≤ sChargerMeasurements1.cht.lossCnt ∧ PortMay sChargerMeasurements1 0 true 0x1C true
      ∧ sChargerMeasurements1.hp[0].sel.chgsel % 64 < 27 ∧ sChargerMeasurements1.hp[0].sel.chgsel.testBit 7 = false
      ∧ sChargerMeasurements1.hp[0].sel.chgsel < 128 ∧ EngMay sChargerMeasurements1 0 0x0C49 false
      ∧ EngMay sChargerMeasurements1 0 0x0C4A false ∧ EngMay sChargerMeasurements1 0 0x0C49 true
      ∧ EngMay sChargerMeasurements1 0 0x0C4A true ∧ sChargerMeasurements1.chs.ctsel < 48)
    ∧ (domOn sChargerMeasurements2 1 = true ∧ EngMay sChargerMeasurements2 0 0x0C49 true
      ∧ EngMay sChargerMeasurements2 0 0x0C4A true ∧ 48 ≤ sChargerMeasurements2.chs.ctsel
      ∧ sChargerMeasurements2.chs.ctsel < 69) := by
  constructorm* _ ∧ _ <;> decide +kernel

theorem witness_PlatformRequests :
    (domOn sPlatformRequests5 2 = true ∧ EngMay sPlatformRequests5 0 0x1007 true
      ∧ sPlatformRequests5.seq.kind = SeqKind.idle
      ∧ (0 = sPlatformRequests5.seq.cur ∨ sPlatformRequests5.seq.en = true ∧ findTraverse sPlatformRequests5 sPlatformRequests5.seq.cur (0) = some 2)
      ∧ 0 ≠ sPlatformRequests5.seq.cur ∧ sPlatformRequests5.seq.en = true
      ∧ findTraverse sPlatformRequests5 sPlatformRequests5.seq.cur (0) = some 2 ∧ sPlatformRequests5.seq.pressed = false
      ∧ (seqLive sPlatformRequests5 0x30).testBit 3 = true
      ∧ (sPlatformRequests5.seq.cur = 3 ∨ sPlatformRequests5.seq.cur = 4 ∨ sPlatformRequests5.seq.cur = 5)
      ∧ findTraverse sPlatformRequests5 sPlatformRequests5.seq.cur 0 = some 2
      ∧ (sPlatformRequests5.gpio.vios && true != (seqLive sPlatformRequests5 0x31).testBit 1) = true
      ∧ sPlatformRequests5.seq.lidOpen = false ∧ (seqLive sPlatformRequests5 0x31).testBit 0 = true
      ∧ sPlatformRequests5.seq.cur = 3 ∧ findTraverse sPlatformRequests5 3 0 = some 2
      ∧ sPlatformRequests5.gpio.vios = true
      ∧ (true != (seqLive sPlatformRequests5 0x33).testBit 1) = true ∧ (sPlatformRequests5.seq.wk.getLsbD 1 != (seqLive sPlatformRequests5 0x33).testBit 1) = false
      ∧ (sPlatformRequests5.seq.kind = SeqKind.idle ∧ ((seqLive sPlatformRequests5 0x32).testBit 1 = true ∧ sPlatformRequests5.seq.cur = 3 ∨ (seqLive sPlatformRequests5 0x32).testBit (4 + 1) = true ∧ (sPlatformRequests5.seq.cur = 4 ∨ sPlatformRequests5.seq.cur = 5))))
    ∧ (domOn sPlatformRequests18 2 = true ∧ sPlatformRequests18.seq.kind = SeqKind.idle ∧ 0 ≠ sPlatformRequests18.seq.cur
      ∧ (sPlatformRequests18.seq.en = false ∨ findTraverse sPlatformRequests18 sPlatformRequests18.seq.cur (0) = none)
      ∧ sPlatformRequests18.seq.pressed = false ∧ (seqLive sPlatformRequests18 0x30).testBit 3 = false
      ∧ (sPlatformRequests18.gpio.vios && true != (seqLive sPlatformRequests18 0x31).testBit 1) ≠ sPlatformRequests18.seq.lidOpen
      ∧ ((sPlatformRequests18.gpio.vios && true != (seqLive sPlatformRequests18 0x31).testBit 1) = false ∨ (seqLive sPlatformRequests18 0x31).testBit 0 = false ∨ sPlatformRequests18.seq.cur ≠ 3 ∨ sPlatformRequests18.seq.kind ≠ SeqKind.idle)
      ∧ sPlatformRequests18.gpio.vios = true
      ∧ (true != (seqLive sPlatformRequests18 0x33).testBit 1) = true ∧ (sPlatformRequests18.seq.wk.getLsbD 1 != (seqLive sPlatformRequests18 0x33).testBit 1) = false
      ∧ (¬(sPlatformRequests18.seq.kind = SeqKind.idle ∧ ((seqLive sPlatformRequests18 0x32).testBit 1 = true ∧ sPlatformRequests18.seq.cur = 3 ∨ (seqLive sPlatformRequests18 0x32).testBit (4 + 1) = true ∧ (sPlatformRequests18.seq.cur = 4 ∨ sPlatformRequests18.seq.cur = 5)))))
    ∧ (domOn sPlatformRequests9 2 = true ∧ EngMay sPlatformRequests9 0 0x1007 true
      ∧ sPlatformRequests9.seq.kind ≠ SeqKind.idle ∧ sPlatformRequests9.seq.en = true
      ∧ sPlatformRequests9.seq.kind = SeqKind.ordinary ∧ sPlatformRequests9.seq.pastcmt = false
      ∧ 3 ≠ thTo (seqLive sPlatformRequests9) sPlatformRequests9.seq.trv
      ∧ (sPlatformRequests9.gpio.vios && false != (seqLive sPlatformRequests9 0x31).testBit 1) = sPlatformRequests9.seq.lidOpen
      ∧ sPlatformRequests9.gpio.vios = true
      ∧ (¬((false != (seqLive sPlatformRequests9 0x33).testBit 1) = true ∧ (sPlatformRequests9.seq.wk.getLsbD 1 != (seqLive sPlatformRequests9 0x33).testBit 1) = false)))
    ∧ (domOn sPlatformRequests6 2 = true ∧ sPlatformRequests6.seq.pressed = true ∧ sPlatformRequests6.seq.longDone = false
      ∧ (seqLive sPlatformRequests6 0x30).testBit 4 = true ∧ sPlatformRequests6.seq.kind = SeqKind.idle
      ∧ sPlatformRequests6.seq.cur ≠ 5 ∧ sPlatformRequests6.seq.en = true
      ∧ findTraverse sPlatformRequests6 sPlatformRequests6.seq.cur 5 = some 4 ∧ sPlatformRequests6.seq.hardDone = false
      ∧ seqLive sPlatformRequests6 0x2F ≠ 0
      ∧ thValid (seqLive sPlatformRequests6) (fld (seqLive sPlatformRequests6 0x30) 2 0) = true
      ∧ thFault (seqLive sPlatformRequests6) (fld (seqLive sPlatformRequests6 0x30) 2 0) = true)
    ∧ (domOn sPlatformRequests2 2 = true ∧ EngMay sPlatformRequests2 0 0x1007 true
      ∧ sPlatformRequests2.seq.kind = SeqKind.idle ∧ 5 = sPlatformRequests2.seq.cur) := by
  constructorm* _ ∧ _ <;> decide +kernel

theorem witness_PlatformRequests_2 :
    (domOn sPlatformRequests7 2 = true ∧ sPlatformRequests7.seq.pressed = true ∧ sPlatformRequests7.seq.longDone = true)
    ∧ (domOn sPlatformRequests10 2 = true ∧ EngMay sPlatformRequests10 0 0x1007 true
      ∧ sPlatformRequests10.seq.kind = SeqKind.ordinary ∧ sPlatformRequests10.seq.pastcmt = false
      ∧ 0 = thTo (seqLive sPlatformRequests10) sPlatformRequests10.seq.trv)
    ∧ (domOn sPlatformRequests11 2 = true ∧ EngMay sPlatformRequests11 0 0x1007 true
      ∧ (sPlatformRequests11.seq.kind = SeqKind.fault ∨ sPlatformRequests11.seq.kind = SeqKind.ordinary ∧ sPlatformRequests11.seq.pastcmt = true)
      ∧ 3 ≠ thTo (seqLive sPlatformRequests11) sPlatformRequests11.seq.trv ∧ sPlatformRequests11.seq.en = true)
    ∧ (domOn sPlatformRequests12 2 = true ∧ EngMay sPlatformRequests12 0 0x1007 true
      ∧ (sPlatformRequests12.seq.kind = SeqKind.fault ∨ sPlatformRequests12.seq.kind = SeqKind.ordinary ∧ sPlatformRequests12.seq.pastcmt = true)
      ∧ 0 = thTo (seqLive sPlatformRequests12) sPlatformRequests12.seq.trv)
    ∧ (domOn sPlatformRequests13 2 = true ∧ EngMay sPlatformRequests13 0 0x1007 true
      ∧ sPlatformRequests13.seq.kind = SeqKind.unwind ∧ sPlatformRequests13.seq.en = true) := by
  constructorm* _ ∧ _ <;> decide +kernel

theorem witness_PlatformRequests_3 :
    (domOn sPlatformRequests23 2 = true ∧ sPlatformRequests23.gpio.vios = false)
    ∧ (domOn sPlatformRequests24 2 = false ∧ sPlatformRequests24.gpio.vios = true) := by
  decide +kernel

theorem witness_TraverseSteps :
    (domOn sTraverseSteps1 2 = true
      ∧ ((sTraverseSteps1.seq.kind = SeqKind.ordinary ∨ sTraverseSteps1.seq.kind = SeqKind.fault) ∧ sTraverseSteps1.seq.waiting = false ∧ seqWord sTraverseSteps1 / 2 ^ 28 = 1)
      ∧ (sTraverseSteps1.seq.kind = SeqKind.idle ∨ sTraverseSteps1.seq.kind = SeqKind.unwind ∨ sTraverseSteps1.seq.waiting = false ∨ (pgin { sTraverseSteps1 with seq := { sTraverseSteps1.seq with pg := 32 } }).testBit (fld (seqWord sTraverseSteps1) 20 16) ≠ (seqWord sTraverseSteps1).testBit 25)
      ∧ spGet 0 sTraverseSteps1.seq.watch 3 = 3 + 1
      ∧ (sTraverseSteps1.seq.kind = SeqKind.idle ∨ sTraverseSteps1.seq.kind = SeqKind.ordinary)
      ∧ (pgin { sTraverseSteps1 with seq := { sTraverseSteps1.seq with pg := 32 } }).testBit 3 = false
      ∧ thValid (seqLive sTraverseSteps1) 3 = true ∧ thFault (seqLive sTraverseSteps1) 3 = true
      ∧ EngMay sTraverseSteps1 0 0x1006 true ∧ (sTraverseSteps1.seq.kind ≠ SeqKind.idle ∨ seqCode (51 % 16) = false)
      ∧ (∀ k < 4, EngMay sTraverseSteps1 0 (4112 + k) true) ∧ (∀ k < 4, EngMay sTraverseSteps1 0 (4194 + k) true)
      ∧ (∀ k < 4, EngMay sTraverseSteps1 0 (4194 + k) false))
    ∧ (domOn sTraverseSteps7 2 = true
      ∧ (sTraverseSteps7.seq.kind = SeqKind.ordinary ∨ sTraverseSteps7.seq.kind = SeqKind.fault)
      ∧ sTraverseSteps7.seq.waiting = true
      ∧ (pgin { sTraverseSteps7 with seq := { sTraverseSteps7.seq with pg := 32 } }).testBit (fld (seqWord sTraverseSteps7) 20 16) = (seqWord sTraverseSteps7).testBit 25
      ∧ sTraverseSteps7.seq.kind = SeqKind.fault)
    ∧ (domOn sTraverseSteps22 2 = true ∧ spGet 0 sTraverseSteps22.seq.watch 3 = 7 + 1
      ∧ (sTraverseSteps22.seq.kind = SeqKind.idle ∨ sTraverseSteps22.seq.kind = SeqKind.ordinary)
      ∧ (pgin { sTraverseSteps22 with seq := { sTraverseSteps22.seq with pg := 32 } }).testBit 3 = false
      ∧ (thValid (seqLive sTraverseSteps22) 7 = false ∨ thFault (seqLive sTraverseSteps22) 7 = false)
      ∧ sTraverseSteps22.seq.queue = none ∧ sTraverseSteps22.seq.cfg.pnd = some [(7, 7)]
      ∧ EngMay sTraverseSteps22 0 0x1006 true ∧ sTraverseSteps22.seq.kind = SeqKind.idle ∧ seqCode (51 % 16) = true)
    ∧ (domOn sTraverseSteps2 2 = true
      ∧ ((sTraverseSteps2.seq.kind = SeqKind.ordinary ∨ sTraverseSteps2.seq.kind = SeqKind.fault) ∧ sTraverseSteps2.seq.waiting = false ∧ seqWord sTraverseSteps2 / 2 ^ 28 = 2))
    ∧ (domOn sTraverseSteps3 2 = true
      ∧ ((sTraverseSteps3.seq.kind = SeqKind.ordinary ∨ sTraverseSteps3.seq.kind = SeqKind.fault) ∧ sTraverseSteps3.seq.waiting = false ∧ seqWord sTraverseSteps3 / 2 ^ 28 = 3)) := by
  constructorm* _ ∧ _ <;> decide +kernel

theorem witness_TraverseSteps_2 :
    (domOn sTraverseSteps4 2 = true
      ∧ ((sTraverseSteps4.seq.kind = SeqKind.ordinary ∨ sTraverseSteps4.seq.kind = SeqKind.fault) ∧ sTraverseSteps4.seq.waiting = false ∧ seqWord sTraverseSteps4 / 2 ^ 28 = 4))
    ∧ (domOn sTraverseSteps6 2 = true ∧ sTraverseSteps6.seq.waiting = true ∧ sTraverseSteps6.seq.kind = SeqKind.ordinary
      ∧ thValid (seqLive sTraverseSteps6) (thFlt (seqLive sTraverseSteps6) sTraverseSteps6.seq.trv) = true
      ∧ thFault (seqLive sTraverseSteps6) (thFlt (seqLive sTraverseSteps6) sTraverseSteps6.seq.trv) = true)
    ∧ (domOn sTraverseSteps8 2 = true
      ∧ ((sTraverseSteps8.seq.kind = SeqKind.ordinary ∨ sTraverseSteps8.seq.kind = SeqKind.fault) ∧ sTraverseSteps8.seq.waiting = false ∧ seqWord sTraverseSteps8 / 2 ^ 28 = 5)
      ∧ spWf (fun _ => 0) sTraverseSteps8.seq.watch = true)
    ∧ (domOn sTraverseSteps10 2 = true
      ∧ ((sTraverseSteps10.seq.kind = SeqKind.ordinary ∨ sTraverseSteps10.seq.kind = SeqKind.fault) ∧ sTraverseSteps10.seq.waiting = false ∧ seqWord sTraverseSteps10 / 2 ^ 28 = 6))
    ∧ (domOn sTraverseSteps11 2 = true
      ∧ ((sTraverseSteps11.seq.kind = SeqKind.ordinary ∨ sTraverseSteps11.seq.kind = SeqKind.fault) ∧ sTraverseSteps11.seq.waiting = false ∧ seqWord sTraverseSteps11 / 2 ^ 28 = 7)) := by
  decide +kernel

theorem witness_TraverseSteps_3 :
    (domOn sTraverseSteps16 2 = true
      ∧ ((sTraverseSteps16.seq.kind = SeqKind.ordinary ∨ sTraverseSteps16.seq.kind = SeqKind.fault) ∧ sTraverseSteps16.seq.waiting = false ∧ seqWord sTraverseSteps16 / 2 ^ 28 = 0)
      ∧ (sTraverseSteps16.seq.queue = none ∨ Option.map SeqReq.tgt sTraverseSteps16.seq.queue = some (thTo (seqLive sTraverseSteps16) sTraverseSteps16.seq.trv)))
    ∧ (domOn sTraverseSteps18 2 = true ∧ sTraverseSteps18.seq.kind = SeqKind.unwind
      ∧ sTraverseSteps18.seq.undo = [{ step := 1, mask := 23040, old := 4294905855 }]
      ∧ (seqLive sTraverseSteps18 (65536 + 64 * sTraverseSteps18.seq.trv + 1) / 2 ^ 28 = 1 ∨ seqLive sTraverseSteps18 (65536 + 64 * sTraverseSteps18.seq.trv + 1) / 2 ^ 28 = 2))
    ∧ (domOn sTraverseSteps19 2 = true ∧ sTraverseSteps19.seq.kind = SeqKind.unwind ∧ sTraverseSteps19.seq.undo = []
      ∧ sTraverseSteps19.seq.waiting = false
      ∧ (sTraverseSteps19.seq.pend = none ∨ Option.map SeqReq.tgt sTraverseSteps19.seq.pend = some sTraverseSteps19.seq.cur)) := by
  decide +kernel

theorem witness_ThermalReadings :
    (domOn sThermalReadings3 2 = true ∧ EngMay sThermalReadings3 0 0x1404 true ∧ sThermalReadings3.tha.en = true
      ∧ sThermalReadings3.tha.cfg.pnd = none ∧ bitsOf 16 sThermalReadings3.tha.anOn = []
      ∧ sThermalReadings3.tha.sensor = some 2 ∧ 2 ≤ sThermalReadings3.thd.sens[2].faults
      ∧ sThermalReadings3.thd.sens[2].fault = false
      ∧ PortMay sThermalReadings3 0 true 0x1F true ∧ sThermalReadings3.hp[0].sel.thermsel = 25 + 1
      ∧ thaLive sThermalReadings3 0x4C ≠ 0 ∧ sThermalReadings3.thd.vt[1].valid = true)
    ∧ (domOn sThermalReadings4 2 = true ∧ sThermalReadings4.tha.en = false)
    ∧ (domOn sThermalReadings1 2 = true ∧ sThermalReadings1.tha.en = true ∧ bitsOf 16 sThermalReadings1.tha.anOn ≠ []) := by
  constructorm* _ ∧ _ <;> decide +kernel

theorem witness_TripsAndFans :
    (domOn sTripsAndFans1 2 = true ∧ tripEn sTripsAndFans1 0 = true ∧ sTripsAndFans1.tha.tract.testBit 0 = false
      ∧ (if tripAna sTripsAndFans1 0 = true then 4 ≤ 0 ∧ if (thaLive sTripsAndFans1 (128 + 6 * 0)).testBit 6 = true then if decide (fld (thaLive sTripsAndFans1 (128 + 6 * 0)) 4 0 = 8) = true then 9 < 16 * (↑(fld (thaLive sTripsAndFans1 (130 + 6 * 0)) 9 0) + 0) else 1024 * 9 < 1800000 * (↑(fld (thaLive sTripsAndFans1 (130 + 6 * 0)) 9 0) + 0) else if decide (fld (thaLive sTripsAndFans1 (128 + 6 * 0)) 4 0 = 8) = true then 16 * (↑(fld (thaLive sTripsAndFans1 (130 + 6 * 0)) 9 0) - 0) < 9 else 1800000 * (↑(fld (thaLive sTripsAndFans1 (130 + 6 * 0)) 9 0) - 0) < 1024 * 9 else tripTrn sTripsAndFans1 0 ≤ sTripsAndFans1.thd.trips[0].acts)
      ∧ EngMay sTripsAndFans1 0 0x1409 true ∧ fanEn sTripsAndFans1 0 = true
      ∧ 500 ∈ List.filterMap (fun i => srcTemp sTripsAndFans1 (fld (thaLive sTripsAndFans1 (177 + 16 * 0 + i)) 4 0)) (upTo 4)
      ∧ (∀ y ∈ List.filterMap (fun i => srcTemp sTripsAndFans1 (fld (thaLive sTripsAndFans1 (177 + 16 * 0 + i)) 4 0)) (upTo 4), y ≤ 500)
      ∧ sTripsAndFans1.gpio.viom = true ∧ padsOn sTripsAndFans1 = true ∧ PortMay sTripsAndFans1 0 true 0x21 true
      ∧ fld sTripsAndFans1.hp[0].sel.fansel 5 3 ≠ 4 ∧ EngMay sTripsAndFans1 0 0x14F2 true
      ∧ EngMay sTripsAndFans1 0 0x14F3 true ∧ EngMay sTripsAndFans1 0 0x14F2 false ∧ EngMay sTripsAndFans1 0 0x14F3 false)
    ∧ (domOn sTripsAndFans4 2 = true ∧ fanEn sTripsAndFans4 0 = true ∧ sTripsAndFans4.thd.fans[0].speed = 0
      ∧ sTripsAndFans4.thd.fans[0].kick = false ∧ thaLive sTripsAndFans4 (188 + 16 * 0) ≤ sTripsAndFans4.thd.fans[0].pwm
      ∧ PortMay sTripsAndFans4 0 true 0x21 true ∧ sTripsAndFans4.hp[0].sel.fansel % 4 = 0
      ∧ fld sTripsAndFans4.hp[0].sel.fansel 5 3 = 4)
    ∧ (domOn sTripsAndFans9 2 = true ∧ tripAna sTripsAndFans9 4 = true
      ∧ (¬if (thaLive sTripsAndFans9 (128 + 6 * 4)).testBit 6 = true then if decide (fld (thaLive sTripsAndFans9 (128 + 6 * 4)) 4 0 = 8) = true then 700 < 16 * (↑(fld (thaLive sTripsAndFans9 (130 + 6 * 4)) 9 0) + 0) else 1024 * 700 < 1800000 * (↑(fld (thaLive sTripsAndFans9 (130 + 6 * 4)) 9 0) + 0) else if decide (fld (thaLive sTripsAndFans9 (128 + 6 * 4)) 4 0 = 8) = true then 16 * (↑(fld (thaLive sTripsAndFans9 (130 + 6 * 4)) 9 0) - 0) < 700 else 1800000 * (↑(fld (thaLive sTripsAndFans9 (130 + 6 * 4)) 9 0) - 0) < 1024 * 700)
      ∧ sTripsAndFans9.tha.tract.testBit 4 = true ∧ (thaLive sTripsAndFans9 (128 + 6 * 4)).testBit 5 = false
      ∧ (tripAna sTripsAndFans9 4 = true → 4 ≤ 4)
      ∧ (if tripAna sTripsAndFans9 4 = true then ¬if (thaLive sTripsAndFans9 (128 + 6 * 4)).testBit 6 = true then if decide (fld (thaLive sTripsAndFans9 (128 + 6 * 4)) 4 0 = 8) = true then 700 < 16 * (↑(fld (thaLive sTripsAndFans9 (130 + 6 * 4)) 9 0) + ↑(thaLive sTripsAndFans9 (132 + 6 * 4))) else 1024 * 700 < 1800000 * (↑(fld (thaLive sTripsAndFans9 (130 + 6 * 4)) 9 0) + ↑(thaLive sTripsAndFans9 (132 + 6 * 4))) else if decide (fld (thaLive sTripsAndFans9 (128 + 6 * 4)) 4 0 = 8) = true then 16 * (↑(fld (thaLive sTripsAndFans9 (130 + 6 * 4)) 9 0) - ↑(thaLive sTripsAndFans9 (132 + 6 * 4))) < 700 else 1800000 * (↑(fld (thaLive sTripsAndFans9 (130 + 6 * 4)) 9 0) - ↑(thaLive sTripsAndFans9 (132 + 6 * 4))) < 1024 * 700 else tripTrn sTripsAndFans9 4 ≤ sTripsAndFans9.thd.trips[4].rels))
    ∧ (domOn sTripsAndFans3 2 = true ∧ fanEn sTripsAndFans3 2 = true
      ∧ List.filterMap (fun i => srcTemp sTripsAndFans3 (fld (thaLive sTripsAndFans3 (177 + 16 * 2 + i)) 4 0)) (upTo 4) = [])
    ∧ (domOn sTripsAndFans5 2 = true ∧ PortMay sTripsAndFans5 0 true 0x21 true ∧ sTripsAndFans5.hp[0].sel.fansel % 4 = 1
      ∧ fld sTripsAndFans5.hp[0].sel.fansel 5 3 = 4) := by
  constructorm* _ ∧ _ <;> decide +kernel

theorem witness_TripsAndFans_2 :
    domOn sTripsAndFans6 2 = true ∧ PortMay sTripsAndFans6 0 true 0x21 true ∧ sTripsAndFans6.hp[0].sel.fansel % 4 = 1
      ∧ fld sTripsAndFans6.hp[0].sel.fansel 5 3 = 4 := by
  decide +kernel

theorem witness_SmbusControllers :
    (domOn sSmbusControllers2 (smbDom 1) = true ∧ EngMay sSmbusControllers2 0 (9218 + 64 * 1) true
      ∧ (sSmbusControllers2.smb[1].busy = true ∨ (1 = 9 ∨ 1 = 11) ∧ sSmbusControllers2.smb[1].len = 0)
      ∧ (sSmbusControllers2.smb[1].busy = true ∨ (2 = 9 ∨ 2 = 11) ∧ sSmbusControllers2.smb[1].len = 0)
      ∧ (sSmbusControllers2.smb[1].busy = true ∨ (3 = 9 ∨ 3 = 11) ∧ sSmbusControllers2.smb[1].len = 0)
      ∧ (sSmbusControllers2.smb[1].busy = true ∨ (4 = 9 ∨ 4 = 11) ∧ sSmbusControllers2.smb[1].len = 0)
      ∧ (sSmbusControllers2.smb[1].busy = true ∨ (5 = 9 ∨ 5 = 11) ∧ sSmbusControllers2.smb[1].len = 0)
      ∧ (sSmbusControllers2.smb[1].busy = true ∨ (6 = 9 ∨ 6 = 11) ∧ sSmbusControllers2.smb[1].len = 0)
      ∧ (sSmbusControllers2.smb[1].busy = true ∨ (7 = 9 ∨ 7 = 11) ∧ sSmbusControllers2.smb[1].len = 0)
      ∧ (sSmbusControllers2.smb[1].busy = true ∨ (8 = 9 ∨ 8 = 11) ∧ sSmbusControllers2.smb[1].len = 0)
      ∧ (sSmbusControllers2.smb[1].busy = true ∨ (9 = 9 ∨ 9 = 11) ∧ sSmbusControllers2.smb[1].len = 0)
      ∧ (sSmbusControllers2.smb[1].busy = true ∨ (10 = 9 ∨ 10 = 11) ∧ sSmbusControllers2.smb[1].len = 0)
      ∧ (sSmbusControllers2.smb[1].busy = true ∨ (11 = 9 ∨ 11 = 11) ∧ sSmbusControllers2.smb[1].len = 0)
      ∧ (sSmbusControllers2.smb[1].busy = true ∨ (12 = 9 ∨ 12 = 11) ∧ sSmbusControllers2.smb[1].len = 0)
      ∧ (sSmbusControllers2.smb[1].busy = true ∨ (13 = 9 ∨ 13 = 11) ∧ sSmbusControllers2.smb[1].len = 0)
      ∧ (sSmbusControllers2.smb[1].busy = true ∨ (14 = 9 ∨ 14 = 11) ∧ sSmbusControllers2.smb[1].len = 0)
      ∧ (sSmbusControllers2.smb[1].busy = true ∨ (15 = 9 ∨ 15 = 11) ∧ sSmbusControllers2.smb[1].len = 0)
      ∧ sSmbusControllers2.smb[1].busy = true
      ∧ sSmbusControllers2.gpio.viom = true ∧ sSmbusControllers2.smb[1].lost = false ∧ sSmbusControllers2.smb[1].prot = 7
      ∧ sSmbusControllers2.smb[1].pec = false ∧ smbRx sSmbusControllers2.smb[1].prot = some (some 2)
      ∧ (smbTx sSmbusControllers2.smb[1]).length ≤ 3 ∧ EngMay sSmbusControllers2 0 (9230 + 64 * 1) true
      ∧ EngMay sSmbusControllers2 0 (9223 + 64 * 1) true ∧ EngMay sSmbusControllers2 0 (9223 + 64 * 1) false)
    ∧ (domOn sSmbusControllers17 (smbDom 1) = true ∧ EngMay sSmbusControllers17 0 (9218 + 64 * 1) true
      ∧ sSmbusControllers17.smb[1].busy = false ∧ (9 = 9 ∨ 9 = 11 → sSmbusControllers17.smb[1].len ≠ 0)
      ∧ (11 = 9 ∨ 11 = 11 → sSmbusControllers17.smb[1].len ≠ 0) ∧ sSmbusControllers17.smb[1].pec = true
      ∧ sSmbusControllers17.smb[1].prot ∈ [2, 4, 5, 9, 12, 14] ∧ EngMay sSmbusControllers17 0 (9230 + 64 * 1) true)
    ∧ (domOn sSmbusControllers6 (smbDom 1) = true ∧ sSmbusControllers6.smb[1].busy = true
      ∧ sSmbusControllers6.gpio.viom = true ∧ sSmbusControllers6.smb[1].lost = false
      ∧ sSmbusControllers6.smb[1].prot ∈ [1, 2, 4, 5, 9, 12, 14]
      ∧ ((smbTx sSmbusControllers6.smb[1]).length + if sSmbusControllers6.smb[1].pec = true ∧ sSmbusControllers6.smb[1].prot ≠ 1 then 1 else 0) ≤ 0
      ∧ sSmbusControllers6.smb[1].prot = 1)
    ∧ (domOn sSmbusControllers3 (smbDom 1) = true ∧ sSmbusControllers3.smb[1].busy = true
      ∧ sSmbusControllers3.gpio.viom = true ∧ sSmbusControllers3.smb[1].lost = false ∧ sSmbusControllers3.smb[1].prot = 7
      ∧ sSmbusControllers3.smb[1].pec = true)
    ∧ (domOn sSmbusControllers4 (smbDom 1) = true ∧ sSmbusControllers4.smb[1].busy = true
      ∧ sSmbusControllers4.gpio.viom = true ∧ sSmbusControllers4.smb[1].lost = false
      ∧ sSmbusControllers4.smb[1].prot ∈ [1, 2, 4, 5, 9, 12, 14]
      ∧ 3 < (smbTx sSmbusControllers4.smb[1]).length + if sSmbusControllers4.smb[1].pec = true ∧ sSmbusControllers4.smb[1].prot ≠ 1 then 1 else 0) := by
  constructorm* _ ∧ _ <;> decide +kernel

theorem witness_SmbusControllers_2 :
    (domOn sSmbusControllers7 (smbDom 1) = true ∧ sSmbusControllers7.smb[1].busy = true
      ∧ sSmbusControllers7.gpio.viom = true ∧ sSmbusControllers7.smb[1].lost = false)
    ∧ (domOn sSmbusControllers18 (smbDom 1) = true ∧ sSmbusControllers18.smb[1].busy = true
      ∧ sSmbusControllers18.gpio.viom = true ∧ sSmbusControllers18.smb[1].lost = false
      ∧ (sSmbusControllers18.smb[1].prot = 10 ∨ sSmbusControllers18.smb[1].prot = 11)
      ∧ (smbTx sSmbusControllers18.smb[1]).length ≤ 8
      ∧ ((([3, 1, 2, 3] : List Byte)[0]?.map BitVec.toNat).getD 255) ≠   0)
    ∧ (domOn sSmbusControllers19 (smbDom 1) = true ∧ sSmbusControllers19.smb[1].busy = true
      ∧ sSmbusControllers19.gpio.viom = true ∧ sSmbusControllers19.smb[1].lost = false
      ∧ (sSmbusControllers19.smb[1].prot = 10 ∨ sSmbusControllers19.smb[1].prot = 11)
      ∧ (smbTx sSmbusControllers19.smb[1]).length ≤ 8
      ∧ ((([0, 1, 2, 3] : List Byte)[0]?.map BitVec.toNat).getD 255) =   0)
    ∧ (domOn sSmbusControllers22 (smbDom 1) = true ∧ sSmbusControllers22.smb[1].busy = true
      ∧ sSmbusControllers22.gpio.viom = true ∧ sSmbusControllers22.smb[1].lost = false
      ∧ (smbRx sSmbusControllers22.smb[1].prot).isSome = true ∧ (smbTx sSmbusControllers22.smb[1]).length ≤ 8)
    ∧ (domOn sSmbusControllers23 (smbDom 1) = true ∧ sSmbusControllers23.smb[1].busy = true
      ∧ sSmbusControllers23.gpio.viom = true ∧ sSmbusControllers23.smb[1].lost = false
      ∧ (smbRx sSmbusControllers23.smb[1].prot).isSome = true ∧ 1 < (smbTx sSmbusControllers23.smb[1]).length) := by
  constructorm* _ ∧ _ <;> decide +kernel

theorem witness_SmbusControllers_3 :
    domOn sSmbusControllers24 (smbDom 1) = true ∧ sSmbusControllers24.smb[1].busy = true
      ∧ (¬(sSmbusControllers24.gpio.viom = true ∧ sSmbusControllers24.smb[1].lost = false)) := by
  decide +kernel

theorem witness_ReadyDistance :
    (∀ q ∈ (({ base := 1, pend := [(1, 3, 4)] } : Cell)).pend, q.1 ≤ 3) := by
  decide +kernel

/-- The range of R155 holds of a mid-scale TBAT code whichever way the rounding goes (log entry 10). -/
theorem witness_ChargerPeriods_tbat :
    (256 ≤ 8000 ∧ 8000 ≤ 16128)
    ∧ (-640 ≤ ntcTemp (chgLive sChargerPeriods7 0x41) (chgLive sChargerPeriods7 0x43) 1000 8000
      ∧ ntcTemp (chgLive sChargerPeriods7 0x41) (chgLive sChargerPeriods7 0x43) 1000 8000 ≤ 2000) := by
  refine ⟨by decide, ?_⟩
  unfold ntcTemp openRound
  dsimp only
  rw [if_neg (by decide +kernel)]
  split <;> decide +kernel

theorem witness_StepRunsFront :
    ({ base with pending := [.cxNop 0, .rtcTick] } : State).pending = .cxNop 0 :: [.rtcTick] ∧ base.pending = []
    ∧ ckRuns base = true ∧ (∀ e : Fin 6, base.eng[e].badKick = false) ∧ domOn base (engDom 0) = true ∧ domOn (pw { on := 0 }) (engDom 1) = false
    ∧ ckRuns sResets3 = false ∧ sResets3.rst.active = 0 ∧ sResets3.rst.step = 1 := by
  decide +kernel

theorem witness_CommandsServedInOrder :
    step { base with pending := [.bankSupplyChange 0 true, .rtcTick] }
      = exec (.bankSupplyChange 0 true) { base with pending := [.rtcTick] } := rfl

theorem witness_StepKeepsMemWf : cxMem.MemWf ∧ step cxMem = .next (ckTick cxMem) :=
  ⟨by decide +kernel, rfl⟩

/-! ### Operands that cannot occur (WellFormed.lean) -/

theorem test_wf_window_offset : (Instr.registerWrite (.hp 0 true) 0x40 1).wf = false ∧ (Instr.registerWrite (.hp 0 true) 0x3F 1).wf = true := by decide
theorem test_wf_engine_byte : (Instr.registerWrite (.ce 1) 0x0410 0x100).wf = false ∧ (Instr.registerWrite (.ce 1) 0x0410 0xFF).wf = true := by decide
theorem test_wf_read_offset : (Instr.registerRead (.hp 1 false) 0x40).wf = false ∧ (Instr.registerRead (.hp 1 false) 0x3F).wf = true := by decide
theorem test_wf_fault_map : (Instr.ledFault 1152).wf = false ∧ (Instr.ledFault 1151).wf = true := by decide
theorem test_wf_cell_ov : (Instr.cellOv 0 4300).wf = false ∧ (Instr.cellOv 1 4300).wf = true := by decide
theorem test_wf_cell_uv : (Instr.cellUv 0 2700).wf = false ∧ (Instr.cellUv 5 2700).wf = true := by decide
theorem test_wf_removal : (Instr.battRemoved false false 15000).wf = false ∧ (Instr.battRemoved false true 15000).wf = true := by decide
theorem test_wf_long_press : (Instr.platformRequest 0 .long false).wf = false ∧ (Instr.platformRequest 5 .long true).wf = true := by decide
theorem test_wf_lid : (Instr.platformRequest 5 .lid false).wf = false ∧ (Instr.platformRequest 0 .lid true).wf = true := by decide
theorem test_wf_payload : (Instr.fieldBookRecord 6 1 (List.replicate 10 0)).wf = false ∧ (Instr.fieldBookRecord 6 1 (List.replicate 9 0)).wf = true := by decide
theorem test_wf_contend : (Instr.lockAcquire (.ce 2) [.hp 0 true, .ce 2]).wf = false ∧ (Instr.lockAcquire (.ce 2) [.hp 0 true, .hp 1 false]).wf = true := by decide

/-! ### Witnesses with a case analysis -/

/-- Lock 0 free, two engines and a port that acquire it (O28). -/
def sContend : State := { base with
  lck := { ptr := [(0, 6)] }
  eng := Vector.ofFn (fun _ => { run := .running })
  prt := { base.prt with eright := Vector.replicate 6 0xAAAAAAAA } }
theorem witness_Locks_contention : [Mst.hp 0 true, .ce 5] ≠ [] ∧ lockOwner sContend 0 = none
    ∧ (∀ n ∈ [Mst.ce 2, .hp 0 true, .ce 5], match n with
        | .ce e => EngMay sContend e 0x305 false ∧ sContend.lck.lksel[e] = 0
        | .hp p priv => PortMay sContend p priv 0x14 false ∧ sContend.hp[p].sel.locksel = 0) := by
  refine ⟨by decide, by decide +kernel, ?_⟩
  intro n h
  simp only [List.mem_cons, List.not_mem_nil, or_false] at h
  rcases h with rfl | rfl | rfl <;> decide +kernel

/-- A rail that is on, and one whose ramp has ended while no frame runs (O46). -/
def sRailOn : State := lgt1 { run := true, running := true, cfg := ledOn, rails := #v[{ st := .on }, {}, {}] } twoB
def sRailSoft : State := lgt1 { run := true, cfg := ledOn, rails := #v[{ st := .soft 9 }, {}, {}] } twoB
theorem witness_LightingChainAndFaults_rail :
    (domOn sRailOn 6 = true ∧ sRailOn.lgt.rails[(0 : Fin 3)].st = .on)
    ∧ (domOn sRailSoft 6 = true ∧ (∃ k, sRailSoft.lgt.rails[(0 : Fin 3)].st = .soft k) ∧ sRailSoft.lgt.running = false) :=
  ⟨⟨by decide +kernel, rfl⟩, by decide +kernel, ⟨9, rfl⟩, rfl⟩

/-- A job of CE0 with SEND and RING to a channel of its own toward the host, its doorbell unrouted, and routed to it (O22). -/
def sRing (routes : Sparse Nat) : State := { base with
  eng := base.eng.set 0 { run := .running }
  prt := { base.prt with chan := [(5, 0xF0)], routes := #v[routes, []], eright := base.prt.eright.set 0 0xAAAAAAAA }
  cpy := { cfg := { live := [(0x28, 0x1A), (0x2B, 5), (0x2D, 2), (0x2F, 3)] } } }
theorem witness_CopyJobs_ring : ∀ r ∈ [[], [(3, 0)]], (EngMay (sRing r) 0 0x3004 true ∧ (cpyBusy (sRing r)).testBit 1 = false
    ∧ cjSrc (cpyLive (sRing r) 0x28) ≠ 1 ∧ cjDst (cpyLive (sRing r) 0x28) = 1 ∧ engMayWrite (sRing r) 0 0 = true ∧ chanOwner (sRing r) 5 = some 0
    ∧ chanOff (sRing r) 5 = false ∧ chanDir (sRing r) 5 = true ∧ (cpyLive (sRing r) 0x28).testBit 3 = true
    ∧ dbMine (sRing r) 0 0 3 = decide (r ≠ [])) := by
  decide +kernel

/-- A Receive Byte in progress (O55). -/
def sReceive : State := { base with smb := base.smb.set 0 { busy := true, prot := 3, addr := 0x20 } }
theorem witness_SmbusControllers_receive : domOn sReceive (smbDom 0) = true ∧ sReceive.smb[(0 : Fin 4)].busy = true ∧ sReceive.gpio.viom = true
    ∧ sReceive.smb[(0 : Fin 4)].lost = false ∧ sReceive.smb[(0 : Fin 4)].prot = 3 ∧ smbRx 3 = some (some 1) ∧ (smbTx sReceive.smb[(0 : Fin 4)]).length = 0 := by
  decide +kernel

/-- An exit from SHIP whose step 1 has qualified the crystal (O38). -/
def sShipOut : State := pwOff { mode := .ship, on := 0, cfg := { live := [(0x1D, 5)] } }
theorem witness_ModeEntries_shipOut : sShipOut.dct.mode = .ship ∧ { sShipOut with rst := { step := 1 } }.rst.step = 1 ∧ sShipOut.rst.step ≠ 1
    ∧ (dctLive sShipOut 0x1D).testBit 0 = true := by decide +kernel

/-- Bank G with and without VDRVL (O45). -/
theorem witness_LightingFrames_gates : padsOn base = true ∧ base.gpio.vdrvl = true ∧ { base.gpio with vdrvl := false }.vdrvl = false := by
  decide +kernel

/-- SCRATCH7 with BUSTEST, and a SCRATCH write in recovery that asks for no check (O26). -/
def sScratch : State := { base with hsh := { testctl := 1, scratch := #v[0, 0, 0, 0, 0, 0, 0, 0x1234] }, rst := { recovery := true } }
theorem witness_RegisterAccess_scratch : PortMay sScratch 0 true 0x37 false ∧ PortMay sScratch 0 true 0x30 true ∧ sScratch.rst.recovery = true
    ∧ (0x4B5B : Nat) ≠ 0x4B5A ∧ sScratch.hsh.testctl.testBit 0 = true := by decide +kernel

/-- A contour table write beyond the table (O50). -/
def sContourEnd : State := { base with chs := { base.chs with ctsel := 127 }, eng := base.eng.set 0 { run := .running } }
theorem witness_ChargerMeasurements_end : EngMay sContourEnd 0 0xC49 true ∧ EngMay sContourEnd 0 0xC4A true ∧ 69 ≤ sContourEnd.chs.ctsel := by
  decide +kernel

/-- The second removal decision at the RUN clock, within 240000 CK (O49). -/
theorem witness_PowerPath_second : (70000 : Nat) ≤ (if sPowerPath3.clk.ckPll = true then 240000 else 24000) := by decide +kernel

/-- SCTL.EN = 0 in a traverse before and after its commit point, a fault traverse and an unwind (O51). -/
def sRefused (k : SeqKind) (past : Bool) : State :=
  seq1 { en := false, cur := 5, kind := k, trv := 0, step := 2, pastcmt := past, pend := if k = .unwind then some ⟨4, 3⟩ else none }
theorem witness_PlatformRequests_refused :
    ∀ x ∈ [(SeqKind.ordinary, false), (.ordinary, true), (.fault, false), (.unwind, false)], let s := sRefused x.1 x.2
      domOn s 2 = true ∧ s.seq.en = false ∧ thTo (seqLive s) s.seq.trv = 0 ∧ seqCode 3 = true ∧ seqCode 4 = true ∧ s.seq.kind = x.1
      ∧ s.seq.pend.map SeqReq.tgt ≠ some 3 ∧ (x.1 = .unwind → s.seq.pend.map SeqReq.tgt = some 4) := by decide +kernel

/-- A queued target at an END, taken and refused; a timeout in an unwind; one whose fault traverse is not valid (O52). -/
def sQueued (en : Bool) : State := seq1 { en := en, cur := 5, kind := .ordinary, trv := 0, step := 9, queue := some ⟨3, 6⟩ }
def sUnwindWait : State := seq1 { en := true, cur := 5, kind := .unwind, waiting := true, trv := 0, step := 3, pend := some ⟨3, 6⟩ }
def sNoFault : State := { base with seq := { en := true, cur := 5, kind := .unwind, waiting := true, trv := 0, step := 3, cfg := { pnd := some [(7, 7)] } } }
theorem witness_TraverseSteps_queue :
    (∀ en, let s := sQueued en
      domOn s 2 = true ∧ s.seq.kind = .ordinary ∧ s.seq.waiting = false ∧ seqWord s / 2 ^ 28 = 0 ∧ s.seq.queue = some ⟨3, 6⟩
      ∧ thTo (seqLive s) s.seq.trv = 0 ∧ s.seq.en = en ∧ findTraverse { s with seq := { s.seq with cur := 0, kind := .idle } } 0 3 = some 1
      ∧ s.fbk.ring.length < 255 ∧ s.fbk.drops = 0 ∧ s.svy.svfsel = 0)
    ∧ (domOn sUnwindWait 2 = true ∧ sUnwindWait.seq.waiting = true ∧ sUnwindWait.seq.kind = .unwind
      ∧ thValid (seqLive sUnwindWait) (thFlt (seqLive sUnwindWait) 0) = true ∧ thFault (seqLive sUnwindWait) (thFlt (seqLive sUnwindWait) 0) = true)
    ∧ (domOn sNoFault 2 = true ∧ sNoFault.seq.waiting = true ∧ sNoFault.seq.kind = .unwind ∧ sNoFault.seq.pend = none ∧ sNoFault.seq.queue = none
      ∧ thValid (seqLive sNoFault) (thFlt (seqLive sNoFault) 0) = false) := by
  decide +kernel

/-- Unwinding past a MARK and a WAITPG with UW = 0 to a DELAY, a WATCH and a WAITPG with UW = 1; only skipped steps left; a pending
target at the end (O52). The words are those of R203's table: DELAY, WAITPG PG 5, WAITPG PG 5 with UW, WATCH, MARK. -/
def sUnwind (l : List Nat) (en : Bool) : State :=
  let s := seq1 { en := en, cur := 5, kind := .unwind, trv := 0, undo := l.map (fun i => { step := i }), pend := some ⟨0, 3⟩ }
  let steps : Regs := [(0x10000, 0x30000005), (0x10001, 0x40050001), (0x10002, 0x44050001), (0x10003, 0x50000103), (0x10004, 0x70000001)]
  let live := s.seq.cfg.live.filter (fun e => decide (e.1 < 0x10000)) ++ steps
  { s with seq := { s.seq with cfg := { s.seq.cfg with live := live } } }
theorem witness_TraverseSteps_unwind :
    (let w (l : List Nat) (i : Nat) : Nat := seqLive (sUnwind l true) (0x10000 + i)
     w [] 0 / 2 ^ 28 = 3 ∧ w [] 1 / 2 ^ 28 = 4 ∧ (w [] 1).testBit 26 = false ∧ w [] 2 / 2 ^ 28 = 4 ∧ (w [] 2).testBit 26 = true ∧ w [] 3 / 2 ^ 28 = 5
     ∧ w [] 4 / 2 ^ 28 = 7 ∧ (pgin { sUnwind [] true with seq := { (sUnwind [] true).seq with pg := 0 } }).testBit (fld (w [] 2) 20 16) = (w [] 2).testBit 25
     ∧ (pgin { sUnwind [] true with seq := { (sUnwind [] true).seq with pg := 32 } }).testBit (fld (w [] 2) 20 16) ≠ (w [] 2).testBit 25)
    ∧ (∀ i ∈ [0, 2, 3], (sUnwind [4, 1, i, 0] true).seq.undo = [({ step := 4 } : Undo), { step := 1 }] ++ { step := i } :: [{ step := 0 }]
      ∧ (sUnwind [4, 1, i, 0] true).seq.kind = .unwind ∧ domOn (sUnwind [4, 1, i, 0] true) 2 = true)
    ∧ (∀ en, (sUnwind [4, 1] en).seq.undo = [{ step := 4 }, { step := 1 }] ∧ (sUnwind [4, 1] en).seq.waiting = false ∧ (sUnwind [4, 1] en).seq.en = en
      ∧ (sUnwind [4, 1] en).seq.pend = some ⟨0, 3⟩ ∧ findTraverse (sUnwind [4, 1] en) 5 0 = some 0) := by
  decide +kernel

/-! ### Engine words, field by field from the formats of R350 and the table of R352 -/

/-- Formats N: opcode, d, a, b, x. -/
theorem test_word_add : Cx.decode 0x01_3_0_1_0#24 = some (.alu .add 3 0 1) := by decide
theorem test_word_addc : Cx.decode 0x03_F_E_D_C#24 = some (.cin .addc 15 14 13 12) := by decide
/-- A field marked 0 must be 0 (R351): ADD with x = 1, NOP with a bit. -/
theorem test_word_reserved : Cx.decode 0x01_3_0_1_1#24 = none ∧ Cx.decode 0x000001#24 = none ∧ Cx.decode 0x000000#24 = some (.bare .nop) := by decide
theorem test_word_daa : Cx.decode 0x17_3_4_0_0#24 = some (.daa 3 4) ∧ Cx.decode 0x17_3_4_1_0#24 = none := by decide
/-- Format I: d, a, imm8; shift counts 8 to 255 are reserved. -/
theorem test_word_imm : Cx.decode 0x20_3_4_FE#24 = some (.imm .addi 3 4 0xFE) ∧ Cx.decode 0x24_3_4_07#24 = some (.shift .shli 3 4 7)
    ∧ Cx.decode 0x24_3_4_08#24 = none := by decide
theorem test_word_pair : Cx.decode 0x2A_7_0_80#24 = some (.addp 7 0 0x80) ∧ Cx.decode 0x2A_8_0_80#24 = none := by decide
/-- MFS and MTS: the b field is the special register, 4 to 15 are reserved (R365). -/
theorem test_word_special : Cx.decode 0x30_5_0_2_0#24 = some (.mfs (.dsb 5)) ∧ Cx.decode 0x31_0_3_0_0#24 = some (.mts (.cnt 3))
    ∧ Cx.decode 0x30_5_0_4_0#24 = none := by decide
/-- Format M: d, p, disp8; a pair field above 7 is reserved. -/
theorem test_word_mem : Cx.decode 0x40_C_1_0F#24 = some (.mem .ld 12 1 0x0F) ∧ Cx.decode 0x53_3_7_FF#24 = some (.mem .outr 3 7 0xFF)
    ∧ Cx.decode 0x41_3_8_00#24 = none := by decide
theorem test_word_mvb : Cx.decode 0x44_0_1_2_0#24 = some (.mvb 1 2) := by decide
theorem test_word_im : Cx.decode 0x48_4_2_01#24 = some (.im false 4 2 1) ∧ Cx.decode 0x49_4_2_03#24 = none := by decide
/-- Format X: d, port12. -/
theorem test_word_io : Cx.decode 0x50_3_ABC#24 = some (.io false 3 0xABC) ∧ Cx.decode 0x51_3_ABC#24 = some (.io true 3 0xABC) := by decide
/-- The example under R358: BNE G4, G5 with off8 = -8 is 0x6145F8. -/
theorem test_word_branch : Cx.decode 0x6145F8#24 = some (.br .bne 4 5 0xF8) ∧ Cx.decode 0x69_4_F_02#24 = some (.bri true 4 15 2) := by decide
/-- Format J: imm16, 0 where the table says so. -/
theorem test_word_jump : Cx.decode 0x70_1234#24 = some (.jmp .jmp 0x1234) ∧ Cx.decode 0x72_0_3_0_0#24 = some (.jr false 3)
    ∧ Cx.decode 0x74_0000#24 = some (.bare .ret) ∧ Cx.decode 0x79_0001#24 = none := by decide
theorem test_word_repeat : Cx.decode 0x80_0010#24 = some (.jmp .rep 16) ∧ Cx.decode 0x82_0000#24 = some (.bare .repCnt)
    ∧ Cx.decode 0x82_0001#24 = none := by decide
/-- Undefined opcodes. -/
theorem test_word_undefined : Cx.decode 0xFFFFFF#24 = none ∧ Cx.decode 0x180000#24 = none ∧ Cx.decode 0x660000#24 = none := by decide

/-! ### Examples of the spec -/

/-- The decimal example under R356: 0x58 + 0x47 is 0x05 with carry 1, and 0x99 + 0x01 is 0x00 with carry 1. -/
theorem test_decimal_example : AluOp.eval .addd 0x58 0x47 = 0x05 ∧ AluOp.eval .dcar 0x58 0x47 = 1 ∧ AluOp.eval .addd 0x99 0x01 = 0
    ∧ AluOp.eval .dcar 0x99 0x01 = 1 ∧ AluOp.eval .dcar 0x99 0x00 = 0 := by decide

/-- The carry example under R354: 0xFF + 0x01 carries, and 0x80 + 0x7F + 1 carries. -/
theorem test_carry_example : AluOp.eval .carry 0xFF 0x01 = 1 ∧ AluOp.eval .carry 0x80 0x7F = 0 := by decide

/-- Lock 5, free, with a round-robin pointer. -/
def lockFive (ptr : Nat) : State := { base with lck := { ptr := [(5, ptr)] } }

/-- The example under R310: CE2 against HP1 (master 6), CE2 against HP2 (7), CE2 against HP1 again; and three masters. -/
theorem test_lock_example :
    (let t := lockContend [2, 6] 5 (lockFive 3); lockOwner t 5 = some 6 ∧ spGet 0 t.lck.ptr 5 = 7)
    ∧ (let t := lockContend [2, 7] 5 (lockFive 7); lockOwner t 5 = some 7 ∧ spGet 0 t.lck.ptr 5 = 0)
    ∧ (let t := lockContend [2, 6] 5 (lockFive 0); lockOwner t 5 = some 2 ∧ spGet 0 t.lck.ptr 5 = 3)
    ∧ (let t := lockContend [6, 0, 4] 5 (lockFive 5); lockOwner t 5 = some 6 ∧ spGet 0 t.lck.ptr 5 = 7) := by
  decide +kernel

end Sys2Proof.Tests
end

section
/-! SUPPORT. What an access of a host port does that passes its checks (07 R264, R266, R272): a read leaves its data on the output
register, a write leaves the buffer free, and the rest is the register's own. -/

namespace Sys2Proof.Machine

/-- Port p after a write that leaves the select registers q: the write buffer is free and the drivers of D are off (R265, R267). -/
def portWrote (p : Port) (q : PortSel) (s : State) : State :=
  putPort p { s.hp[p] with driven := false, rdyLow := false, wbuf := 0, sel := q } s

/-- Port p after a read of v that leaves the select registers q (R264, R265). -/
def portAnswered (p : Port) (q : PortSel) (v : Nat) (s : State) : State :=
  putPort p { s.hp[p] with driven := true, rdyLow := false, wbuf := 0, sel := q, dOut := BitVec.ofNat 16 v } s

variable {p : Port} {priv : Bool} {off v : Nat} {q : PortSel} {s t : State}

@[simp] theorem putPort_putPort (h k : HPort) : putPort p k (putPort p h s) = putPort p k s := by simp [putPort]

/-- The write of a select register by a port whose buffer has just come free. -/
theorem putSel_bufFree : putSel p q (bufFree p s) = portWrote p q s := by simp [putSel, bufFree, portWrote]

theorem selUpd_bufFree (f : PortSel → PortSel) : selUpd p f (bufFree p s) = portWrote p (f s.hp[p].sel) s := by
  rw [selUpd, putSel_bufFree]; simp [bufFree]

@[simp] theorem bufFree_sel : (bufFree p s).hp[p].sel = s.hp[p].sel := by simp [bufFree]

theorem portData_putSel : portData p v (putSel p q s) = portAnswered p q v s := by simp [portData, putSel, portAnswered]

theorem portData_eq : portData p v s = portAnswered p s.hp[p].sel v s := rfl

/-- An access that passes its checks does what its register does, from the state in which the buffer is free. -/
theorem hostTry_ok {f : State → State × Nat} (h : PortMay s p priv off true) (hf : f (bufFree p s) = (t, 0)) :
    hostTry p priv off f s = t := by
  obtain ⟨hs, hc⟩ := h
  simp [hostTry, hs, hc, hf]

theorem hostWrite_ok {same : Bool} (h : PortMay s p priv off true) (hf : portPut p priv off v (bufFree p s) same = (t, 0)) :
    hostWrite p priv off v s same = t := hostTry_ok h hf

theorem hostRead_ok {again : Bool} (h : PortMay s p priv off false) (hg : portGet p priv off s again = (t, .ok v)) :
    hostRead p priv off s again = portData p v t := by
  obtain ⟨hs, hc⟩ := h
  simp [hostRead, hs, hc, hg]

/-- The write of a register that only changes the port's select registers. -/
theorem hostWrite_selUpd {f : PortSel → PortSel} (h : PortMay s p priv off true)
    (hf : portPut p priv off v (bufFree p s) = (selUpd p f (bufFree p s), 0)) :
    hostWrite p priv off v s = portWrote p (f s.hp[p].sel) s := hostWrite_ok h (by rw [hf, selUpd_bufFree])

/-- The channel access check of R299 does not look at the port's buffer. -/
theorem mbAccess_bufFree : mbAccess (bufFree p s) p = mbAccess s p := by
  simp only [mbAccess, bufFree_sel]
  rfl

end Sys2Proof.Machine
end

section
/-! SUPPORT. The registers of a port, one by one: what an access that passes its checks leaves (07 R270, R274, R280, R283, R290;
08 R304). -/

namespace Sys2Proof.Machine

variable {p : Port} {priv : Bool} {v : Half} {s : State}

theorem hostWrite_hints (h : PortMay s p priv 0x03 true) : hostWrite p priv 0x03 v.toNat s
    = portWrote p { s.hp[p].sel with hints := s.hp[p].sel.hints &&& ~~~v } s := by
  rw [hostWrite_selUpd h rfl]
  simp

theorem hostWrite_hinte (h : PortMay s p priv 0x04 true) : hostWrite p priv 0x04 v.toNat s
    = portWrote p { s.hp[p].sel with hinte := v } s := by
  rw [hostWrite_selUpd h rfl]
  simp

theorem hostRead_errinfo (h : PortMay s p priv 0x2F false) : hostRead p priv 0x2F s
    = putPort p { s.hp[p] with driven := true, rdyLow := false, wbuf := 0, err := {}, dOut := BitVec.ofNat 16 (errWord s.hp[p].err) } s := by
  rw [hostRead_ok h rfl]
  simp [portData]

theorem hostWrite_mbsel (h : PortMay s p priv 0x0C true) : hostWrite p priv 0x0C v.toNat s
    = portWrote p { s.hp[p].sel with
        mbsel := v.toNat % 16384
        mlatch := if v.toNat % 1024 = s.hp[p].sel.mbsel % 1024 then s.hp[p].sel.mlatch else none } s := by
  rw [hostWrite_ok h rfl]
  have hm : v.toNat % 16384 % 1024 = v.toNat % 1024 := Nat.mod_mod_of_dvd _ (by decide)
  simp [mbselWrite, bufFree, portWrote, hm]

theorem hostWrite_mbdata (h : PortMay s p priv 0x0E true) (ha : mbAccess s p = 0) : hostWrite p priv 0x0E v.toNat s
    = portWrote p { s.hp[p].sel with
        mbuf := spSet 0 s.hp[p].sel.mbuf (s.hp[p].sel.mbsel / 1024 % 16) v.toNat
        mbsel := s.hp[p].sel.mbsel % 1024 + 1024 * ((s.hp[p].sel.mbsel / 1024 % 16 + 1) % 16) } s := by
  have hp : portPut p priv 0x0E v.toNat (bufFree p s) = (mbDataWrite p v.toNat (bufFree p s), 0) := by
    simp [portPut, mbAccess_bufFree, ha]
  have hv : v.toNat % 65536 = v.toNat := Nat.mod_eq_of_lt v.isLt
  rw [hostWrite_ok h hp]
  simp [mbDataWrite, bufFree, portWrote, hv]

/-- A read of word 0 latches the slot (R304). -/
theorem mbDataRead_zero (hw : s.hp[p].sel.mbsel / 1024 % 16 = 0) : mbDataRead p s
    = (putSel p { s.hp[p].sel with
        mlatch := some (s.hp[p].sel.mbsel % 1024, (List.range 16).map (slotWord (chan s (s.hp[p].sel.mbsel % 1024))))
        mbsel := s.hp[p].sel.mbsel % 1024 + 1024 * ((s.hp[p].sel.mbsel / 1024 % 16 + 1) % 16) } s,
      slotWord (chan s (s.hp[p].sel.mbsel % 1024)) 0) := by
  simp only [mbDataRead, hw, if_true, putSel]
  rfl

/-- A read of a later word of the channel that is latched takes it from the latch (R304). -/
theorem mbDataRead_latched {l : List Nat} (hw : s.hp[p].sel.mbsel / 1024 % 16 ≠ 0)
    (hl : s.hp[p].sel.mlatch = some (s.hp[p].sel.mbsel % 1024, l)) : mbDataRead p s
    = (putSel p { s.hp[p].sel with
        mbsel := s.hp[p].sel.mbsel % 1024 + 1024 * ((s.hp[p].sel.mbsel / 1024 % 16 + 1) % 16) } s,
      l.getD (s.hp[p].sel.mbsel / 1024 % 16) 0) := by
  simp only [mbDataRead, hw, hl, if_true, if_false, putSel]

/-- MBDATA as a port reads it where R299 lets it. -/
theorem hostRead_mbdata {x : PortSel} {w : Nat} (h : PortMay s p priv 0x0E false) (ha : mbAccess s p = 0)
    (hx : mbDataRead p s = (putSel p x s, w)) : hostRead p priv 0x0E s = portAnswered p x w s := by
  have hg : portGet p priv 0x0E s = (putSel p x s, .ok w) := by simp [portGet, ha, hx]
  rw [hostRead_ok h hg, portData_putSel]

theorem hostRead_refcnt (h : PortMay s p priv 0x18 false) : hostRead p priv 0x18 s
    = portAnswered p { s.hp[p].sel with refidx := (s.hp[p].sel.refidx + 1) % 16 } (refEntry s s.hp[p].sel.refidx) s := by
  rw [hostRead_ok h rfl]
  exact portData_putSel

theorem hostWrite_refcnt {i : BitVec 4} (h : PortMay s p priv 0x18 true) : hostWrite p priv 0x18 i.toNat s
    = portWrote p { s.hp[p].sel with refidx := i.toNat } s := by
  rw [hostWrite_selUpd h rfl, Nat.mod_eq_of_lt i.isLt]

/-- SCRATCHk; SCRATCH7 reads as its complement with BUSTEST (R290). -/
theorem hostRead_scratch {k : Fin 8} (h : PortMay s p priv (0x30 + k.val) false) : hostRead p priv (0x30 + k.val) s
    = portAnswered p s.hp[p].sel (if k = 7 ∧ s.hsh.testctl.testBit 0 = true then 65535 - s.hsh.scratch[k] else s.hsh.scratch[k]) s := by
  have hg : portGet p priv (0x30 + k.val) s
      = (s, .ok (if k = 7 ∧ s.hsh.testctl.testBit 0 = true then 65535 - s.hsh.scratch[k] else s.hsh.scratch[k])) := by
    fin_cases k <;> simp [portGet, portView, finOf]
  rw [hostRead_ok h hg, portData_eq]

/-- In the recovery wait only a word that asks for a recovery check does more than enter SCRATCH (R414). -/
theorem recoveryCheck_idle (h : s.rst.recovery = false ∨ s.hsh.scratch[(0 : Fin 8)] ≠ 0x4B5A) : recoveryCheck s = s := by
  unfold recoveryCheck
  rw [if_neg]
  simp only [Bool.and_eq_true, decide_eq_true_eq]
  rintro ⟨⟨-, hr⟩, hc⟩
  rcases h with h | h
  · simp [h] at hr
  · exact h hc

theorem hostWrite_scratch {k : Fin 8} (h : PortMay s p priv (0x30 + k.val) true)
    (hr : s.rst.recovery = false ∨ (if k = 0 then v.toNat else s.hsh.scratch[(0 : Fin 8)]) ≠ 0x4B5A) :
    hostWrite p priv (0x30 + k.val) v.toNat s
      = { portWrote p s.hp[p].sel s with hsh := { s.hsh with scratch := s.hsh.scratch.set k v.toNat } } := by
  have hv : v.toNat % 65536 = v.toNat := Nat.mod_eq_of_lt v.isLt
  have hp : portPut p priv (0x30 + k.val) v.toNat (bufFree p s) = (recoveryCheck { bufFree p s with
      hsh := { s.hsh with scratch := s.hsh.scratch.set k v.toNat } }, 0) := by
    fin_cases k <;> simp [portPut, finOf, hv] <;> rfl
  rw [hostWrite_ok h hp, recoveryCheck_idle]
  · rfl
  · refine hr.imp id (fun hr => ?_)
    by_cases hk : k = 0
    · simpa [hk] using hr
    · have hk' : k.val ≠ 0 := fun e => hk (Fin.ext e)
      simpa [hk, hk'] using hr

end Sys2Proof.Machine
end

section
/-! SUPPORT. Accesses of engines: the boundary that the first instruction leaves behind (09 R335), and the registers DSB, RFCLR and
HPSVC (07 R291; 09 R346; 13 R442). -/

namespace Sys2Proof.Machine

variable {e : Eng} {s : State}

/-! ### The access of an engine is an instruction of its own (R335) -/

theorem engRuns_govPast : engRuns (govPast e s) e = engRuns s e := by simp [engRuns, govPast, domOn]

theorem govPast_badKick : (govPast e s).eng[e].badKick = s.eng[e].badKick := by simp [govPast]

theorem afterKick_pastGov (q : Ceng) : afterKick e (pastGov q) s = afterKick e q s := rfl

theorem engCount_govPast (n : Nat) : engCount e n (govPast e s) = engCount e n s := by simp only [engCount, govPast_badKick]

/-- An access of at least one byte makes at least one. -/
theorem engCount_succ (n : Nat) : ∃ m, engCount e (n + 1) s = m + 1 := by
  unfold engCount
  split
  · exact ⟨0, by omega⟩
  · exact ⟨n, rfl⟩

theorem outBytes_govPast (same : Bool) (a b : Nat) (l : List Nat) :
    outBytes e same a (b :: l) (govPast e s) = outBytes e same a (b :: l) s := by
  simp only [outBytes, govPast_govPast]

theorem inBytes_govPast (again : Bool) (a n : Nat) (l : List Nat) :
    inBytes e again a (n + 1) l (govPast e s) = inBytes e again a (n + 1) l s := by
  simp only [inBytes, govPast_govPast]

theorem govPast_eng : (govPast e s).eng[e] = pastGov s.eng[e] := putEng_eng_self e _ s

theorem engWrite_govPast (hr : engRuns s e = true) (a n x : Nat) : engWrite e a (n + 1) x (govPast e s) = engWrite e a (n + 1) x s := by
  obtain ⟨m, hm⟩ := engCount_succ (e := e) (s := s) n
  simp only [engWrite, engRuns_govPast, hr, if_true, engCount_govPast, govPast_eng, afterKick_pastGov, hm, leBytes, outBytes_govPast]

theorem engRead_govPast (hr : engRuns s e = true) (a n : Nat) : engRead e a (n + 1) (govPast e s) = engRead e a (n + 1) s := by
  obtain ⟨m, hm⟩ := engCount_succ (e := e) (s := s) n
  simp only [engRead, engRuns_govPast, hr, if_true, engCount_govPast, govPast_eng, afterKick_pastGov, hm, inBytes_govPast]

theorem engAct_govPast (hr : engRuns s e = true) (a x : Nat) (f : State → State) : engAct e a x f (govPast e s) = engAct e a x f s := by
  simp only [engAct, engRuns_govPast, hr, govPast_govPast, govPast_eng, afterKick_pastGov]
  rfl

/-! ### Registers of engines -/

theorem engWrite_rfclr (h : EngMay s e 0x1813 true) : engWrite e 0x1813 1 0xC1 s
    = { s with dct := { s.dct with refcnt := #v[0, 0, 0, 0, 0, 0, 0, 0, 0, 0] } } := by
  rw [engWrite_byte (b := 0x1800) (r := 7) h rfl rfl rfl]
  rfl

/-- DSB takes a block number from 0 to 7; 8 and above are reserved (R15, R346). -/
theorem engWrite_dsb {v : Nat} (h : EngMay s e 0x02 true) : engWrite e 0x02 1 (v % 256) s
    = putEng e (if 8 ≤ v % 256 then { s.eng[e] with err := true } else { s.eng[e] with dsb := v % 256 }) s := by
  rw [engWrite_byte (b := 0) (r := 16) h rfl rfl rfl, Nat.mod_mod]
  change (if 8 ≤ v % 256 then putEng e _ s else putEng e _ s) = _
  split <;> rfl

theorem engRead_dsb (h : EngMay s e 0x02 false) : ∃ y, engRead e 0x02 1 s = withIo y s ∧ y.rd[e] = s.eng[e].dsb % 256 := by
  have hg : ioGet (.ce e) e 0x02 s = (s, s.eng[e].dsb) := by
    rw [ioGet_byte (b := 0) (r := 16) (by decide) rfl rfl]
    rfl
  rw [engRead_one h rfl, hg]
  exact ⟨_, rfl, by simp⟩

theorem engWrite_hpsvc {b : Byte} (h : EngMay s e 0x3400 true) : engWrite e 0x3400 1 b.toNat s = svcWrite e.val b.toNat s := by
  have hv : b.toNat % 256 = b.toNat := Nat.mod_eq_of_lt b.isLt
  rw [engWrite_byte (b := 0x3400) (r := 15) h rfl rfl rfl, hv]
  rfl

/-! ### HPSVC (R291) -/

/-- Adding a power of two sets its clear bit and no other. -/
theorem testBit_add_two_pow {v i : Nat} (h : v.testBit i = false) (j : Nat) :
    (v + 2 ^ i).testBit j = if j = i then true else v.testBit j := by
  rcases lt_trichotomy j i with hj | rfl | hj
  · rw [Nat.add_comm, Nat.testBit_two_pow_add_gt hj, if_neg hj.ne]
  · rw [Nat.add_comm, Nat.testBit_two_pow_add_eq, h, if_pos rfl]; rfl
  · obtain ⟨k, rfl⟩ := Nat.exists_eq_add_of_lt hj
    have hq : (v + 2 ^ i) / 2 ^ (i + 1) = v / 2 ^ (i + 1) := by
      rw [Nat.pow_succ, ← Nat.div_div_eq_div_mul, ← Nat.div_div_eq_div_mul, Nat.add_div_right _ (Nat.two_pow_pos i)]
      simp only [Nat.testBit_eq_decide_div_mod_eq, decide_eq_false_iff_not] at h
      omega
    have he : i + k + 1 = k + (i + 1) := by omega
    rw [if_neg hj.ne', he, ← Nat.testBit_div_two_pow, ← Nat.testBit_div_two_pow, hq]

/-- What setBit does: bit i takes b, and every other bit stays. -/
theorem testBit_setBit (v i j : Nat) (b : Bool) : (setBit v i b).testBit j = if j = i then b else v.testBit j := by
  unfold setBit
  by_cases hv : v.testBit i = true
  · have hw : 2 ^ i + (v - 2 ^ i) = v := Nat.add_sub_cancel' (Nat.ge_two_pow_of_testBit hv)
    cases b with
    | true => by_cases hj : j = i <;> simp [hv, hj]
    | false =>
      have hc : (v - 2 ^ i).testBit i = false := by
        rw [← hw, Nat.testBit_two_pow_add_eq] at hv
        simpa using hv
      have ha := testBit_add_two_pow hc j
      rw [Nat.add_comm, hw] at ha
      by_cases hj : j = i
      · simp [hv, hj, hc]
      · simp [hv, hj, ha]
  · rw [Bool.not_eq_true] at hv
    cases b with
    | true => simp [hv, testBit_add_two_pow hv]
    | false => by_cases hj : j = i <;> simp [hv, hj]

/-- One port's step of a write of HPSVC: its SVC bit, and HINTS.SVC where the bit changes. -/
def svcWriteBit (by_ v : Nat) (s : State) (p : Port) : State :=
  let s1 := { s with hsh := { s.hsh with
    svc := setBit s.hsh.svc p.val (v.testBit p.val), svcBy := if v.testBit p.val then s.hsh.svcBy.set p by_ else s.hsh.svcBy } }
  if s.hsh.svc.testBit p.val = v.testBit p.val then s1 else setHintP p 14 s1

theorem svcWrite_eq (by_ v : Nat) : svcWrite by_ v s = svcWriteBit by_ v (svcWriteBit by_ v s 0) 1 := rfl

theorem svcWriteBit_svc (by_ v : Nat) (p : Port) (j : Nat) :
    (svcWriteBit by_ v s p).hsh.svc.testBit j = if j = p.val then v.testBit j else s.hsh.svc.testBit j := by
  have h : (svcWriteBit by_ v s p).hsh.svc = setBit s.hsh.svc p.val (v.testBit p.val) := by
    unfold svcWriteBit
    dsimp only
    split <;> rfl
  rw [h, testBit_setBit]
  split
  · next hj => rw [hj]
  · rfl

theorem svcWriteBit_hints (by_ v : Nat) (p : Port) : (svcWriteBit by_ v s p).hp[p].sel.hints
    = if v.testBit p.val = s.hsh.svc.testBit p.val then s.hp[p].sel.hints else s.hp[p].sel.hints ||| 0x4000#16 := by
  unfold svcWriteBit
  by_cases h : v.testBit p.val = s.hsh.svc.testBit p.val
  · simp only [h, if_true]
  · simp only [h, Ne.symm h, if_false, setHintP, putPort_self]
    rfl

theorem svcWriteBit_hp_ne (by_ v : Nat) {p n : Port} (h : n ≠ p) : (svcWriteBit by_ v s p).hp[n] = s.hp[n] := by
  unfold svcWriteBit
  dsimp only
  split
  · rfl
  · rw [setHintP, putPort_ne _ _ _ _ h]

theorem svcWrite_svc (by_ v : Nat) (n : Port) : (svcWrite by_ v s).hsh.svc.testBit n.val = v.testBit n.val := by
  rw [svcWrite_eq, svcWriteBit_svc, svcWriteBit_svc]
  fin_cases n <;> rfl

theorem svcWrite_hints (by_ v : Nat) (n : Port) : (svcWrite by_ v s).hp[n].sel.hints
    = if v.testBit n.val = s.hsh.svc.testBit n.val then s.hp[n].sel.hints else s.hp[n].sel.hints ||| 0x4000#16 := by
  rw [svcWrite_eq]
  match n with
  | 0 => rw [svcWriteBit_hp_ne by_ v (by decide), svcWriteBit_hints]
  | 1 => rw [svcWriteBit_hints, svcWriteBit_svc, svcWriteBit_hp_ne by_ v (by decide)]; rfl

end Sys2Proof.Machine
end

section
/-! SUPPORT. The indirect window into SHM (07 R289). -/

namespace Sys2Proof.Machine

variable {p : Port} {priv : Bool} {q : PortSel} {s : State}

/-- The address in SHM that WINSEL and WINADR name (R289). -/
def winShm (q : PortSel) : Nat := fld q.winsel 8 8 * 65536 + q.winadr

/-- The select registers after a performed window access of n bytes: WINADR advances where WINSEL says so (R289). -/
def winStepped (q : PortSel) (n : Nat) : PortSel := if q.winsel.testBit 15 then { q with winadr := (q.winadr + n) % 65536 } else q

theorem winBytes_byte (hs : fld q.winsel 11 10 = 2) (hb : q.winsel.testBit 9 = true) : winBytes q = [winShm q] := by
  simp [winBytes, winShm, hs, hb]

theorem winBytes_word (hs : fld q.winsel 11 10 = 2) (hb : q.winsel.testBit 9 = false) :
    winBytes q = [winShm q, (winShm q + 1) % 131072] := by
  simp [winBytes, winShm, hs, hb]

theorem winGet_shm (hs : fld q.winsel 11 10 = 2) (a : Nat) (again : Bool) : winGet p priv q a s again = some (s, shmByte s a) := by
  simp [winGet, hs]

theorem winPut_shm (hs : fld q.winsel 11 10 = 2) (a v : Nat) (same : Bool) : winPut p priv q a v s same = (shmPut a v s, 0) := by
  simp [winPut, hs]

theorem putSel_self : putSel p s.hp[p].sel s = s := by
  have h : putPort p s.hp[p] s = s := by simp [putPort]
  exact h

/-- A performed access steps WINADR by the bytes that WINSEL asks for. -/
theorem winNext_eq {n : Nat} (hb : (if s.hp[p].sel.winsel.testBit 9 then 1 else 2) = n) :
    winNext p s = putSel p (winStepped s.hp[p].sel n) s := by
  simp only [winNext, winStepped, hb]
  split
  · rfl
  · rw [putSel_self]

/-- The checks of a window access do not look at the port's buffer. -/
theorem winCheck_bufFree (wr : Bool) : winCheck (bufFree p s) p wr = winCheck s p wr := by
  simp only [winCheck, bufFree_sel]
  rfl

theorem windatRead_byte (hc : winCheck s p false = 0) (hs : fld s.hp[p].sel.winsel 11 10 = 2) (hb : s.hp[p].sel.winsel.testBit 9 = true) :
    windatRead p priv s = (putSel p (winStepped s.hp[p].sel 1) s, .ok (shmByte s (winShm s.hp[p].sel))) := by
  rw [← winNext_eq (by rw [hb]; rfl)]
  simp only [windatRead, hc, winBytes_byte hs hb, winGet_shm hs, ne_eq, not_true, if_false]

theorem windatRead_word (hc : winCheck s p false = 0) (hs : fld s.hp[p].sel.winsel 11 10 = 2) (hb : s.hp[p].sel.winsel.testBit 9 = false) :
    windatRead p priv s = (putSel p (winStepped s.hp[p].sel 2) s,
      .ok (shmByte s (winShm s.hp[p].sel) + 256 * shmByte s ((winShm s.hp[p].sel + 1) % 131072))) := by
  rw [← winNext_eq (by rw [hb]; rfl)]
  simp only [windatRead, hc, winBytes_word hs hb, winGet_shm hs, ne_eq, not_true, if_false]

theorem windatWrite_byte {v : Nat} (hc : winCheck s p true = 0) (hs : fld s.hp[p].sel.winsel 11 10 = 2)
    (hb : s.hp[p].sel.winsel.testBit 9 = true) :
    windatWrite p priv v s = (shmPut (winShm s.hp[p].sel) (v % 256) (putSel p (winStepped s.hp[p].sel 1) s), 0) := by
  simp only [windatWrite, hc, winBytes_byte hs hb, winPut_shm hs, ne_eq, not_true, if_false, if_true]
  rw [winNext_eq (n := 1) (by simp only [shmPut, hb, if_true])]
  rfl

theorem windatWrite_word {v : Nat} (hc : winCheck s p true = 0) (hs : fld s.hp[p].sel.winsel 11 10 = 2)
    (hb : s.hp[p].sel.winsel.testBit 9 = false) :
    windatWrite p priv v s = (shmPut ((winShm s.hp[p].sel + 1) % 131072) (v / 256 % 256)
      (shmPut (winShm s.hp[p].sel) (v % 256) (putSel p (winStepped s.hp[p].sel 2) s)), 0) := by
  simp only [windatWrite, hc, winBytes_word hs hb, winPut_shm hs, ne_eq, not_true, if_false, if_true]
  rw [winNext_eq (n := 2) (by simp only [shmPut, hb]; rfl)]
  rfl

theorem hostRead_windat {x : PortSel} {d : Nat} (h : PortMay s p priv 0x3A false) (hr : windatRead p priv s = (putSel p x s, .ok d)) :
    hostRead p priv 0x3A s = portAnswered p x d s := by rw [hostRead_ok h hr, portData_putSel]

theorem hostWrite_windat_byte {v : Nat} (h : PortMay s p priv 0x3A true) (hc : winCheck s p true = 0)
    (hs : fld s.hp[p].sel.winsel 11 10 = 2) (hb : s.hp[p].sel.winsel.testBit 9 = true) :
    hostWrite p priv 0x3A v s = shmPut (winShm s.hp[p].sel) (v % 256) (portWrote p (winStepped s.hp[p].sel 1) s) := by
  rw [← bufFree_sel (p := p) (s := s)] at hs hb
  rw [← winCheck_bufFree] at hc
  rw [hostWrite_ok h (windatWrite_byte hc hs hb), putSel_bufFree, bufFree_sel]

theorem hostWrite_windat_word {v : Nat} (h : PortMay s p priv 0x3A true) (hc : winCheck s p true = 0)
    (hs : fld s.hp[p].sel.winsel 11 10 = 2) (hb : s.hp[p].sel.winsel.testBit 9 = false) :
    hostWrite p priv 0x3A v s = shmPut ((winShm s.hp[p].sel + 1) % 131072) (v / 256 % 256)
      (shmPut (winShm s.hp[p].sel) (v % 256) (portWrote p (winStepped s.hp[p].sel 2) s)) := by
  rw [← bufFree_sel (p := p) (s := s)] at hs hb
  rw [← winCheck_bufFree] at hc
  rw [hostWrite_ok h (windatWrite_word hc hs hb), putSel_bufFree, bufFree_sel]

end Sys2Proof.Machine
end

section
/-! CERTIFICATE. The registers of the ports and engines (00 R13; 07; 08 R304; 13 R442). -/

namespace Sys2Proof.Machine

/-- Settles O26: each clause is the lemma of its access, read off at the command that makes it. -/
theorem registerAccess : Obligations.RegisterAccess := by
  unfold Obligations.RegisterAccess
  refine ⟨fun p e priv adr v b i s => ⟨?hints, ?hinte, ?errinfo, ?mbsel, ?mbdataWrite, ?mbdataFirst, ?mbdataNext, ?refcntRead, ?refcntWrite,
    ?rfclr, ?hpsvc, ?scratchRead, ?scratchWrite, ?dsb, ?dsbReserved, ?dsbRead, ?boundary⟩, fun p priv v s hs => ⟨?windatRead, ?windatWrite⟩⟩
  case hints => exact fun h => congrArg Host.Outcome.next (hostWrite_hints h)
  case hinte => exact fun h => congrArg Host.Outcome.next (hostWrite_hinte h)
  case errinfo => exact fun h => congrArg Host.Outcome.next (hostRead_errinfo h)
  case mbsel => exact fun h => congrArg Host.Outcome.next (hostWrite_mbsel h)
  case mbdataWrite => exact fun h ha => congrArg Host.Outcome.next (hostWrite_mbdata h ha)
  case mbdataFirst => exact fun h ha hw => congrArg Host.Outcome.next (hostRead_mbdata h ha (mbDataRead_zero hw))
  case mbdataNext => exact fun h ha hw l hl => congrArg Host.Outcome.next (hostRead_mbdata h ha (mbDataRead_latched hw hl))
  case refcntRead => exact fun h => congrArg Host.Outcome.next (hostRead_refcnt h)
  case refcntWrite => exact fun h => congrArg Host.Outcome.next (hostWrite_refcnt h)
  case rfclr => exact fun h => congrArg Host.Outcome.next (engWrite_rfclr h)
  case hpsvc =>
    exact fun h => ⟨svcWrite e.val b.toNat s, congrArg Host.Outcome.next (engWrite_hpsvc h),
      fun n => ⟨svcWrite_svc e.val b.toNat n, svcWrite_hints e.val b.toNat n⟩⟩
  case scratchRead => exact fun k hk h => congrArg Host.Outcome.next (hk ▸ hostRead_scratch h)
  case scratchWrite => exact fun k hk h hr => congrArg Host.Outcome.next (hk ▸ hostWrite_scratch h hr)
  case dsb => exact fun h hv => congrArg Host.Outcome.next ((engWrite_dsb h).trans (by rw [if_neg (Nat.not_le.mpr hv)]))
  case dsbReserved => exact fun h hv => congrArg Host.Outcome.next ((engWrite_dsb h).trans (by rw [if_pos hv]))
  case dsbRead =>
    intro h
    obtain ⟨y, hy, hv⟩ := engRead_dsb h
    exact ⟨y, congrArg _ hy, hv⟩
  case boundary =>
    exact fun hr a n x f => ⟨(engWrite_govPast hr a n x).symm, (engRead_govPast hr a n).symm, (engAct_govPast hr a x f).symm⟩
  case windatRead =>
    exact fun h hc => ⟨fun hb => congrArg Host.Outcome.next (hostRead_windat h (windatRead_byte hc hs hb)),
      fun hb => congrArg Host.Outcome.next (hostRead_windat h (windatRead_word hc hs hb))⟩
  case windatWrite =>
    have hv : v.toNat / 256 % 256 = v.toNat / 256 := Nat.mod_eq_of_lt (Nat.div_lt_of_lt_mul v.isLt)
    exact fun h hc => ⟨fun hb => congrArg Host.Outcome.next (hostWrite_windat_byte h hc hs hb),
      fun hb => congrArg Host.Outcome.next ((hostWrite_windat_word h hc hs hb).trans (by rw [hv]; rfl))⟩

end Sys2Proof.Machine
end

section
/-! SUPPORT. A reset source that becomes active (12 R401, R402, R409): what it leaves of the state, and that no output is driven with
every domain off (00 R21). -/

namespace Sys2Proof.Machine

variable {s t : State}

/-! ### Outputs -/

/-- With no domain on, no output is driven (R21). -/
theorem padOf_off (h : t.dct.on = 0) (d : Nat) (bank : Bool) (l : Pin) : padOf t d bank l = .hiZ := by
  simp [padOf, domOn, h]

theorem sinkCode_off (h : t.dct.on = 0) (k x : Nat) (g : Int) : sinkCode t k x g = 0 := by
  simp [sinkCode, domOn, h]

@[simp] theorem portsFloat_driven (p : Port) : (portsFloat s).hp[p].driven = false := by simp [portsFloat]

/-! ### Sources -/

/-- What source k, as it becomes active, makes of state s (R401, R402): its bit and the history, no domain on, no output driven, and
the RTC, the Field Book and the flash as they were. -/
def SourceStops (k hist : Nat) (s t : State) : Prop :=
  t.rst = { s.rst with active := setBit s.rst.active k true, hist := hist, drst := t.rst.drst, step := 0 } ∧ t.dct.on = 0
  ∧ (∀ (p : Port) (n : Nat), t.hp[p].driven = false ∧ rdyPin t p = .hiZ ∧ intPin t p = .hiZ ∧ errPin t p = .hiZ ∧ ∀ rd, dPin t p n rd = .hiZ)
  ∧ (∀ n x y : Nat, psPin t n = .hiZ ∧ cgPin t n x y = .hiZ ∧ kdPin t n = .hiZ ∧ lsgPin t n x = .hiZ ∧ sinkCode t n x = 0)
  ∧ (∀ (n : Fin 4) (b : Bool), gpioPin t n = .hiZ ∧ smbPin t n b = .hiZ ∧ tdoPin t b = .hiZ ∧ ∀ x, fanPin t n x = .hiZ ∧ lsyncPin t x = .hiZ)
  ∧ acgPin t = .hiZ ∧ batgPin t = .hiZ ∧ ltdoPin t = .hiZ
  ∧ (∀ (c : Fin 3) (n : Fin 8) (x : Nat) (b : Bool), railGate t c b = .hiZ ∧ esGate t n x b = .hiZ ∧ esDimPin t n x = .hiZ)
  ∧ t.rtc = s.rtc ∧ t.fbk = s.fbk ∧ t.fls = s.fls

/-- RSTHIST after source k has become active: a POR, a SHIPWAKE and an exit from SHIP start it anew (R402). -/
def histAfter (s : State) (k : Nat) : Nat :=
  if k ≤ 1 ∨ (s.dct.mode = .ship ∧ 2 ≤ s.rst.step) then s.rst.active ||| 2 ^ k else s.rst.hist ||| 2 ^ k

theorem histAfter_keeps {k : Nat} (hk : 2 ≤ k) (h : s.dct.mode = .ship → s.rst.step < 2) : histAfter s k = s.rst.hist ||| 2 ^ k := by
  unfold histAfter
  rw [if_neg]
  rintro (h1 | ⟨h1, h2⟩)
  · omega
  · have := h h1
    omega

/-- A source acts in SHIP only where it is POR, SHIPWAKE or RESET_N, or XFAIL in step 1 of the exit (R401, R403). -/
def SourceActs (s : State) (k : Nat) : Prop := s.dct.mode = .ship → k ≤ 2 ∨ (k = 4 ∧ s.rst.step = 1)

theorem resetAssert_acts {k : Nat} (h : SourceActs s k) : resetAssert (k + 1) s = portsFloat { s with
    rst := { s.rst with active := setBit s.rst.active k true, hist := histAfter s k, step := 0 }
    dct := { s.dct with on := 0, phase := .idle, d7 := none } } := by
  have hc : (s.dct.mode = .ship && 4 ≤ k + 1 && !(k + 1 = 5 && s.rst.step = 1)) = false := by
    by_cases hm : s.dct.mode = .ship
    · rcases h hm with hk | ⟨rfl, hst⟩
      · have : ¬ 4 ≤ k + 1 := by omega
        simp [this]
      · simp [hst]
    · simp [hm]
  have hh : (k + 1 ≤ 2 || s.dct.mode = .ship && decide (2 ≤ s.rst.step)) = decide (k ≤ 1 ∨ (s.dct.mode = .ship ∧ 2 ≤ s.rst.step)) := by
    simp
  simp only [resetAssert, hc, hh, histAfter, Nat.add_sub_cancel, decide_eq_true_eq, Bool.false_eq_true, if_false]

theorem resetAssert_ignored {k : Nat} (hm : s.dct.mode = .ship) (hk : 3 ≤ k) (hx : ¬ (k = 4 ∧ s.rst.step = 1)) :
    resetAssert (k + 1) s = s := by
  have hk' : 4 ≤ k + 1 := by omega
  have hx' : ¬ k = 4 ∨ ¬ s.rst.step = 1 := not_and_or.mp hx
  unfold resetAssert
  rw [if_pos]
  simpa [hm, hk'] using hx'

theorem sourceStops_of_off {k hist : Nat}
    (hr : t.rst = { s.rst with active := setBit s.rst.active k true, hist := hist, drst := t.rst.drst, step := 0 })
    (ho : t.dct.on = 0) (hp : ∀ p : Port, t.hp[p].driven = false) (hk : t.rtc = s.rtc ∧ t.fbk = s.fbk ∧ t.fls = s.fls) :
    SourceStops k hist s t := by
  have pad := padOf_off ho
  have sink := sinkCode_off ho
  refine ⟨hr, ho, fun p n => ⟨hp p, ?_⟩, fun n x y => ?_, fun n b => ?_, pad _ _ _, pad _ _ _, pad _ _ _, fun c n x b => ?_, hk⟩
  · exact ⟨pad _ _ _, pad _ _ _, pad _ _ _, fun rd => pad _ _ _⟩
  · exact ⟨pad _ _ _, pad _ _ _, pad _ _ _, pad _ _ _, sink _ _ _⟩
  · exact ⟨pad _ _ _, pad _ _ _, pad _ _ _, fun x => ⟨pad _ _ _, pad _ _ _⟩⟩
  · exact ⟨pad _ _ _, pad _ _ _, pad _ _ _⟩

theorem resetAssert_stops {k : Nat} (h : SourceActs s k) : SourceStops k (histAfter s k) s (resetAssert (k + 1) s) := by
  rw [resetAssert_acts h]
  exact sourceStops_of_off rfl rfl portsFloat_driven ⟨rfl, rfl, rfl⟩

/-! ### The device reset command (R409) -/

theorem engWrite_drst {e : Eng} {v : Nat} (h : EngMay s e 0x182C true) (hv : v < 256) :
    engWrite e 0x182C 1 v s = drstWrite e.val v (s.prt.eflags[e].testBit 0) s := by
  rw [engWrite_byte (b := 0x1800) (r := 7) h rfl rfl rfl, Nat.mod_eq_of_lt hv]
  rfl

/-- The two writes of one engine that holds the remap right are the device reset command. -/
theorem engWrite_drst_twice {e : Eng} (h : EngMay s e 0x182C true) (hr : s.prt.eflags[e].testBit 0 = true) :
    engWrite e 0x182C 1 0x5D (engWrite e 0x182C 1 0xD5 s) = resetAssert 6 { s with rst := { s.rst with drst := none } } := by
  have h1 : engWrite e 0x182C 1 0xD5 s = { s with rst := { s.rst with drst := some e.val } } := by
    rw [engWrite_drst h (by decide)]
    rfl
  have h2 : EngMay { s with rst := { s.rst with drst := some e.val } } e 0x182C true := h
  rw [h1, engWrite_drst h2 (by decide), hr]
  simp [drstWrite]

/-! ### The sources, each with its history -/

theorem powerOn_stops : SourceStops 0 (s.rst.active ||| 1) s (resetAssert 1 s) :=
  resetAssert_stops (k := 0) (fun _ => .inl (by decide))

theorem resetPin_stops :
    SourceStops 2 (if s.dct.mode = .ship ∧ 2 ≤ s.rst.step then s.rst.active ||| 4 else s.rst.hist ||| 4) s (resetAssert 3 s) := by
  have h := resetAssert_stops (s := s) (k := 2) (fun _ => .inl (by decide))
  have hh : histAfter s 2 = if s.dct.mode = .ship ∧ 2 ≤ s.rst.step then s.rst.active ||| 4 else s.rst.hist ||| 4 := by simp [histAfter]
  rwa [hh] at h

/-- Outside of SHIP every source acts, and adds its bit to the history. -/
theorem source_stops {k : Nat} (hk : 2 ≤ k) (hm : s.dct.mode ≠ .ship) :
    SourceStops k (s.rst.hist ||| 2 ^ k) s (resetAssert (k + 1) s) := by
  rw [← histAfter_keeps hk (fun h => absurd h hm)]
  exact resetAssert_stops (fun h => absurd h hm)

theorem deviceReset_stops {e : Eng} (h : EngMay s e 0x182C true) (hr : s.prt.eflags[e].testBit 0 = true) (hm : s.dct.mode ≠ .ship) :
    SourceStops 5 (s.rst.hist ||| 32) s (engWrite e 0x182C 1 0x5D (engWrite e 0x182C 1 0xD5 s)) := by
  rw [engWrite_drst_twice h hr]
  exact source_stops (s := { s with rst := { s.rst with drst := none } }) (k := 5) (by decide) hm

theorem xfail_exit_stops (hst : s.rst.step = 1) : SourceStops 4 (s.rst.hist ||| 16) s (resetAssert 5 s) := by
  have h := resetAssert_stops (s := s) (k := 4) (fun _ => .inr ⟨rfl, hst⟩)
  rwa [histAfter_keeps (by decide) (fun _ => by omega)] at h

end Sys2Proof.Machine
end

section
/-! SUPPORT. The reset sequence (12 R403): its steps, one after the other, and what each leaves as it was. -/

namespace Sys2Proof.Machine

/-! ### A domain that comes up -/

variable {s t u : State} {ring nvm : List Nat}

/-- What a domain that comes up leaves alone: D0 and the blocks that it does not hold (R423). -/
theorem domReset_eq (d : Nat) (s : State) : domReset d s = { s with
    svy := (domReset d s).svy, ksc := (domReset d s).ksc, lgt := (domReset d s).lgt, lgb := (domReset d s).lgb, hp := (domReset d s).hp
    hsh := (domReset d s).hsh, mbx := (domReset d s).mbx, lck := (domReset d s).lck, cpy := (domReset d s).cpy, eng := (domReset d s).eng
    emem := (domReset d s).emem, shm := (domReset d s).shm, io := (domReset d s).io } := by
  unfold domReset
  dsimp only
  split_ifs <;> rfl

/-- The blocks of D0, the configuration and the board's side that outlast every domain that comes up. -/
structure SameD0 (s t : State) : Prop where
  pending : t.pending = s.pending
  fbk : t.fbk = s.fbk
  fls : t.fls = s.fls
  rtc : t.rtc = s.rtc
  prt : t.prt = s.prt
  chg : t.chg = s.chg
  tha : t.tha = s.tha
  bmk : t.bmk = s.bmk
  seq : t.seq = s.seq
  gpio : t.gpio = s.gpio
  trst : t.trst = s.trst

theorem SameD0.refl (s : State) : SameD0 s s := ⟨rfl, rfl, rfl, rfl, rfl, rfl, rfl, rfl, rfl, rfl, rfl⟩

theorem SameD0.trans (h : SameD0 s t) (k : SameD0 t u) : SameD0 s u :=
  ⟨k.pending.trans h.pending, k.fbk.trans h.fbk, k.fls.trans h.fls, k.rtc.trans h.rtc, k.prt.trans h.prt, k.chg.trans h.chg,
    k.tha.trans h.tha, k.bmk.trans h.bmk, k.seq.trans h.seq, k.gpio.trans h.gpio, k.trst.trans h.trst⟩

theorem resetUp_sameD0 (d : Nat) (s : State) : SameD0 s (resetUp d s) := by
  unfold resetUp
  rw [domReset_eq]
  exact ⟨rfl, rfl, rfl, rfl, rfl, rfl, rfl, rfl, rfl, rfl, rfl⟩

@[simp] theorem resetUp_rst (d : Nat) (s : State) : (resetUp d s).rst = s.rst := by
  unfold resetUp
  rw [domReset_eq]
  rfl

@[simp] theorem resetUp_clk (d : Nat) (s : State) : (resetUp d s).clk = s.clk := by
  unfold resetUp
  rw [domReset_eq]
  rfl

@[simp] theorem resetUp_dct (d : Nat) (s : State) : (resetUp d s).dct = { s.dct with on := s.dct.on ||| (1#8 <<< d) } := by
  unfold resetUp
  rw [domReset_eq]
  rfl

/-- The engines of a domain that comes up are in reset (R437). -/
@[simp] theorem resetUp_eng (d : Nat) (s : State) (n : Eng) : (resetUp d s).eng[n] = if engDom n.val = d then engHeld else s.eng[n] := by
  have h : engDom n.val = 3 ∨ engDom n.val = 4 := by unfold engDom; split <;> simp
  change (domReset d s).eng[n] = _
  by_cases hd : d = 3 ∨ d = 4
  · simp [domReset, hd, engsReset, ioForget]
  · have hn : engDom n.val ≠ d := fun e => hd (e ▸ h)
    rw [if_neg hn]
    unfold domReset
    dsimp only
    split_ifs <;> rfl

/-! ### The blocks of D3 to D7 at their reset values -/

/-- Every block of the domains that come up, and the Survey, at the reset value. -/
structure BlocksReset (s : State) : Prop where
  mbx : s.mbx = {}
  lck : s.lck = {}
  cpy : s.cpy = {}
  shm : s.shm = []
  lgt : s.lgt = {}
  svy : s.svy = {}
  emem : ∀ e : Eng, s.emem[e] = {}
  enc : ∀ n : Fin 4, s.ksc.enc[n].count = 0

theorem resetUp_svy (d : Nat) (s : State) :
    (resetUp d s).svy = { s.svy with words := alKeep s.svy.words (fun b => !(domSnaps d).contains b) } := by
  unfold resetUp domReset
  dsimp only
  split_ifs <;> rfl

/-- The engines of a domain that comes up lose nothing of a mailbox unit in reset. -/
theorem engsReset_mbx (d : Nat) (h : s.mbx = {}) : (engsReset d s).mbx = {} := by
  have he : Vector.ofFn (fun n : Fin 6 => if engDom n.val = d then { s.mbx.eng[n] with buf := [] } else s.mbx.eng[n])
      = ({} : Mbx).eng := by
    ext1 n hn
    rw [Vector.getElem_ofFn, h]
    interval_cases n <;> simp
  unfold engsReset
  dsimp only
  rw [he, h]

theorem engsReset_emem (d : Nat) (h : ∀ e : Eng, s.emem[e] = {}) (e : Eng) : (engsReset d s).emem[e] = {} := by
  have he : s.emem[e.val] = {} := h e
  simp [engsReset, he]

/-- A domain that comes up leaves reset blocks reset. -/
theorem resetUp_blocks (d : Nat) (h : BlocksReset s) : BlocksReset (resetUp d s) := by
  obtain ⟨hmbx, hlck, hcpy, hshm, hlgt, hsvy, hemem, henc⟩ := h
  have hw : (resetUp d s).svy = {} := by
    rw [resetUp_svy, hsvy]
    rfl
  unfold resetUp domReset at hw ⊢
  dsimp only at hw ⊢
  split_ifs at hw ⊢ with h34 h5 h6 h7
  · exact ⟨engsReset_mbx d hmbx, hlck, hcpy, hshm, hlgt, hw, engsReset_emem d hemem, henc⟩
  · exact ⟨hmbx, hlck, hcpy, hshm, hlgt, hw, hemem, fun n => by simp only [domUp, keyselReset, Fin.getElem_fin, Vector.getElem_map]⟩
  · exact ⟨hmbx, hlck, hcpy, hshm, rfl, hw, hemem, henc⟩
  · exact ⟨rfl, rfl, rfl, rfl, hlgt, hw, hemem, henc⟩
  · exact ⟨hmbx, hlck, hcpy, hshm, hlgt, hw, hemem, henc⟩

/-! ### The steps -/

theorem SameD0.withRst (h : SameD0 s t) (r : Rst) : SameD0 s { t with rst := r } :=
  ⟨h.pending, h.fbk, h.fls, h.rtc, h.prt, h.chg, h.tha, h.bmk, h.seq, h.gpio, h.trst⟩

theorem BlocksReset.withRst (h : BlocksReset s) (r : Rst) : BlocksReset { s with rst := r } :=
  ⟨h.mbx, h.lck, h.cpy, h.shm, h.lgt, h.svy, h.emem, h.enc⟩

/-- The steps that power domains: 3 powers D7 and D3, 6 the others. -/
theorem resetStep_three : resetStep ring nvm 3 s = { resetUp 3 (resetUp 7 s) with rst := { s.rst with step := 3 } } := by
  have h : resetStep ring nvm 3 s = { resetUp 3 (resetUp 7 s) with rst := { (resetUp 3 (resetUp 7 s)).rst with step := 3 } } := rfl
  rw [h, resetUp_rst, resetUp_rst]

theorem resetStep_four : resetStep ring nvm 4 s
    = { s with clk := { s.clk with ckPll := true, pllOn := true, lock := true }, rst := { s.rst with step := 4 } } := rfl

theorem resetStep_five : resetStep ring nvm 5 s
    = { putEng 0 { run := .running, rom := true, role := 0 } s with rst := { s.rst with step := 5 } } := rfl

theorem resetStep_six : resetStep ring nvm 6 s
    = { resetUp 6 (resetUp 5 (resetUp 4 (resetUp 2 (resetUp 1 s)))) with rst := { s.rst with step := 6 } } := by
  have h : resetStep ring nvm 6 s = { resetUp 6 (resetUp 5 (resetUp 4 (resetUp 2 (resetUp 1 s)))) with
      rst := { (resetUp 6 (resetUp 5 (resetUp 4 (resetUp 2 (resetUp 1 s))))).rst with step := 6 } } := rfl
  rw [h]
  simp only [resetUp_rst]

/-- The state that the first k steps leave. -/
def resetSteps (ring nvm : List Nat) : Nat → State → State
  | 0, s => s
  | k + 1, s => resetStep ring nvm (k + 1) (resetSteps ring nvm k s)

/-- What every step from the third to the last keeps, each step shown to keep it. -/
theorem resetSteps_keep {P : State → Prop} (h2 : P (resetSteps ring nvm 2 s)) (hrst : ∀ t r, P t → P { t with rst := r })
    (hup : ∀ t d, P t → P (resetUp d t)) (hclk : ∀ t c, P t → P { t with clk := c }) (heng : ∀ t q, P t → P (putEng 0 q t)) :
    ∀ k ∈ [2, 3, 4, 5, 6], P (resetSteps ring nvm k s) := by
  have h3 : P (resetSteps ring nvm 3 s) := by
    rw [resetSteps, resetStep_three]
    exact hrst _ _ (hup _ _ (hup _ _ h2))
  have h4 : P (resetSteps ring nvm 4 s) := hrst _ _ (hclk _ _ h3)
  have h5 : P (resetSteps ring nvm 5 s) := hrst _ _ (heng _ _ h4)
  have h6 : P (resetSteps ring nvm 6 s) := by
    rw [resetSteps, resetStep_six]
    exact hrst _ _ (hup _ _ (hup _ _ (hup _ _ (hup _ _ (hup _ _ h5)))))
  simp [h2, h3, h4, h5, h6]

theorem resetSteps_sameD0 : ∀ k ∈ [2, 3, 4, 5, 6], SameD0 (resetSteps ring nvm 2 s) (resetSteps ring nvm k s) :=
  resetSteps_keep (P := SameD0 (resetSteps ring nvm 2 s)) (.refl _) (fun _ r h => h.withRst r) (fun t d h => h.trans (resetUp_sameD0 d t))
    (fun _ _ h => ⟨h.pending, h.fbk, h.fls, h.rtc, h.prt, h.chg, h.tha, h.bmk, h.seq, h.gpio, h.trst⟩)
    (fun _ _ h => ⟨h.pending, h.fbk, h.fls, h.rtc, h.prt, h.chg, h.tha, h.bmk, h.seq, h.gpio, h.trst⟩)

theorem resetStep2_blocks : BlocksReset (resetStep2 ring nvm s) := by
  refine ⟨rfl, rfl, rfl, rfl, rfl, rfl, fun e => ?_, fun n => ?_⟩
  · fin_cases e <;> rfl
  · simp only [resetStep2, portsFloat, Fin.getElem_fin, Vector.getElem_map]

theorem resetSteps_blocks : ∀ k ∈ [2, 3, 4, 5, 6], BlocksReset (resetSteps ring nvm k s) :=
  resetSteps_keep resetStep2_blocks (fun _ r h => h.withRst r) (fun _ d h => resetUp_blocks d h)
    (fun _ _ h => ⟨h.mbx, h.lck, h.cpy, h.shm, h.lgt, h.svy, h.emem, h.enc⟩)
    (fun _ _ h => ⟨h.mbx, h.lck, h.cpy, h.shm, h.lgt, h.svy, h.emem, h.enc⟩)

/-! ### Reset and boot registers, domains, clock and engines -/

/-- The reset registers from step 2 on: those of step 2, with the step that has ended. -/
theorem resetSteps_rst : ∀ k ∈ [2, 3, 4, 5, 6], (resetSteps ring nvm k s).rst = { (resetSteps ring nvm 2 s).rst with step := k } := by
  have h3 : (resetSteps ring nvm 3 s).rst = { (resetSteps ring nvm 2 s).rst with step := 3 } := by rw [resetSteps, resetStep_three]
  have h4 : (resetSteps ring nvm 4 s).rst = { (resetSteps ring nvm 2 s).rst with step := 4 } := by rw [resetSteps, resetStep_four, h3]
  have h5 : (resetSteps ring nvm 5 s).rst = { (resetSteps ring nvm 2 s).rst with step := 5 } := by rw [resetSteps, resetStep_five, h4]
  have h6 : (resetSteps ring nvm 6 s).rst = { (resetSteps ring nvm 2 s).rst with step := 6 } := by rw [resetSteps, resetStep_six, h5]
  simp only [List.mem_cons, List.not_mem_nil, or_false]
  rintro k (rfl | rfl | rfl | rfl | rfl)
  exacts [rfl, h3, h4, h5, h6]

theorem resetSteps_dct_two : (resetSteps ring nvm 2 s).dct = { on := 0x01#8 } := rfl

/-- D0, D3 and D7 are on from step 3 on. -/
theorem resetSteps_dct_three : ∀ k ∈ [3, 4, 5], (resetSteps ring nvm k s).dct = { on := 0x89#8 } := by
  have h3 : (resetSteps ring nvm 3 s).dct = { on := 0x89#8 } := by
    rw [resetSteps, resetStep_three]
    simp [resetSteps_dct_two]
  have h4 : (resetSteps ring nvm 4 s).dct = { on := 0x89#8 } := by rw [resetSteps, resetStep_four, h3]
  have h5 : (resetSteps ring nvm 5 s).dct = { on := 0x89#8 } := by
    rw [resetSteps, resetStep_five]
    exact h4
  simp only [List.mem_cons, List.not_mem_nil, or_false]
  rintro k (rfl | rfl | rfl)
  exacts [h3, h4, h5]

/-- Every domain is on from step 6 on. -/
theorem resetSteps_dct_six : (resetSteps ring nvm 6 s).dct = {} := by
  rw [resetSteps, resetStep_six]
  simp [resetSteps_dct_three]

theorem resetSteps_clk_six : (resetSteps ring nvm 6 s).clk = {} := by
  have h3 : (resetSteps ring nvm 3 s).clk = { ckPll := false, pllOn := false, lock := false } := by
    rw [resetSteps, resetStep_three]
    simp only [resetUp_clk]
    rfl
  have h4 : (resetSteps ring nvm 4 s).clk = {} := by rw [resetSteps, resetStep_four, h3]
  have h5 : (resetSteps ring nvm 5 s).clk = {} := by
    rw [resetSteps, resetStep_five]
    exact h4
  rw [resetSteps, resetStep_six]
  simp only [resetUp_clk, h5]

/-- Every engine is in reset up to the end of step 4. -/
theorem resetSteps_eng_held (n : Eng) : ∀ k ∈ [2, 3, 4], (resetSteps ring nvm k s).eng[n] = {} := by
  have h2 : (resetSteps ring nvm 2 s).eng[n] = {} := by
    change (Vector.replicate 6 ({} : Ceng))[n] = {}
    simp
  have h3 : (resetSteps ring nvm 3 s).eng[n] = {} := by
    rw [resetSteps, resetStep_three]
    simp only [resetUp_eng, h2, engHeld, ite_self]
  have h4 : (resetSteps ring nvm 4 s).eng[n] = {} := by
    rw [resetSteps, resetStep_four]
    exact h3
  simp only [List.mem_cons, List.not_mem_nil, or_false]
  rintro k (rfl | rfl | rfl)
  exacts [h2, h3, h4]

/-- CE0 as step 5 takes it out of reset, and the engines held (R403). -/
def engsBooted : Vector Ceng 6 := #v[{ run := .running, rom := true, role := 0 }, {}, {}, {}, {}, {}]

theorem engsBooted_ne : ∀ n : Eng, n ≠ 0 → engsBooted[n] = {} := by decide

theorem resetSteps_eng_five (n : Eng) : (resetSteps ring nvm 5 s).eng[n] = engsBooted[n] := by
  rw [resetSteps, resetStep_five]
  change (putEng 0 _ _).eng[n] = _
  by_cases hn : n = 0
  · subst hn
    exact putEng_eng_self 0 _ _
  · rw [putEng_eng_ne hn, resetSteps_eng_held n 4 (by decide), engsBooted_ne n hn]

theorem resetSteps_eng_six (n : Eng) : (resetSteps ring nvm 6 s).eng[n] = engsBooted[n] := by
  rw [resetSteps, resetStep_six]
  simp only [resetUp_eng, resetSteps_eng_five]
  by_cases hn : n = 0
  · subst hn
    rfl
  · simp only [engsBooted_ne n hn, engHeld, ite_self]

end Sys2Proof.Machine
end

section
/-! SUPPORT. The Field Book across a reset (14 R453, R454): the records and slots whose CHECK fails are gone. -/

namespace Sys2Proof.Machine

variable {s : State} {ring nvm : List Nat} {q : Fbk}

/-- No record waits to be counted as lost, and none of the ring bears a SEQ of the list. -/
def RingWithout (bad : List Nat) (q : Fbk) : Prop := q.drops = 0 ∧ ∀ x ∈ q.ring, x.r.seq.toNat ∉ bad

theorem floorRaise_ring (q : Fbk) : (floorRaise q).ring = q.ring := by unfold floorRaise; split <;> rfl

theorem floorRaise_drops (q : Fbk) : (floorRaise q).drops = q.drops := by unfold floorRaise; split <;> rfl

theorem floorRaise_without {bad : List Nat} (h : RingWithout bad q) : RingWithout bad (floorRaise q) := by
  obtain ⟨hd, hr⟩ := h
  exact ⟨by rw [floorRaise_drops, hd], by rwa [floorRaise_ring]⟩

theorem nvmPut_without {bad : List Nat} (k : Nat) (r : FbRec) (h : RingWithout bad q) : RingWithout bad (nvmPut k r q) := h

/-- With nothing counted as lost no OVERFLOW enters (R452). -/
theorem fbOverflow_none (h : s.fbk.drops = 0) : fbOverflow s = s := by simp [fbOverflow, h]

/-- A record that is marked as written keeps its SEQ. -/
theorem markWritten_without {bad : List Nat} (x : RingRec) (h : RingWithout bad q) : RingWithout bad { q with
    ring := q.ring.map (fun r => if r.r.seq = x.r.seq then { r with written := true } else r) } := by
  refine ⟨h.1, fun y hy => ?_⟩
  obtain ⟨z, hz, rfl⟩ := List.mem_map.mp hy
  have hs : (if z.r.seq = x.r.seq then { z with written := true } else z : RingRec).r.seq = z.r.seq := by split <;> rfl
  rw [hs]
  exact h.2 z hz

/-- A write-through that verifies takes no record into the ring. -/
theorem fbWriteThrough_without {bad : List Nat} (h : RingWithout bad s.fbk) : RingWithout bad (fbWriteThrough true true true s).fbk := by
  unfold fbWriteThrough
  dsimp only
  split
  · exact floorRaise_without h
  · next x _ =>
    have hq := floorRaise_without (nvmPut_without (floorRaise s.fbk).nvmSlot x.r (markWritten_without x (floorRaise_without h)))
    simp only [Bool.or_self, if_true]
    rw [fbOverflow_none hq.1]
    exact hq

theorem fbFlush_without {bad : List Nat} (h : RingWithout bad s.fbk) : RingWithout bad (fbFlush s).fbk := by
  unfold fbFlush
  generalize s.fbk.ring = l
  induction l generalizing s with
  | nil => exact h
  | cons x l ih => exact ih (fbWriteThrough_without h)

theorem fbReboot_nvm (full : Bool) : ∀ x ∈ (fbReboot full ring nvm s).nvm, x.1 ∉ nvm := by
  intro x hx
  have hm := (List.mem_filter.mp hx).2
  simpa using hm

theorem fbReboot_ring_full : (fbReboot true ring nvm s).ring = [] := rfl

theorem fbReboot_ring (full : Bool) : ∀ x ∈ (fbReboot full ring nvm s).ring, x.r.seq.toNat ∉ ring := by
  cases full with
  | true => exact fun x hx => absurd hx (List.not_mem_nil)
  | false =>
    have hk : RingWithout ring { s.fbk with drops := 0, ring := s.fbk.ring.filter (fun x => !ring.contains x.r.seq.toNat) } :=
      ⟨rfl, fun x hx => by simpa using (List.mem_filter.mp hx).2⟩
    exact (floorRaise_without (fbFlush_without (s := { s with fbk := { s.fbk with
      drops := 0, ring := s.fbk.ring.filter (fun x => !ring.contains x.r.seq.toNat) } }) hk)).2

end Sys2Proof.Machine
end

section
/-! SUPPORT. The reset sequence stopped after any step and gone on with (12 R401 to R403). -/

namespace Sys2Proof.Machine

variable {s : State} {ring nvm : List Nat}

/-! ### The sequence as its steps in order -/

/-- The steps that are yet to be taken: from the one reached to the last one asked for. -/
theorem upTo_six_filter : ∀ m ≤ 6, ∀ l ≤ 6,
    (upTo 6).filter (fun i => decide (m ≤ i) && decide (i < l)) = List.range' m (l - m) := by decide

theorem foldl_resetStep (m n : Nat) :
    (List.range' m n).foldl (fun s i => resetStep ring nvm (i + 1) s) (resetSteps ring nvm m s) = resetSteps ring nvm (m + n) s := by
  induction n generalizing m with
  | zero => rfl
  | succ n ih =>
    rw [List.range'_succ, List.foldl_cons]
    have h := ih (m + 1)
    rwa [show m + 1 + n = m + (n + 1) by omega] at h

/-- With a source active the sequence starts over. -/
theorem resetSequence_active {last : Nat} (ha : s.rst.active ≠ 0) (hl : last ≤ 6) :
    resetSequence last ring nvm s = resetSteps ring nvm last s := by
  have h := foldl_resetStep (ring := ring) (nvm := nvm) (s := s) 0 last
  simp only [resetSequence, ha, ne_eq, not_false_eq_true, if_true, upTo_six_filter 0 (by decide) last hl]
  simpa [resetSteps] using h

/-- With none active it goes on from the step that it has reached. -/
theorem resetSequence_resume {m last : Nat} (ha : (resetSteps ring nvm m s).rst.active = 0) (hs : (resetSteps ring nvm m s).rst.step = m)
    (hm : m ≤ last) (hl : last ≤ 6) : resetSequence last ring nvm (resetSteps ring nvm m s) = resetSteps ring nvm last s := by
  have h := foldl_resetStep (ring := ring) (nvm := nvm) (s := s) m (last - m)
  simp only [resetSequence, ha, hs, ne_eq, not_true, if_false, upTo_six_filter m (hm.trans hl) last hl]
  rwa [Nat.add_sub_cancel' hm] at h

/-- A sequence whose steps are all done does nothing. -/
theorem resetSequence_done {last : Nat} (ha : s.rst.active = 0) (hs : last ≤ s.rst.step) : resetSequence last ring nvm s = s := by
  have hf : (upTo 6).filter (fun i => decide (s.rst.step ≤ i) && decide (i < last)) = [] := by
    refine List.filter_eq_nil_iff.mpr fun i _ => ?_
    simp only [Bool.and_eq_true, decide_eq_true_eq]
    omega
  simp only [resetSequence, ha, ne_eq, not_true, if_false, hf, List.foldl_nil]

theorem resetSteps_two : resetSteps ring nvm 2 s = resetStep2 ring nvm (resetStep1 s) := rfl

theorem resetStep1_anyStep (k : Nat) : resetStep1 { s with rst := { s.rst with step := k } } = resetStep1 s := by simp only [resetStep1]

/-- Step 1 does not look at the step that had been reached. -/
theorem resetSteps_anyStep (k n : Nat) :
    resetSteps ring nvm (n + 1) { s with rst := { s.rst with step := k } } = resetSteps ring nvm (n + 1) s := by
  induction n with
  | zero => exact resetStep1_anyStep k
  | succ n ih => rw [resetSteps, ih, ← resetSteps]

/-- After k steps no source is active, and step k is the one that has ended. -/
theorem resetSteps_reached : ∀ k ∈ [1, 2, 3, 4, 5, 6],
    (resetSteps ring nvm k s).rst.active = 0 ∧ (resetSteps ring nvm k s).rst.step = k := by
  intro k hk
  rcases List.mem_cons.mp hk with rfl | hk
  · exact ⟨rfl, rfl⟩
  · rw [resetSteps_rst k hk]
    exact ⟨rfl, rfl⟩

/-! ### The cause (R402) -/

theorem testBit_of_lowestBit {n v c : Nat} (h : lowestBit n v = some c) : v.testBit c = true :=
  (List.mem_filter.mp (List.mem_of_head? h)).2

theorem ne_zero_of_lowestBit {n v c : Nat} (h : lowestBit n v = some c) : v ≠ 0 := by
  rintro rfl
  have hb := testBit_of_lowestBit h
  rw [Nat.zero_testBit] at hb
  contradiction

theorem lowestBit_le {n v c j : Nat} (h : lowestBit n v = some c) (hj : j < n) (hb : v.testBit j = true) : c ≤ j := by
  obtain ⟨l, hl⟩ := List.head?_eq_some_iff.mp h
  have hp : (bitsOf n v).Pairwise (· < ·) := List.pairwise_lt_range.filter _
  have hm : j ∈ bitsOf n v := List.mem_filter.mpr ⟨List.mem_range.mpr hj, hb⟩
  rw [hl] at hp hm
  rcases List.mem_cons.mp hm with rfl | hm
  · exact le_rfl
  · exact ((List.pairwise_cons.mp hp).1 j hm).le

theorem lowestBit_isSome {n v j : Nat} (hj : j < n) (hb : v.testBit j = true) : ∃ c, lowestBit n v = some c := by
  have hm : j ∈ bitsOf n v := List.mem_filter.mpr ⟨List.mem_range.mpr hj, hb⟩
  exact ⟨_, List.head?_eq_some_head (List.ne_nil_of_mem hm)⟩

/-- A start after which nothing of D0 outlasts the reset: a POR or SHIPWAKE is active, the device is in SHIP, or such a start has not
run step 2 yet (R401). -/
def FullStart (s : State) : Prop :=
  s.rst.active.testBit 0 = true ∨ s.rst.active.testBit 1 = true ∨ s.dct.mode = .ship ∨ s.rst.por = true

/-- The cause is POR or SHIPWAKE where one of these is among the sources. -/
theorem cause_le_two {c : Nat} (h : lowestBit 6 s.rst.active = some c) :
    c + 1 ≤ 2 ↔ s.rst.active.testBit 0 = true ∨ s.rst.active.testBit 1 = true := by
  constructor
  · intro hc
    have hb := testBit_of_lowestBit h
    obtain rfl | rfl : c = 0 ∨ c = 1 := by omega
    · exact .inl hb
    · exact .inr hb
  · rintro (hb | hb)
    · have := lowestBit_le h (by decide) hb
      omega
    · have := lowestBit_le h (by decide) hb
      omega

theorem resetStep1_cause {c : Nat} (h : lowestBit 6 s.rst.active = some c) : (resetStep1 s).rst.cause = c + 1 := by simp [resetStep1, h]

/-- Step 1 keeps in mind that a full start is due (R401). -/
theorem resetStep1_por (h : FullStart s) : (resetStep1 s).rst.por = true := by
  have hc : s.rst.active.testBit 0 = true ∨ s.rst.active.testBit 1 = true → (lowestBit 6 s.rst.active).getD 0 + 1 ≤ 2 := by
    intro hb
    obtain ⟨c, hl⟩ : ∃ c, lowestBit 6 s.rst.active = some c := hb.elim (lowestBit_isSome (by decide)) (lowestBit_isSome (by decide))
    rw [hl]
    exact (cause_le_two hl).mpr hb
  have hp : (resetStep1 s).rst.por = (s.rst.por || decide ((lowestBit 6 s.rst.active).getD 0 + 1 ≤ 2) || s.dct.mode = .ship) := rfl
  rw [hp]
  rcases h with h | h | h | h
  · simp [hc (.inl h)]
  · simp [hc (.inr h)]
  · simp [h]
  · simp [h]

/-- Step 2 takes nothing of D0 over (R401). -/
def startsAnew (s : State) : Bool := s.rst.por || decide (s.rst.cause ≤ 2) || s.dct.mode = .ship

/-- Where no full start is due and the cause is none of POR and SHIPWAKE, D0 outlasts the reset. -/
theorem startsAnew_iff {c : Nat} (h : lowestBit 6 s.rst.active = some c) : startsAnew (resetStep1 s) = true ↔ FullStart s := by
  have hp : (resetStep1 s).rst.por = (s.rst.por || decide (c + 1 ≤ 2) || s.dct.mode = .ship) := by simp [resetStep1, h]
  have hm : (resetStep1 s).dct = s.dct := rfl
  have hc := cause_le_two h
  simp only [startsAnew, hp, hm, resetStep1_cause h, Bool.or_eq_true, decide_eq_true_eq, FullStart]
  tauto

/-! ### A sequence that has been stopped -/

theorem resetSteps_on (k : Fin 6) (hk : 1 ≤ k.val) :
    (resetSteps ring nvm (k.val + 1) s).dct.on = if k.val = 1 then 0x01#8 else if k.val < 5 then 0x89#8 else 0xFF#8 := by
  match k with
  | 1 => exact congrArg Dct.on resetSteps_dct_two
  | 2 => exact congrArg Dct.on (resetSteps_dct_three 3 (by decide))
  | 3 => exact congrArg Dct.on (resetSteps_dct_three 4 (by decide))
  | 4 => exact congrArg Dct.on (resetSteps_dct_three 5 (by decide))
  | 5 => exact congrArg Dct.on resetSteps_dct_six

theorem resetSteps_run (k : Fin 6) (hk : 1 ≤ k.val) :
    (resetSteps ring nvm (k.val + 1) s).eng[(0 : Fin 6)].run = if k.val < 4 then .held else .running := by
  match k with
  | 1 => exact congrArg Ceng.run (resetSteps_eng_held 0 2 (by decide))
  | 2 => exact congrArg Ceng.run (resetSteps_eng_held 0 3 (by decide))
  | 3 => exact congrArg Ceng.run (resetSteps_eng_held 0 4 (by decide))
  | 4 => exact congrArg Ceng.run (resetSteps_eng_five 0)
  | 5 => exact congrArg Ceng.run (resetSteps_eng_six 0)

/-- HSTAT.MODE shows a change until the sequence ends (R403). -/
theorem hstatMode_before {t : State} (h : t.rst.step < 6) : hstatMode t = 2 := by simp [hstatMode, h]

theorem hstatMode_after {t : State} (h : t.rst.step = 6) (hd : t.dct = {}) : hstatMode t = 0 := by
  simp [hstatMode, dctCommitted, h, hd, modeCode]

theorem resetSteps_fbk : ∀ k ∈ [2, 3, 4, 5, 6],
    (resetSteps ring nvm k s).fbk = fbReboot (startsAnew (resetStep1 s)) ring nvm (resetStep1 s) :=
  fun k hk => (resetSteps_sameD0 k hk).fbk

theorem resetSteps_rtc : ∀ k ∈ [2, 3, 4, 5, 6],
    (resetSteps ring nvm k s).rtc = if startsAnew (resetStep1 s) then {} else { s.rtc with eng := {}, err := false } :=
  fun k hk => (resetSteps_sameD0 k hk).rtc

/-! ### The end of the sequence (R403, R404) -/

theorem padOf_hiZ (t : State) (d : Nat) (bank : Bool) : padOf t d bank .hiZ = .hiZ := ite_self _

theorem gpioPin_inputs {t : State} (h : t.gpio.oe = 0) (n : Fin 4) : gpioPin t n = .hiZ := by
  simp [gpioPin, h, padOf_hiZ]

theorem psPin_inputs {t : State} (h : t.seq.cfg.live = []) (n : Nat) : psPin t n = .hiZ := by
  have hl : seqLive t 0x20 = 0 := by rw [seqLive, h]; rfl
  simp [psPin, hl, padOf_hiZ]

/-- With no command of the flash controller cut short, the flash and the OTP are as they were. -/
theorem flsReboot_idle (h : s.fls.cmd = none) : flsReboot s = { mem := s.fls.mem, otpSvn := s.fls.otpSvn } := by
  simp only [flsReboot, h]

theorem resetSteps_fls (h : s.fls.cmd = none) : ∀ k ∈ [2, 3, 4, 5, 6],
    (resetSteps ring nvm k s).fls = { mem := s.fls.mem, otpSvn := s.fls.otpSvn } :=
  fun k hk => (resetSteps_sameD0 k hk).fls.trans (flsReboot_idle (s := resetStep1 s) h)

/-- The reset registers at the end of a sequence whose cause is source c. -/
theorem resetSteps_rst_six {c : Nat} (h : lowestBit 6 s.rst.active = some c) : (resetSteps ring nvm 6 s).rst
    = { step := 6, cause := c + 1, hist := s.rst.hist, shipsrc := if c + 1 = 2 then s.rst.shipsrc else 0 } := by
  rw [resetSteps_rst 6 (by decide), resetSteps_two, ← resetStep1_cause h]
  rfl

theorem resetSteps_eng : (resetSteps ring nvm 6 s).eng = engsBooted :=
  Vector.ext fun i hi => resetSteps_eng_six ⟨i, hi⟩

end Sys2Proof.Machine
end

section
/-! CERTIFICATE. The reset sources and the reset sequence (00 R21; 12 R401 to R404, R409; 14 R453, R454). -/

namespace Sys2Proof.Machine

/-- Settles O32: a source leaves what `SourceStops` says; the sequence is its steps in order, so a stop between two of them and a
source that starts it over lead to the same state, and each field is followed from the step that gives it its value. -/
theorem resets : Obligations.Resets := by
  unfold Obligations.Resets
  refine ⟨fun e s => ⟨?powerOn, ?pin, ?running, ?ship, ?command⟩, fun s c hc hf => ?whole, fun a b ring nvm s hab ha => ?stopped,
    fun b ring nvm s ha hs => ?done⟩
  case powerOn => exact ⟨_, rfl, powerOn_stops⟩
  case pin => exact ⟨_, rfl, resetPin_stops⟩
  case running =>
    exact fun hm => ⟨⟨_, rfl, source_stops (k := 3) (by decide) hm⟩, ⟨_, rfl, source_stops (k := 4) (by decide) hm⟩⟩
  case ship =>
    exact fun hm => ⟨fun hst => ⟨_, rfl, xfail_exit_stops hst⟩,
      fun hst => congrArg Host.Outcome.next (resetAssert_ignored (k := 4) hm (by decide) (fun h => hst h.2)),
      congrArg Host.Outcome.next (resetAssert_ignored (k := 3) hm (by decide) (fun h => absurd h.1 (by decide)))⟩
  case command => exact fun hm h hr => ⟨_, rfl, deviceReset_stops h hr hm⟩
  case whole =>
    have hend := resetSequence_active (last := 6) (ring := []) (nvm := []) (ne_zero_of_lowestBit hc) le_rfl
    have hrst := resetSteps_rst_six (ring := []) (nvm := []) hc
    have hd0 := resetSteps_sameD0 (s := s) (ring := []) (nvm := []) 6 (by decide)
    have hblk := resetSteps_blocks (s := s) (ring := []) (nvm := []) 6 (by decide)
    have hfls := resetSteps_fls (ring := []) (nvm := []) hf 6 (by decide)
    have hfbk := resetSteps_fbk (s := s) (ring := []) (nvm := []) 6 (by decide)
    have hrtc := resetSteps_rtc (s := s) (ring := []) (nvm := []) 6 (by decide)
    refine ⟨_, congrArg Host.Outcome.next hend, congrArg Rst.active hrst, congrArg Rst.step hrst, congrArg Rst.cause hrst,
      (congrArg Rst.hist hrst :), congrArg Rst.bootPhase hrst, congrArg Rst.sealed hrst, resetSteps_dct_six, resetSteps_clk_six, hd0.prt,
      hblk.mbx, hblk.lck, hblk.cpy, hblk.shm, hblk.lgt, hd0.chg, hd0.tha, hd0.bmk, hd0.seq, hblk.svy, resetSteps_eng, hblk.emem,
      fun n => ⟨gpioPin_inputs (congrArg Gpio.oe hd0.gpio) n, congrArg Gpio.pin hd0.gpio, hblk.enc n⟩,
      psPin_inputs (congrArg (fun q => q.cfg.live) hd0.seq), hd0.trst, (congrArg Fls.mem hfls :), (congrArg Fls.otpSvn hfls :),
      congrArg Fbk.bootno hfbk, hd0.pending, fun hn => ?keeps, fun hfull => ?anew⟩
    case keeps =>
      rw [hrtc, if_neg (mt (startsAnew_iff hc).mp hn)]
    case anew =>
      have hs := (startsAnew_iff hc).mpr hfull
      exact ⟨hrtc.trans (if_pos hs), by rw [hfbk, hs, fbReboot_ring_full]⟩
  case stopped =>
    have hseq (k : Fin 6) := resetSequence_active (last := k.val + 1) (ring := ring.map BitVec.toNat) (nvm := nvm.map BitVec.toNat)
      ha (by omega)
    have hmem : a.val + 1 ∈ [1, 2, 3, 4, 5, 6] := by simp only [List.mem_cons, List.not_mem_nil, or_false]; omega
    obtain ⟨hact, hstep⟩ := resetSteps_reached (s := s) (ring := ring.map BitVec.toNat) (nvm := nvm.map BitVec.toNat) (a.val + 1) hmem
    refine ⟨⟨_, congrArg Host.Outcome.next (hseq a), ?again, hact, hstep, ?due, fun h => hstatMode_before (by omega), ?mode,
      resetSteps_on a, resetSteps_run a, ?book⟩, fun k => congrArg Host.Outcome.next ?anyStep⟩
    case again =>
      exact congrArg Host.Outcome.next ((resetSequence_resume hact hstep (Nat.succ_le_succ hab) (by omega)).trans (hseq b).symm)
    case due =>
      intro h0 hfull
      rw [h0]
      exact resetStep1_por hfull
    case mode =>
      intro h5
      rw [h5] at hstep ⊢
      exact hstatMode_after hstep resetSteps_dct_six
    case book =>
      intro h1
      rw [resetSteps_fbk _ ((List.mem_cons.mp hmem).resolve_left (by omega))]
      exact ⟨fun x hx k hk he => fbReboot_nvm _ x hx (he ▸ List.mem_map_of_mem hk),
        fun x hx k hk he => fbReboot_ring _ x hx (he ▸ List.mem_map_of_mem hk)⟩
    case anyStep =>
      rw [resetSequence_active (s := { s with rst := { s.rst with step := k } }) ha (by omega), resetSteps_anyStep, hseq b]
  case done =>
    exact congrArg Host.Outcome.next (resetSequence_done ha hs)

end Sys2Proof.Machine
end

section
/-! SUPPORT. What a record, a hint and a wake request add to the state and what they leave alone (14 R450 to R452, R461; 07 R271; 13
R439): no HINTS bit clears, and KSC, LGT, the charger, the clock and DCT stay as they are. -/

namespace Sys2Proof.Machine

variable {r s t : State}

/-- From s to t only the Field Book, the Survey, SEQ and HINTS may change, and no HINTS bit clears. -/
structure Recorded (s t : State) : Prop where
  ksc : t.ksc = s.ksc
  lgt : t.lgt = s.lgt
  lgb : t.lgb = s.lgb
  chg : t.chg = s.chg
  clk : t.clk = s.clk
  dct : t.dct = s.dct
  hints : ∀ (p : Port) (n : Nat), s.hp[p].sel.hints.getLsbD n = true → t.hp[p].sel.hints.getLsbD n = true

theorem Recorded.refl (s : State) : Recorded s s := ⟨rfl, rfl, rfl, rfl, rfl, rfl, fun _ _ => id⟩

theorem Recorded.trans (h : Recorded r s) (k : Recorded s t) : Recorded r t :=
  ⟨k.ksc.trans h.ksc, k.lgt.trans h.lgt, k.lgb.trans h.lgb, k.chg.trans h.chg, k.clk.trans h.clk, k.dct.trans h.dct,
    fun p n => k.hints p n ∘ h.hints p n⟩

/-- A record update of the Field Book, the Survey or SEQ. -/
theorem Recorded.upd (h : Recorded s t) (fbk : Fbk) (svy : Svy) (seq : Seq) : Recorded s { t with fbk := fbk, svy := svy, seq := seq } :=
  ⟨h.ksc, h.lgt, h.lgb, h.chg, h.clk, h.dct, h.hints⟩

/-! ### Hints -/

/-- Setting a HINTS bit of port p: that bit is 1, and every other bit of both ports stays. -/
theorem setHintP_hints (p q : Port) (n m : Nat) (s : State) : (setHintP p n s).hp[q].sel.hints.getLsbD m
    = (s.hp[q].sel.hints.getLsbD m || decide (q = p ∧ n = m ∧ n < 16)) := by
  by_cases h : q = p
  · subst h
    rw [setHintP, putPort_self, BitVec.getLsbD_or, ← BitVec.twoPow_eq, BitVec.getLsbD_twoPow]
    simp [Bool.and_comm]
  · rw [setHintP, putPort_ne _ _ _ _ h]
    simp [h]

theorem setHintP_recorded (p : Port) (n : Nat) (s : State) : Recorded s (setHintP p n s) := by
  refine ⟨rfl, rfl, rfl, rfl, rfl, rfl, fun q m h => ?_⟩
  rw [setHintP_hints, h]
  simp

theorem setHint_recorded (n : Nat) (s : State) : Recorded s (setHint n s) := by
  unfold setHint
  split
  · exact (setHintP_recorded 0 n s).trans (setHintP_recorded 1 n _)
  · exact .refl s

/-- With D7 on a hint shows at both ports. -/
theorem setHint_hints {n : Nat} (hn : n < 16) (h : domOn s 7 = true) (q : Port) : (setHint n s).hp[q].sel.hints.getLsbD n = true := by
  have hq : ∀ q : Port, q = 0 ∨ q = 1 := by decide
  rw [setHint, if_pos h, setHintP_hints, setHintP_hints]
  simp [hn, or_assoc, hq]

/-! ### Records -/

theorem enterRec_recorded (src typ : Nat) (p : List Nat) (s : State) : Recorded s (enterRec src typ p s) :=
  ((Recorded.refl s).upd _ s.svy s.seq).trans (setHint_recorded 12 _)

theorem fbOverflow_recorded (s : State) : Recorded s (fbOverflow s) := by
  unfold fbOverflow
  split
  · exact ((Recorded.refl s).upd _ s.svy s.seq).trans (enterRec_recorded _ _ _ _)
  · exact .refl s

theorem pushRec_recorded (src typ : Nat) (p : List Nat) (s : State) : Recorded s (pushRec src typ p s) := by
  unfold pushRec
  have h := fbOverflow_recorded s
  dsimp only
  split
  · exact h.trans (enterRec_recorded _ _ _ _)
  · exact h.upd _ _ _

theorem takeSnap_recorded (src trig : Nat) (s : State) : Recorded s (takeSnap src trig s) := by
  unfold takeSnap
  dsimp only
  split
  · exact (Recorded.refl s).upd _ _ _
  · exact (((Recorded.refl s).upd s.fbk _ s.seq).trans (pushRec_recorded _ _ _ _)).trans (setHint_recorded 13 _)

theorem joinRec_recorded (s : State) : Recorded s (joinRec s) := (Recorded.refl s).upd _ _ _

theorem logRec_recorded (src typ : Nat) (p : List Nat) (s : State) : Recorded s (logRec src typ p s) := by
  have h := pushRec_recorded src typ p s
  unfold logRec
  dsimp only
  split
  · split
    · split
      · exact h.trans (joinRec_recorded _)
      · exact h.trans (takeSnap_recorded _ _ _)
    · exact h
  · exact h

theorem enterRec_ring (src typ : Nat) (p : List Nat) (hr : s.fbk.ring.length < 256) : (enterRec src typ p s).fbk.ring = s.fbk.ring
    ++ [{ r := { src := src, typ := typ, seq := s.fbk.newest + 1, bootno := s.fbk.bootno, time := s.clk.time.toNat, p := p }, written := false }] := by
  rw [enterRec, setHint_eq]
  simp [ringPut, hr]

/-- With no discarded record to report, room in the ring and no class selected for a snapshot, a record just enters. -/
theorem logRec_ring (src typ : Nat) (p : List Nat) (hr : s.fbk.ring.length < 256) (hd : s.fbk.drops = 0) (hv : s.svy.svfsel = 0) :
    ∃ x : FbRec, (logRec src typ p s).fbk.ring = s.fbk.ring ++ [{ r := x, written := false }] ∧ x.src = src ∧ x.typ = typ ∧ x.p = p := by
  have hp : pushRec src typ p s = enterRec src typ p s := by simp [pushRec, fbOverflow_none hd, ringFree, hr]
  have hl : logRec src typ p s = enterRec src typ p s := by
    unfold logRec
    dsimp only
    rw [hp]
    split
    · rw [hv, Nat.zero_testBit]; rfl
    · rfl
  rw [hl]
  exact ⟨_, enterRec_ring _ _ _ hr, rfl, rfl, rfl⟩

/-! ### Wake requests of KSC (R220, R439) -/

theorem seqRefuse_recorded (q : SeqReq) (s : State) : Recorded s (seqRefuse q s) :=
  ((Recorded.refl s).upd s.fbk s.svy _).trans (logRec_recorded _ _ _ _)

theorem seqStart_recorded (q : SeqReq) (s : State) : Recorded s (seqStart q s) := by
  unfold seqStart
  split
  · exact .refl s
  split
  · exact seqRefuse_recorded q s
  split
  · exact seqRefuse_recorded q s
  · exact ((Recorded.refl s).upd s.fbk s.svy _).trans (logRec_recorded _ _ _ _)

theorem seqAsk_recorded (newer : Bool) (q : SeqReq) (h : s.seq.kind = .idle) : Recorded s (seqAsk newer q s) := by
  unfold seqAsk
  split
  · simp only [seqRequest, h]
    split
    · exact .refl s
    · exact seqStart_recorded q s
  split
  · exact logRec_recorded _ _ _ _
  · exact .refl s

theorem seqKbWake_recorded (newer : Bool) (s : State) : Recorded s (seqKbWake newer s) := by
  unfold seqKbWake
  have h1 : Recorded s (sisSet 0x40 s) := (Recorded.refl s).upd s.fbk s.svy _
  split
  · exact .refl s
  · dsimp only
    split
    · next h =>
      simp only [Bool.and_eq_true, decide_eq_true_eq] at h
      exact h1.trans (seqAsk_recorded newer _ h.1.2)
    · exact h1

end Sys2Proof.Machine
end

section
/-! SUPPORT. The clock source and the frames of KSC around it (02 R83; 12 R397 to R400; 13 R430): when DCT holds the next frame, what
a resumed scan is, and what a loss of lock and a change of CK leave. -/

namespace Sys2Proof.Machine

variable {s : State}

theorem whenCk_on (h : ckRuns s = true) (f : State → State) : whenCk f s = f s := if_pos h

/-! ### Holds and the next frame -/

/-- A gather in RUN waits for KSC to be frame-idle (R430, log entry 31). -/
def GatherHolds (s : State) : Prop :=
  s.dct.phase = .gather ∧ s.dct.mode = .run ∧ (s.dct.dom = some 5 ∨ (s.dct.dom = none ∧ s.dct.cur.map DctReq.tgt = some 2))

theorem kscHeld_iff : kscHeld s = true ↔ s.clk.prep = true ∨ GatherHolds s := by
  unfold kscHeld GatherHolds
  cases s.dct.dom <;> simp [and_assoc]

/-- KSC is at a boundary at which it may start a frame in RUN (R90), no gather holding it. -/
def MayStart (s : State) : Prop :=
  s.ksc.scanning = true ∧ s.ksc.scanen = true ∧ s.ksc.fr = .idle ∧ s.dct.mode = .run ∧ ¬ GatherHolds s

theorem kscResume_start (h : MayStart s) (hp : s.clk.prep = false) :
    kscResume s = { s with ksc := { s.ksc with fr := .start, slow := false, resolving := false } } := by
  obtain ⟨hs, he, hf, hm, hg⟩ := h
  have hh : kscHeld s = false := by simp [← Bool.not_eq_true, kscHeld_iff, hp, hg]
  simp [kscResume, hs, he, hf, hm, hh]

theorem kscResume_stay (h : ¬ (MayStart s ∧ s.clk.prep = false)) : kscResume s = s := by
  refine if_neg fun hc => h ?_
  simp only [Bool.and_eq_true, decide_eq_true_eq, Bool.not_eq_true', ← Bool.not_eq_true, kscHeld_iff, not_or] at hc
  obtain ⟨⟨⟨⟨hs, he⟩, hf⟩, hm⟩, hp, hg⟩ := hc
  exact ⟨⟨hs, he, hf, hm, hg⟩, by simpa using hp⟩

/-! ### A sounding run that is abandoned -/

theorem abandonRun_eq (s : State) : abandonRun s = { s with ksc := (abandonRun s).ksc } := by
  unfold abandonRun
  dsimp only
  split <;> rfl

/-! ### Loss of lock and fallback (R400) -/

/-- What a loss of lock while CK runs from the PLL leaves, its record apart: CK from the crystal, fallback, and every gate off. -/
def fallen (s : State) : State :=
  abandonRun (chgGatesOff { s with clk := { s.clk with lock := false, ckPll := false, fallback := true, prep := false, sub := 0 } })

theorem fallen_clk (s : State) :
    (fallen s).clk = { s.clk with lock := false, ckPll := false, fallback := true, prep := false, sub := 0 } :=
  congrArg State.clk (abandonRun_eq _)

theorem fallen_gates (s : State) : (fallen s).chg.gates = 0 := congrArg (fun t => t.chg.gates) (abandonRun_eq _)

theorem fallen_dct (s : State) : (fallen s).dct = s.dct := by rw [fallen, abandonRun_eq]; rfl

theorem fallen_fbk (s : State) : (fallen s).fbk = s.fbk := by rw [fallen, abandonRun_eq]; rfl

theorem fallen_svy (s : State) : (fallen s).svy = s.svy := by rw [fallen, abandonRun_eq]; rfl

theorem pllLoss_fallback (hl : s.clk.lock = true) (ho : s.clk.pllOn = true) (hc : s.clk.ckPll = true) :
    pllLoss s = logRec 2 9 [s.clk.retry] (fallen s) := by
  have hr : s.clk.retry = (fallen s).clk.retry := by rw [fallen_clk]
  rw [pllLoss, if_pos (by rw [ho, hl]; rfl), if_pos hc, hr]
  rfl

theorem pllLoss_crystal (hl : s.clk.lock = true) (ho : s.clk.pllOn = true) (hc : s.clk.ckPll = false) :
    pllLoss s = if s.clk.prep then kscResume { s with clk := { s.clk with lock := false, prep := false } }
      else { s with clk := { s.clk with lock := false, prep := false } } := by
  simp [pllLoss, hl, ho, hc]

theorem engWrite_relock {e : Eng} (h : EngMay s e 0x1829 true) : engWrite e 0x1829 1 1 s = relock s := by
  rw [engWrite_byte (b := 0x1800) (r := 7) h rfl rfl rfl]
  rfl

/-! ### The change of CK (R399) -/

/-- What a change of CK needs: a change is planned, no key frame is in progress, the gates are off, and a change to the PLL has its lock. -/
def CkMayChange (s : State) : Prop :=
  s.clk.prep = true ∧ kscIdle s = true ∧ gatesOff s = true ∧ (s.clk.ckPll = true ∨ s.clk.lock = true)

theorem ckChange_stay (h : ¬ CkMayChange s) : ckChange s = s :=
  if_neg (by simpa [CkMayChange, and_assoc] using h)

/-- The clock after a planned change: in fallback an entry to WATCH past its commit edge plans its own (R434). -/
def clkChanged (s : State) : Clk :=
  { s.clk with ckPll := !s.clk.ckPll, sub := 0, fallback := false
               prep := s.clk.fallback && s.dct.phase = .committed && s.dct.dom = none && s.dct.cur.map DctReq.tgt = some 1 }

theorem ckChange_eq (h : CkMayChange s) : ckChange s = { ckSwitch (!s.clk.ckPll) s with clk := clkChanged s } := by
  have hc : (s.clk.prep && kscIdle s && gatesOff s && (s.clk.ckPll || s.clk.lock)) = true := by
    simpa [CkMayChange, and_assoc] using h
  unfold ckChange
  rw [if_pos hc]
  by_cases hf : s.clk.fallback = true
  · simp [hf, fallbackEnd, ckSwitch, clkChanged]
  · simp [hf, ckSwitch, clkChanged]

theorem ckSwitch_fr_stopped (b : Bool) (h : s.ksc.scanning = false) : (ckSwitch b s).ksc.fr = s.ksc.fr := by simp [ckSwitch, h]

/-- A running scan starts its frame after a change to the PLL that no gather holds; otherwise it waits. -/
theorem ckSwitch_fr (b : Bool) (h : s.ksc.scanning = true) : ((ckSwitch b s).ksc.fr = .start ↔ b = true ∧ s.ksc.scanen = true ∧ ¬ GatherHolds s)
    ∧ ((ckSwitch b s).ksc.fr = .start ∨ (ckSwitch b s).ksc.fr = .idle) := by
  have hh : kscHeld { s with clk := { s.clk with ckPll := b, prep := false, sub := 0 } } = false ↔ ¬ GatherHolds s := by
    rw [← Bool.not_eq_true, kscHeld_iff]
    simp [GatherHolds]
  rw [← hh]
  simp only [ckSwitch, h, Bool.not_true, Bool.false_eq_true, if_false]
  split
  · next hg => simpa [and_assoc] using hg
  · next hg => simpa [and_assoc] using hg

end Sys2Proof.Machine
end

section
/-! CERTIFICATE. The PLL and the CK source (02 R83; 12 R397 to R400, R405). -/

namespace Sys2Proof.Machine

/-- Settles O33: each command has its condition met, and `MayStart` says when KSC starts its frames again. -/
theorem clockSource : Obligations.ClockSource := by
  unfold Obligations.ClockSource
  refine fun e failed s hck => ⟨?lock, ?loss, ?restart, ?back, ?crystalStay, ?crystalStart, ?relock, ?change, ?noChange⟩
  case lock =>
    intro ho hl hw
    refine congrArg Host.Outcome.next ((whenCk_on hck _).trans ?_)
    simp [pllLock, ho, hl, hw]
  case loss =>
    intro ho hl hc
    have hrec := logRec_recorded 2 9 [s.clk.retry] (fallen s)
    refine ⟨_, congrArg Host.Outcome.next ((whenCk_on hck _).trans (pllLoss_fallback hl ho hc)), hrec.clk.trans (fallen_clk s),
      (congrArg Chg.gates hrec.chg).trans (fallen_gates s), hrec.dct.trans (fallen_dct s), fun hr hd hv => ?_⟩
    rw [← fallen_fbk s] at hr hd ⊢
    rw [← fallen_svy s] at hv
    exact logRec_ring _ _ _ hr hd hv
  case restart =>
    intro hf hr hm
    refine congrArg Host.Outcome.next ((whenCk_on hck _).trans ?_)
    simp [pllRestart, hf, hr, hm]
  case back =>
    intro hf hl hc hm
    refine congrArg Host.Outcome.next ((whenCk_on hck _).trans ?_)
    simp [fallbackReturn, hf, hl, hc, hm]
  case crystalStay =>
    intro ho hl hc hstay
    refine congrArg Host.Outcome.next ((whenCk_on hck _).trans ((pllLoss_crystal hl ho hc).trans ?_))
    split
    · next hp => exact kscResume_stay fun h => hstay hp h.1
    · rfl
  case crystalStart =>
    intro ho hl hc hp hstart
    refine congrArg Host.Outcome.next ((whenCk_on hck _).trans ((pllLoss_crystal hl ho hc).trans ?_))
    rw [if_pos hp]
    exact kscResume_start hstart rfl
  case relock =>
    intro h hf
    refine congrArg Host.Outcome.next ((engWrite_relock h).trans ?_)
    simp [relock, hf]
  case change =>
    intro hp hi hg hl
    refine ⟨_, congrArg Host.Outcome.next ((whenCk_on hck _).trans (ckChange_eq ⟨hp, hi, hg, hl⟩)), rfl, ckSwitch_fr_stopped _, fun hs => ?_,
      rfl, rfl, rfl, rfl⟩
    have hfr := ckSwitch_fr (!s.clk.ckPll) hs
    rw [Bool.not_eq_true'] at hfr
    exact hfr
  case noChange =>
    intro _ hno
    refine congrArg Host.Outcome.next ((whenCk_on hck _).trans (ckChange_stay fun ⟨_, hi, hg, hl⟩ => ?_))
    rcases hno with h | h | ⟨h1, h2⟩
    · simp [h] at hi
    · simp [h] at hg
    · simp [h1, h2] at hl

end Sys2Proof.Machine
end

section
/-! SUPPORT. Folds over key positions, drive lines and keys, each of whose steps acts on one of them; and key records: what they leave
in KSC (02 R67). -/

namespace Sys2Proof.Machine

/-! ### Folds of steps that each act on one place -/

/-- Steps at distinct places: what is seen at place j is what the step at j makes of it, where there is one. -/
theorem foldl_at {σ β : Type} {f : σ → Nat → σ} {obs : σ → β} {j : Nat} (hne : ∀ x k, k ≠ j → obs (f x k) = obs x)
    (hj : ∀ x y, obs x = obs y → obs (f x j) = obs (f y j)) {l : List Nat} (hl : l.Nodup) (x : σ) :
    obs (l.foldl f x) = if j ∈ l then obs (f x j) else obs x := by
  induction l generalizing x with
  | nil => rfl
  | cons k l ih =>
    obtain ⟨hk, hl⟩ := List.nodup_cons.mp hl
    rw [List.foldl_cons, ih hl]
    by_cases h : k = j
    · subst h
      simp [hk]
    · have hx := hne x k h
      simp [Ne.symm h, hj _ _ hx, hx]

/-- A sparse map that is written at distinct places, each from what it held there. -/
theorem spGet_foldl_spSet {α : Type} [DecidableEq α] {d : α} (g : Nat → α → α) {l : List Nat} (hl : l.Nodup) (m : Sparse α) (j : Nat) :
    spGet d (l.foldl (fun m k => spSet d m k (g k (spGet d m k))) m) j = if j ∈ l then g j (spGet d m j) else spGet d m j := by
  have hset (m : Sparse α) (k : Nat) (x : α) := spGet_spSet (fun _ => d) m k j x
  rw [foldl_at (obs := fun m => spGet d m j) (fun m k hk => by rw [hset, if_neg hk]) (fun m n h => by simp [hset, h]) hl]
  simp [hset]

/-- A change of every entry that keeps the default. -/
theorem spGet_map {α : Type} {d : α} {f : α → α} (hf : f d = d) (m : Sparse α) (k : Nat) :
    spGet d (m.map (fun e => (e.1, f e.2))) k = f (spGet d m k) := by
  induction m with
  | nil => exact hf.symm
  | cons e t ih => simp only [List.map_cons, spGet, ih]; split <;> rfl

theorem mem_bitsOf {n v k : Nat} : k ∈ bitsOf n v ↔ k < n ∧ v.testBit k = true := by simp [bitsOf]

theorem bitsOf_nodup (n v : Nat) : (bitsOf n v).Nodup := List.nodup_range.filter _

/-! ### Key records -/

variable {s : State}

theorem lgtKeyRecord_eq (typ pos : Nat) (press : Bool) (s : State) :
    lgtKeyRecord typ pos press s = { s with lgb := { s.lgb with keys := (lgtKeyRecord typ pos press s).lgb.keys } } := by
  unfold lgtKeyRecord
  dsimp only
  repeat' split
  all_goals rfl

/-- A record at the event FIFO: it enters, or a full FIFO discards it (R67). -/
def takeRec (k : Ksc) (r : KeyRec) : Ksc :=
  if k.fifo.length < 16 then { k with fifo := k.fifo ++ [r] } else { k with ovf := true, kis := k.kis ||| 0x20 }

/-- From k to k' nothing changes but the event FIFO, OVF and KIS. -/
def OnlyFifo (k k' : Ksc) : Prop := ∃ (fifo : List KeyRec) (ovf : Bool) (kis : Nat), k' = { k with fifo := fifo, ovf := ovf, kis := kis }

theorem OnlyFifo.trans {a b c : Ksc} (h : OnlyFifo a b) (k : OnlyFifo b c) : OnlyFifo a c := by
  obtain ⟨_, _, _, rfl⟩ := h
  obtain ⟨_, _, _, rfl⟩ := k
  exact ⟨_, _, _, rfl⟩

theorem takeRec_onlyFifo (k : Ksc) (r : KeyRec) : OnlyFifo k (takeRec k r) := by
  unfold takeRec
  split <;> exact ⟨_, _, _, rfl⟩

theorem takeRecs_onlyFifo (l : List KeyRec) (k : Ksc) : OnlyFifo k (l.foldl takeRec k) := by
  induction l generalizing k with
  | nil => exact ⟨_, _, _, rfl⟩
  | cons r l ih => exact (takeRec_onlyFifo k r).trans (ih _)

/-- The records (type, position, cancels a press) at LGT and the event FIFO, in order. -/
def keyRecords (rs : List (Nat × Nat × Bool)) (s : State) : State := rs.foldl (fun s r => keyRecord r.1 r.2.1 r.2.2 s) s

/-- A record as it enters the FIFO. -/
def asKeyRec (q : BitVec 16) (r : Nat × Nat × Bool) : KeyRec := { seq := q.toNat % 16, typ := r.1, pos := r.2.1 }

theorem keyRecord_ksc (typ pos : Nat) (press : Bool) (s : State) :
    (keyRecord typ pos press s).ksc = takeRec s.ksc (asKeyRec (recSeq s) (typ, pos, press)) := by
  rw [keyRecord, lgtKeyRecord_eq]
  unfold takeRec asKeyRec
  dsimp only
  split
  · rfl
  · split
    · rfl
    · rw [(logRec_recorded _ _ _ _).ksc]

theorem recSeq_keyRecord (typ pos : Nat) (press : Bool) (s : State) : recSeq (keyRecord typ pos press s) = recSeq s := by
  obtain ⟨_, _, _, h⟩ := takeRec_onlyFifo s.ksc (asKeyRec (recSeq s) (typ, pos, press))
  rw [recSeq, keyRecord_ksc, h]
  rfl

theorem keyRecords_ksc (rs : List (Nat × Nat × Bool)) (s : State) :
    (keyRecords rs s).ksc = (rs.map (asKeyRec (recSeq s))).foldl takeRec s.ksc := by
  induction rs generalizing s with
  | nil => rfl
  | cons r rs ih =>
    rw [keyRecords, List.foldl_cons, ← keyRecords, ih, recSeq_keyRecord, keyRecord_ksc]
    rfl

/-- The bits of KIS and HINTS that a kind of record sets where one is made (R79). -/
def keyFlag (made : Bool) (n : Nat) (s : State) : State := if made then setHint n (kisSet (2 ^ n) s) else s

theorem keyFlag_ksc (made : Bool) (n : Nat) (s : State) :
    (keyFlag made n s).ksc = { s.ksc with kis := if made then s.ksc.kis ||| 2 ^ n else s.ksc.kis } := by
  unfold keyFlag
  split
  · exact (setHint_recorded n _).ksc
  · rfl

/-- A confirmation sets KEY, a provisional record or a CANCEL sets PROV. -/
def anyKey (rs : List (Nat × Nat × Bool)) : Bool := rs.any (fun r => r.1 = 4 || r.1 = 5)
def anyProv (rs : List (Nat × Nat × Bool)) : Bool := rs.any (fun r => r.1 = 1 || r.1 = 2 || r.1 = 3)

theorem emitKeyRecs_eq (rs : List (Nat × Nat × Bool)) (s : State) :
    emitKeyRecs rs s = keyFlag (anyProv rs) 1 (keyFlag (anyKey rs) 0 (keyRecords rs s)) := rfl

/-- Key records change nothing of KSC but the FIFO, OVF and KIS. -/
theorem emitKeyRecs_onlyFifo (rs : List (Nat × Nat × Bool)) (s : State) : OnlyFifo s.ksc (emitKeyRecs rs s).ksc := by
  rw [emitKeyRecs_eq, keyFlag_ksc, keyFlag_ksc, keyRecords_ksc]
  exact (takeRecs_onlyFifo _ _).trans ⟨_, _, _, rfl⟩

end Sys2Proof.Machine
end

section
/-! SUPPORT. The scan and the sounding runs (02 R58, R59, R81, R83, R90): what the writes of KCTL, the runs and a stop leave. -/

namespace Sys2Proof.Machine

variable {s : State} {e : Eng}

/-! ### KCTL (R90, R92) -/

theorem engWrite_kctl {v : Nat} (h : EngMay s e 0x404 true) (hv : v < 256) : engWrite e 0x404 1 v s = kscKctl v s := by
  rw [engWrite_byte (b := 0x400) (r := 2) h rfl rfl rfl, Nat.mod_eq_of_lt hv]
  rfl

/-- The bits of KCTL as it stands: SCANEN and VIEWLIVE. -/
theorem kctlNow_cases (s : State) : kctlNow s = (if s.ksc.scanen then 1 else 0) + (if s.ksc.viewlive then 4 else 0) := rfl

/-- What a write of KCTL with SCANEN = en leaves before a frame starts; go asks for a sounding run. -/
def kctlWritten (en go : Bool) (q : Ksc) : Ksc :=
  { q with scanen := en, scanning := q.scanning || en, slow := q.slow && (q.scanning || !en)
           resolving := q.resolving && (q.fr ≠ .idle || !q.scanen), sndReq := q.sndReq || (go && q.run = none) }

/-- A write of KCTL that keeps VIEWLIVE. -/
theorem kscKctl_eq {en go : Bool} {v : Nat} (h0 : v.testBit 0 = en) (h1 : v.testBit 1 = go) (h2 : v.testBit 2 = s.ksc.viewlive) :
    kscKctl v s = if s.ksc.scanning && s.ksc.scanen then { s with ksc := kctlWritten en go s.ksc }
      else kscResume { s with ksc := kctlWritten en go s.ksc } := by
  subst h0 h1
  simp only [kscKctl, h2]
  rfl

theorem engWrite_sndgo (h : EngMay s e 0x404 true) : engWrite e 0x404 1 (kctlNow s + 2) s
    = if s.ksc.scanning && s.ksc.scanen then { s with ksc := kctlWritten s.ksc.scanen true s.ksc }
      else kscResume { s with ksc := kctlWritten s.ksc.scanen true s.ksc } := by
  have hv : kctlNow s + 2 < 256 ∧ (kctlNow s + 2).testBit 0 = s.ksc.scanen ∧ (kctlNow s + 2).testBit 1 = true
      ∧ (kctlNow s + 2).testBit 2 = s.ksc.viewlive := by
    rw [kctlNow_cases]
    cases s.ksc.scanen <;> cases s.ksc.viewlive <;> decide
  rw [engWrite_kctl h hv.1, kscKctl_eq hv.2.1 hv.2.2.1 hv.2.2.2]

theorem engWrite_scanen (en : Bool) (h : EngMay s e 0x404 true) : engWrite e 0x404 1 (setBit (kctlNow s) 0 en) s
    = if s.ksc.scanning && s.ksc.scanen then { s with ksc := kctlWritten en false s.ksc }
      else kscResume { s with ksc := kctlWritten en false s.ksc } := by
  have hv : setBit (kctlNow s) 0 en < 256 ∧ (setBit (kctlNow s) 0 en).testBit 0 = en ∧ (setBit (kctlNow s) 0 en).testBit 1 = false
      ∧ (setBit (kctlNow s) 0 en).testBit 2 = s.ksc.viewlive := by
    rw [kctlNow_cases]
    cases s.ksc.scanen <;> cases s.ksc.viewlive <;> cases en <;> decide
  rw [engWrite_kctl h hv.1, kscKctl_eq hv.2.1 hv.2.2.1 hv.2.2.2]

/-- KSC as a write of SCANEN = 1 leaves it before a frame starts (R90). -/
def scanOn (q : Ksc) : Ksc :=
  { q with scanen := true, scanning := true, slow := q.slow && q.scanning, resolving := q.resolving && (q.fr ≠ .idle || !q.scanen) }

theorem kctlWritten_scanStart (q : Ksc) : kctlWritten true false q = scanOn q := by simp [kctlWritten, scanOn]

/-- A scan that a write of SCANEN = 1 starts begins its frame at a boundary in RUN that nothing holds (R90, log entry 31). -/
theorem mayStart_scanStart (hs : ¬ (s.ksc.scanning && s.ksc.scanen) = true) :
    (MayStart { s with ksc := scanOn s.ksc } ∧ s.clk.prep = false) ↔ (s.ksc.scanning = false ∨ s.ksc.scanen = false) ∧ s.ksc.fr = .idle
      ∧ s.dct.mode = .run ∧ s.clk.prep = false ∧ ¬ (s.dct.phase = .gather
        ∧ (s.dct.dom = some 5 ∨ (s.dct.dom = none ∧ s.dct.cur.map DctReq.tgt = some 2))) := by
  have hs : s.ksc.scanning = false ∨ s.ksc.scanen = false := by
    rwa [Bool.and_eq_true, not_and_or, Bool.not_eq_true, Bool.not_eq_true] at hs
  simp only [MayStart, GatherHolds, scanOn]
  tauto

/-! ### Sounding runs (R58, R59) -/

theorem upTo_nodup (n : Nat) : (upTo n).Nodup := List.nodup_range

theorem mem_upTo {n k : Nat} : k ∈ upTo n ↔ k < n := List.mem_range

/-- A line as a run starts: nothing measured. -/
def unmeasured (x : LineSnd) : LineSnd := { x with m := none, overRun := false }

/-- The lines at the start of a run. -/
def sndCleared (m : Sparse LineSnd) : Sparse LineSnd := (upTo 24).foldl (fun m k => spSet {} m k (unmeasured (spGet {} m k))) m

theorem spGet_sndCleared (m : Sparse LineSnd) {k : Nat} (hk : k < 24) : spGet {} (sndCleared m) k = unmeasured (spGet {} m k) :=
  (spGet_foldl_spSet (fun _ => unmeasured) (upTo_nodup 24) m k).trans (if_pos (mem_upTo.mpr hk))

theorem soundingStart_eq (hd : domOn s 5 = true) (hf : s.ksc.fr = .start) (hw : s.ksc.slow = false) (he : s.ksc.scanen = true)
    (hm : s.dct.mode = .run) (hc : s.clk.ckPll = true) (hp : s.clk.prep = false) (hr : s.ksc.run = none)
    (hq : s.ksc.sndReq = true ∨ s.ksc.sndFirst = true) : soundingStart s = { s with ksc := { s.ksc with
      run := some { first := s.ksc.sndFirst, left := kscLive s 0x16 }, snd := sndCleared s.ksc.snd, sndReq := false, sndFirst := false } } :=
  if_pos (by simpa [hd, hf, hw, he, hm, hc, hp, hr] using hq)

/-- The lines at the end of a run (R59). -/
def sndResults (s : State) : Sparse LineSnd :=
  ((bitsOf 24 (kscLive s 0x09)).foldl (fun m k => spSet {} m k (lineResult (kscLive s 0x06) (kscLive s 0x17) (spGet {} m k))) s.ksc.snd).map
    (fun e => (e.1, { e.2 with unset := false }))

theorem spGet_sndResults {k : Nat} (hk : k < 24) (hb : (kscLive s 0x09).testBit k = true) :
    spGet {} (sndResults s) k = lineResult (kscLive s 0x06) (kscLive s 0x17) (spGet {} s.ksc.snd k) := by
  rw [sndResults, spGet_map (f := fun x : LineSnd => { x with unset := false }) rfl,
    spGet_foldl_spSet (fun _ => lineResult _ _) (bitsOf_nodup _ _), if_pos (mem_bitsOf.mpr ⟨hk, hb⟩)]
  rfl

/-- A run that ends: its results, KIS.SNDDONE, and at most a record besides. -/
theorem soundingEnd_recorded {r : SndRun} (hd : domOn s 5 = true) (hf : s.ksc.fr = .start ∨ s.ksc.fr = .idle ∧ s.ksc.resolving = true)
    (hr : s.ksc.run = some r) (hl : r.left = 0) (hm : s.dct.mode = .run) : Recorded
      { s with ksc := { s.ksc with run := none, snd := sndResults s, ranSince := true, kis := s.ksc.kis ||| 0x10 } } (soundingEnd s) := by
  have hc : (domOn s 5 && (decide (s.ksc.fr = .start) || (decide (s.ksc.fr = .idle) && s.ksc.resolving)) && decide (r.left = 0)
      && decide (s.dct.mode = .run)) = true := by simpa [hd, hl, hm] using hf
  simp only [soundingEnd, hr]
  rw [if_pos hc]
  split
  · exact .refl _
  · exact logRec_recorded _ _ _ _

/-! ### The stop of a scan (R90) -/

theorem kscStop_stay (hf : s.ksc.fr = .start ∧ scanLines s ≠ [] ∨ ∃ k, s.ksc.fr = .line k) : kscStop s = s := by
  refine if_neg ?_
  rcases hf with ⟨h, hl⟩ | ⟨k, h⟩
  · simp [h, hl]
  · simp [h]

/-- The plane after a stop: no key is pending (R90). -/
def planeStopped (pl : KeyPlane) : KeyPlane := { pl with pending := 0, out := 0, cnt := [] }

theorem provPlane_planeStopped (pl : KeyPlane) : provPlane (planeStopped pl) = pl.conf := by simp [provPlane, planeStopped]

/-- Abandoning a run touches the run and its measurements only. -/
theorem abandonRun_ksc (s : State) : (abandonRun s).ksc
    = { s.ksc with run := none, sndReq := (abandonRun s).ksc.sndReq, snd := (abandonRun s).ksc.snd } := by
  unfold abandonRun
  dsimp only
  split
  · next h => rw [← h]
  · rfl

theorem imageLate_ksc (s : State) : (imageLate s).ksc = { s.ksc with image :=
    if s.ksc.resolving then { s.ksc.image with win := s.ksc.plane.conf, prov := provPlane s.ksc.plane } else s.ksc.image } := by
  unfold imageLate
  split <;> rfl

/-- The CANCEL records of a stop: one for each provisional record that is outstanding. -/
def stopRecs (pl : KeyPlane) : List (Nat × Nat × Bool) :=
  ((upTo 480).filter (fun p => pl.out.getLsbD p)).map (fun p => (3, p, !pl.conf.getLsbD p))

/-- A scan that has stopped, before its records. -/
def stopTaken (s : State) : State := { s with ksc := { s.ksc with plane := planeStopped s.ksc.plane, scanning := false, fr := .idle } }

theorem kscStop_eq (hd : domOn s 5 = true) (hs : s.ksc.scanning = true) (he : s.ksc.scanen = false)
    (hf : s.ksc.fr = .idle ∨ s.ksc.fr = .start ∧ scanLines s = []) :
    (kscStop s).ksc = { (imageLate (emitKeyRecs (stopRecs s.ksc.plane) (abandonRun (stopTaken s)))).ksc with slow := false, resolving := false } := by
  have hc : (domOn s 5 && s.ksc.scanning && !s.ksc.scanen
      && (decide (s.ksc.fr = .idle) || (decide (s.ksc.fr = .start) && decide (scanLines s = [])))) = true := by simpa [hd, hs, he] using hf
  rw [kscStop, if_pos hc, stopRecs, stopTaken, planeStopped]

theorem kscStop_ksc (hd : domOn s 5 = true) (hs : s.ksc.scanning = true) (he : s.ksc.scanen = false)
    (hf : s.ksc.fr = .idle ∨ s.ksc.fr = .start ∧ scanLines s = []) :
    ∃ (fifo : List KeyRec) (ovf : Bool) (kis : Nat) (sndReq : Bool) (snd : Sparse LineSnd), (kscStop s).ksc = { s.ksc with
      plane := planeStopped s.ksc.plane, scanning := false, fr := .idle, run := none, slow := false, resolving := false
      image := if s.ksc.resolving then { s.ksc.image with win := s.ksc.plane.conf, prov := s.ksc.plane.conf } else s.ksc.image
      fifo := fifo, ovf := ovf, kis := kis, sndReq := sndReq, snd := snd } := by
  obtain ⟨fifo, ovf, kis, hk⟩ := emitKeyRecs_onlyFifo (stopRecs s.ksc.plane) (abandonRun (stopTaken s))
  refine ⟨fifo, ovf, kis, (abandonRun (stopTaken s)).ksc.sndReq, (abandonRun (stopTaken s)).ksc.snd, ?_⟩
  rw [kscStop_eq hd hs he hf, imageLate_ksc, hk, abandonRun_ksc (stopTaken s), stopTaken]
  dsimp only
  rw [provPlane_planeStopped]
  rfl

end Sys2Proof.Machine
end

section
/-! CERTIFICATE. The scan and the sounding runs (02 R58, R59, R81, R83, R90). -/

namespace Sys2Proof.Machine

/-- Settles O43: each command is its operation with its condition met or not, and `MayStart` says when a write of KCTL starts a frame. -/
theorem scanAndSounding : Obligations.ScanAndSounding := by
  unfold Obligations.ScanAndSounding
  refine fun e s => ⟨?sndgo, fun h => ⟨?startLater, ?startNow⟩, ?stopRequest, ?period, ?runStart, ?runEnd, ?stopWaits, ?stop, ?slowFrame⟩
  case sndgo =>
    intro h hen hr
    have hq : kctlWritten s.ksc.scanen true s.ksc
        = { s.ksc with sndReq := true, resolving := s.ksc.resolving && (s.ksc.fr ≠ .idle || !s.ksc.scanen) } := by
      have hs : (s.ksc.scanning || s.ksc.scanen) = s.ksc.scanning := by simpa using hen
      have hw : (s.ksc.slow && (s.ksc.scanning || !s.ksc.scanen)) = s.ksc.slow := by cases he : s.ksc.scanen <;> simp [he, hen]
      simp [kctlWritten, hs, hw, hr]
    refine congrArg Host.Outcome.next ((engWrite_sndgo h).trans ?_)
    rw [hq]
    split
    · rfl
    · next hs => exact kscResume_stay fun ⟨⟨h1, h2, _⟩, _⟩ => hs (by simpa using ⟨h1, h2⟩)
  case startLater =>
    intro hg
    refine congrArg Host.Outcome.next ((engWrite_scanen true h).trans ?_)
    rw [kctlWritten_scanStart]
    split
    · rfl
    · next hs => exact kscResume_stay fun ⟨hm, hp⟩ => hg ((mayStart_scanStart hs).mp ⟨hm, hp⟩)
  case startNow =>
    intro hg
    refine congrArg Host.Outcome.next ((engWrite_scanen true h).trans ?_)
    have hs : ¬ (s.ksc.scanning && s.ksc.scanen) = true := by
      obtain ⟨h1 | h1, -⟩ := hg <;> simp [h1]
    rw [kctlWritten_scanStart, if_neg hs]
    obtain ⟨hm, hp⟩ := (mayStart_scanStart hs).mpr hg
    exact kscResume_start hm hp
  case stopRequest =>
    intro h
    have hq : kctlWritten false false s.ksc
        = { s.ksc with scanen := false, resolving := s.ksc.resolving && (s.ksc.fr ≠ .idle || !s.ksc.scanen) } := by simp [kctlWritten]
    refine congrArg Host.Outcome.next ((engWrite_scanen false h).trans ?_)
    rw [hq]
    split
    · rfl
    · exact kscResume_stay fun ⟨⟨_, h2, _⟩, _⟩ => Bool.false_ne_true h2
  case period =>
    intro hd hm hp hr
    exact congrArg Host.Outcome.next (if_pos (by simp [hd, hm, hp, hr]))
  case runStart =>
    intro hd hf hw he hm hc hp hr hq
    have hsnd (k : Nat) (hk : k < 24) := spGet_sndCleared s.ksc.snd hk
    have hs := soundingStart_eq hd hf hw he hm hc hp hr hq
    generalize sndCleared s.ksc.snd = snd at hs hsnd
    exact ⟨_, congrArg Host.Outcome.next hs, rfl, hsnd⟩
  case runEnd =>
    intro r hd hf hr hl hm
    have hk := (soundingEnd_recorded hd hf hr hl hm).ksc
    refine ⟨_, rfl, congrArg Ksc.run hk, congrArg Ksc.ranSince hk, congrArg Ksc.kis hk, (congrArg Ksc.plane hk :), fun k hk24 hb => ?_⟩
    rw [hk]
    dsimp only
    rw [spGet_sndResults hk24 hb]
    cases hx : (spGet {} s.ksc.snd k).m <;> simp [lineResult, hx]
  case stopWaits => exact fun _ _ _ hf => congrArg Host.Outcome.next (kscStop_stay hf)
  case stop =>
    intro hd hs he hf
    obtain ⟨_, _, _, _, _, hk⟩ := kscStop_ksc hd hs he hf
    refine ⟨_, rfl, congrArg Ksc.scanning hk, congrArg Ksc.fr hk, congrArg Ksc.plane hk, congrArg Ksc.run hk, fun hr => ?_, fun hr => ?_⟩
    · rw [hk]
      simp [hr]
    · rw [hk]
      simp [hr]
  case slowFrame =>
    intro hd hm he hs hf hp
    exact congrArg Host.Outcome.next (if_pos (by simp [hd, hm, he, hs, hf, hp]))

end Sys2Proof.Machine
end

section
/-! SUPPORT. One key in a sample (02 R54, R63, R65, R68): what the debounce makes of it, row by row, and the sample of a line as the
steps of its keys, each apart from the others. -/

namespace Sys2Proof.Machine

variable {s : State} {pl pl' : KeyPlane} {deb p j : Nat} {prov test x : Bool}

/-! ### The cell of one key -/

theorem getLsbD_pBit (p j : Nat) : (pBit p).getLsbD j = decide (p = j ∧ j < 480) := by
  rw [pBit, ← BitVec.twoPow_eq, BitVec.getLsbD_twoPow, ← Bool.decide_and]
  exact decide_eq_decide.mpr ⟨fun ⟨h1, h2⟩ => ⟨h2, h2 ▸ h1⟩, fun ⟨h1, h2⟩ => ⟨h1 ▸ h2, h1⟩⟩

theorem getLsbD_putBit (m : BitVec 480) (p j : Nat) (b : Bool) :
    (putBit m p b).getLsbD j = if p = j ∧ j < 480 then b else m.getLsbD j := by
  cases b with
  | true =>
    rw [putBit, if_pos rfl, BitVec.getLsbD_or, getLsbD_pBit]
    split <;> simp [*]
  | false =>
    rw [putBit, if_neg Bool.false_ne_true, BitVec.getLsbD_and, BitVec.getLsbD_not, getLsbD_pBit]
    by_cases hj : j < 480
    · by_cases h : p = j <;> simp only [h, hj] <;> simp
    · rw [BitVec.getLsbD_of_ge m j (Nat.not_lt.mp hj)]
      simp

/-- What the plane holds for one key, its seen level apart. -/
structure KeyCell where
  conf : Bool
  pending : Bool
  out : Bool
  withheld : Bool
  cnt : Nat

def cellAt (pl : KeyPlane) (p : Nat) : KeyCell :=
  { conf := pl.conf.getLsbD p, pending := pl.pending.getLsbD p, out := pl.out.getLsbD p, withheld := pl.withheld.getLsbD p, cnt := spGet 0 pl.cnt p }

theorem spGet_cnt (m : Sparse Nat) (k j x : Nat) : spGet 0 (spSet 0 m k x) j = if k = j then x else spGet 0 m j :=
  spGet_spSet (fun _ => 0) m k j x

/-- The debounce of a key leaves every other key alone. -/
theorem cellAt_debounce_ne (h : p ≠ j) : cellAt (debounce deb prov test p x pl).1 j = cellAt pl j := by
  unfold debounce
  dsimp only
  repeat' split
  all_goals simp [cellAt, getLsbD_putBit, spGet_cnt, h]

theorem debounce_seen : (debounce deb prov test p x pl).1.seen = pl.seen := by
  unfold debounce
  dsimp only
  repeat' split
  all_goals rfl

/-- The debounce of a key goes by the key's own cell. -/
theorem debounce_congr (h : cellAt pl p = cellAt pl' p) : cellAt (debounce deb prov test p x pl).1 p = cellAt (debounce deb prov test p x pl').1 p
    ∧ (debounce deb prov test p x pl).2 = (debounce deb prov test p x pl').2 := by
  simp only [cellAt, KeyCell.mk.injEq] at h
  obtain ⟨hc, hp, ho, hw, hn⟩ := h
  unfold debounce
  dsimp only
  rw [hc, hp, ho, hw, hn]
  repeat' split
  all_goals simp [cellAt, getLsbD_putBit, spGet_cnt, hc, hp, ho, hw, hn]

/-! ### The rows of the debounce (R63, R65, R68) -/

/-- The key stands confirmed at v, and nothing of it is outstanding. -/
def KeyCell.Stable (b : KeyCell) (v : Bool) : Prop := b.conf = v ∧ b.pending = false ∧ b.out = false ∧ b.withheld = false

/-- The key is pending at the count v, its provisional record outstanding or not. -/
def KeyCell.Counts (a b : KeyCell) (out : Bool) (v : Nat) : Prop :=
  b.conf = a.conf ∧ b.pending = true ∧ b.out = out ∧ b.withheld = false ∧ b.cnt = v

/-- The key keeps its confirmed state, withheld or not, and is not pending. -/
def KeyCell.Held (a b : KeyCell) (w : Bool) : Prop :=
  b.conf = a.conf ∧ b.pending = false ∧ b.out = (a.out && !a.pending) ∧ b.withheld = w

/-- The start of a press or a release to x: at a debounce of 0 or 1 confirmed at once, otherwise counted from 1. -/
def KeyCell.Starts (deb : Nat) (prov x : Bool) (a b : KeyCell) (recs first : List Nat) : Prop :=
  (deb ≤ 1 → b.Stable x ∧ recs = first ++ [if x then 4 else 5])
  ∧ (2 ≤ deb → a.Counts b prov 1 ∧ recs = first ++ if prov then [if x then 1 else 2] else [])

/-- The rows of the debounce and withholding tables for one key that reads x: from a to b with these records. -/
def KeyCell.Row (deb : Nat) (prov x : Bool) (corner : Prop) (a b : KeyCell) (recs : List Nat) : Prop :=
  let cancels : List Nat := if a.out then [3] else []
  (a.withheld = false → a.pending = false →
    (x = a.conf → a.Held b false ∧ recs = []) ∧ (x ≠ a.conf → ¬ corner → Starts deb prov x a b recs [])
    ∧ (x ≠ a.conf → corner → a.Held b true ∧ recs = [6]))
  ∧ (a.withheld = false → a.pending = true →
    (x ≠ a.conf → ¬ corner → deb ≤ a.cnt + 1 → b.Stable x ∧ recs = [if x then 4 else 5])
    ∧ (x ≠ a.conf → ¬ corner → a.cnt + 1 < deb → a.Counts b a.out (a.cnt + 1) ∧ recs = [])
    ∧ (x ≠ a.conf → corner → a.Held b true ∧ recs = cancels ++ [6]) ∧ (x = a.conf → b.Stable a.conf ∧ recs = cancels))
  ∧ (a.withheld = true → a.pending = false →
    (x = false → a.Held b false ∧ recs = [7]) ∧ (x = true → corner → a.Held b true ∧ recs = []) ∧ (x = true → ¬ corner → Starts deb prov x a b recs [7]))

/-- The debounce of a key follows its row. -/
theorem debounce_row (hp : p < 480) : KeyCell.Row deb prov x (test = true) (cellAt pl p) (cellAt (debounce deb prov test p x pl).1 p)
    ((debounce deb prov test p x pl).2.map Prod.fst) := by
  have hput (m : BitVec 480) (b : Bool) : (putBit m p b).getLsbD p = b := by rw [getLsbD_putBit, if_pos ⟨rfl, hp⟩]
  have hcnt (m : Sparse Nat) (v : Nat) : spGet 0 (spSet 0 m p v) p = v := by rw [spGet_cnt, if_pos rfl]
  clear hp
  refine ⟨fun hw hpd => ⟨fun hx => ?steady, fun hx hc => ⟨fun hd => ?atOnce, fun hd => ?begin⟩, fun hx hc => ?corner⟩,
    fun hw hpd => ⟨fun hx hc hd => ?confirm, fun hx hc hd => ?count, fun hx hc => ?cornerPending, fun hx => ?cancel⟩,
    fun hw hpd => ⟨fun hx => ?released, fun hx hc => ?stillCorner, fun hx hc => ⟨fun hd => ?outAtOnce, fun hd => ?outBegin⟩⟩⟩
  all_goals simp only [cellAt] at hw hpd hx
  case steady => simp [debounce, KeyCell.Held, cellAt, hw, hpd, hx]
  case atOnce => simp [debounce, KeyCell.Stable, cellAt, hput, hw, hpd, hx, hc, hd]
  case begin => cases prov <;> simp [debounce, KeyCell.Counts, cellAt, hput, hcnt, hw, hpd, hx, hc, Nat.not_le.mpr hd]
  case corner => simp [debounce, KeyCell.Held, cellAt, hput, hw, hpd, hx, hc]
  case confirm =>
    simp only [cellAt] at hd
    simp [debounce, KeyCell.Stable, cellAt, hput, hw, hpd, hx, hc, hd]
  case count =>
    simp only [cellAt] at hd
    simp [debounce, KeyCell.Counts, cellAt, hcnt, hw, hpd, hx, hc, Nat.not_le.mpr hd]
  case cornerPending => cases ho : pl.out.getLsbD p <;> simp [debounce, KeyCell.Held, cellAt, hput, hw, hpd, hx, hc, ho]
  case cancel => cases ho : pl.out.getLsbD p <;> simp [debounce, KeyCell.Stable, cellAt, hput, hw, hpd, hx, ho]
  case released => simp [debounce, KeyCell.Held, cellAt, hput, hw, hpd, hx]
  case stillCorner => simp [debounce, KeyCell.Held, cellAt, hw, hpd, hx, hc]
  case outAtOnce => simp [debounce, KeyCell.Stable, cellAt, hput, hw, hx, hc, hd]
  case outBegin => cases prov <;> simp [debounce, KeyCell.Counts, cellAt, hput, hcnt, hw, hx, hc, Nat.not_le.mpr hd]

end Sys2Proof.Machine
end

section
/-! SUPPORT. The sample of a drive line: its keys one after the other, each by its row, and the records that they make in key order (02
R54, R55, R63, R67, R68). -/

namespace Sys2Proof.Machine

variable {s : State} {sense k p j : Nat} {pl pl' : KeyPlane}

/-- A CANCEL record says whether it cancels a press: the key's confirmed state is released. -/
theorem debounce_cancel {deb : Nat} {prov test x b : Bool} (hr : (3, b) ∈ (debounce deb prov test p x pl).2) : b = !pl.conf.getLsbD p := by
  revert hr
  unfold debounce
  dsimp only
  repeat' split
  all_goals simp

/-- Steps at distinct places that each add to a list: the additions are those that each place makes at the start. -/
theorem foldl_collect {σ γ : Type} {f : σ → Nat → σ} {g : σ → Nat → List γ} (hg : ∀ x i j, i ≠ j → g (f x i) j = g x j) {l : List Nat}
    (hl : l.Nodup) (x : σ) (a : List γ) :
    l.foldl (fun acc p => (f acc.1 p, acc.2 ++ g acc.1 p)) (x, a) = (l.foldl f x, a ++ l.flatMap (g x)) := by
  induction l generalizing x a with
  | nil => simp
  | cons i l ih =>
    obtain ⟨hi, hl⟩ := List.nodup_cons.mp hl
    have hx : l.flatMap (g (f x i)) = l.flatMap (g x) := List.flatMap_congr fun j hj => hg x i j fun e => hi (e ▸ hj)
    rw [List.foldl_cons, ih hl, hx]
    simp

/-! ### The keys of the line and their levels -/

/-- The present keys of line k, in key order. -/
def lineKeys (k : Nat) (s : State) : List Nat := ((bitsOf 20 (kscLive s 0x0C)).map (fun c => 20 * k + c)).filter (kscPresent s)

theorem lineKeys_nodup (k : Nat) (s : State) : (lineKeys k s).Nodup :=
  ((bitsOf_nodup _ _).map fun _ _ h => Nat.add_left_cancel h).filter _

theorem line_of_mem_lineKeys (h : p ∈ lineKeys k s) : p / 20 = k := by
  obtain ⟨c, hc, rfl⟩ := List.mem_map.mp (List.mem_of_mem_filter h)
  have := (mem_bitsOf.mp hc).1
  omega

/-- Pressed, as the latched sense lines show it (1 high). -/
def keyLevel (sense p : Nat) : Bool := !sense.testBit (p % 20)

/-- The seen image after the sample. -/
def lineSeen (sense k : Nat) (s : State) : BitVec 480 :=
  (lineKeys k s).foldl (fun b p => putBit b p (keyLevel sense p)) s.ksc.plane.seen

theorem lineSeen_getLsbD (hp : p < 480) :
    (lineSeen sense k s).getLsbD p = if p ∈ lineKeys k s then keyLevel sense p else s.ksc.plane.seen.getLsbD p := by
  have hput (b : BitVec 480) (v : Bool) : (putBit b p v).getLsbD p = v := by rw [getLsbD_putBit, if_pos ⟨rfl, hp⟩]
  have hf := foldl_at (f := fun b p => putBit b p (keyLevel sense p)) (obs := fun b => b.getLsbD p) (j := p)
    (fun b i hi => by simp only [getLsbD_putBit, hi, false_and, if_false]) (fun b c _ => by simp only [hput]) (lineKeys_nodup k s)
    s.ksc.plane.seen
  rwa [hput] at hf

/-! ### New corners (R68) -/

/-- The key is present and seen pressed. -/
def KeyDown (sense k : Nat) (s : State) (p : Nat) : Prop := (kscPresent s p && (lineSeen sense k s).getLsbD p) = true

/-- A press at p of line k would close a rectangle of pressed keys that the isolated lines do not exempt (R68). -/
def Corner (sense k : Nat) (s : State) (p : Nat) : Prop :=
  keyLevel sense p = true ∧ s.ksc.plane.conf.getLsbD p = false ∧ ∃ (r : Fin 24) (y : Fin 20), r.val ≠ k ∧ y.val ≠ p % 20
    ∧ KeyDown sense k s (20 * k + y) ∧ KeyDown sense k s (20 * r + p % 20) ∧ KeyDown sense k s (20 * r + y)
    ∧ (isolated s p && isolated s (20 * k + y) && isolated s (20 * r + p % 20) && isolated s (20 * r + y)) = false

theorem mem_pressed : j ∈ pressedList s (lineSeen sense k s) ↔ j < 480 ∧ KeyDown sense k s j := by
  simp [pressedList, KeyDown, mem_upTo, and_comm]

/-- The model's test names the two neighbours, the statement their line and column. -/
theorem newCorner_iff (hp : p < 480) (hk : p / 20 = k) : newCorner s (pressedList s (lineSeen sense k s)) p = true ↔
    ∃ (r : Fin 24) (y : Fin 20), r.val ≠ k ∧ y.val ≠ p % 20
      ∧ KeyDown sense k s (20 * k + y) ∧ KeyDown sense k s (20 * r + p % 20) ∧ KeyDown sense k s (20 * r + y)
      ∧ (isolated s p && isolated s (20 * k + y) && isolated s (20 * r + p % 20) && isolated s (20 * r + y)) = false := by
  simp only [newCorner, List.any_eq_true, Bool.and_eq_true, decide_eq_true_eq, List.contains_iff_mem, mem_pressed, Bool.not_eq_true']
  constructor
  · rintro ⟨q, ⟨hq, hqd⟩, ⟨hq1, hq2⟩, r, ⟨hr, hrd⟩, ⟨⟨hr1, hr2⟩, hc, hcd⟩, hi⟩
    have e1 : 20 * (q / 20) + p % 20 = q := by omega
    have e2 : 20 * k + r % 20 = r := by omega
    refine ⟨⟨q / 20, by omega⟩, ⟨r % 20, by omega⟩, by dsimp only; omega, by dsimp only; omega, ?_⟩
    dsimp only
    rw [e1, e2]
    exact ⟨hrd, hqd, hcd, by rwa [Bool.and_right_comm (isolated s p)]⟩
  · rintro ⟨r, y, hr, hy, hd1, hd2, hd3, hi⟩
    have e1 : (20 * r.val + p % 20) / 20 = r.val := by omega
    have e2 : (20 * k + y.val) % 20 = y.val := by omega
    refine ⟨20 * r + p % 20, ⟨by omega, hd2⟩, ⟨by omega, by omega⟩, 20 * k + y, ⟨by omega, hd1⟩, ⟨⟨by omega, by omega⟩, ?_⟩, ?_⟩
    · rw [e1, e2]
      exact ⟨by omega, hd3⟩
    · rw [e1, e2]
      rwa [Bool.and_right_comm (isolated s p)]

/-! ### The sample as the steps of its keys -/

/-- The plane as the keys of the line are taken: the seen image is the sample's. -/
def lineStart (sense k : Nat) (s : State) : KeyPlane := { s.ksc.plane with seen := lineSeen sense k s }

/-- One key of the sample. -/
def keyStep (sense k : Nat) (s : State) (pl : KeyPlane) (p : Nat) : KeyPlane × List (Nat × Bool) :=
  debounce (kscLive s 0x08) (kscProvEn s p)
    (keyLevel sense p && !pl.conf.getLsbD p && newCorner s (pressedList s (lineSeen sense k s)) p) p (keyLevel sense p) pl

/-- The plane after the sample. -/
def linePlane (sense k : Nat) (s : State) : KeyPlane :=
  (lineKeys k s).foldl (fun pl p => (keyStep sense k s pl p).1) (lineStart sense k s)

/-- The records of the sample, in key order. -/
def lineRecs (sense k : Nat) (s : State) : List (Nat × Nat × Bool) :=
  (lineKeys k s).flatMap (fun p => (keyStep sense k s (lineStart sense k s) p).2.map (fun r => (r.1, p, r.2)))

theorem cellAt_keyStep_ne (h : p ≠ j) : cellAt (keyStep sense k s pl p).1 j = cellAt pl j := cellAt_debounce_ne h

theorem keyStep_congr (h : cellAt pl p = cellAt pl' p) : cellAt (keyStep sense k s pl p).1 p = cellAt (keyStep sense k s pl' p).1 p
    ∧ (keyStep sense k s pl p).2 = (keyStep sense k s pl' p).2 := by
  have hc : pl.conf.getLsbD p = pl'.conf.getLsbD p := congrArg KeyCell.conf h
  rw [keyStep, keyStep, hc]
  exact debounce_congr h

/-- The keys of the line, taken in order, leave the plane and the records of the sample. -/
theorem foldl_keyStep (sense k : Nat) (s : State) : (lineKeys k s).foldl (fun (acc : KeyPlane × List (Nat × Nat × Bool)) p =>
      ((keyStep sense k s acc.1 p).1, acc.2 ++ (keyStep sense k s acc.1 p).2.map (fun r => (r.1, p, r.2)))) (lineStart sense k s, [])
    = (linePlane sense k s, lineRecs sense k s) :=
  foldl_collect (f := fun pl p => (keyStep sense k s pl p).1) (g := fun pl p => (keyStep sense k s pl p).2.map (fun r => (r.1, p, r.2)))
    (fun _ _ _ h => by rw [(keyStep_congr (cellAt_keyStep_ne h)).2]) (lineKeys_nodup k s) _ _

theorem linePlane_seen (sense k : Nat) (s : State) : (linePlane sense k s).seen = lineSeen sense k s := by
  have h (l : List Nat) (pl : KeyPlane) : (l.foldl (fun pl p => (keyStep sense k s pl p).1) pl).seen = pl.seen := by
    induction l generalizing pl with
    | nil => rfl
    | cons p l ih => rw [List.foldl_cons, ih, keyStep, debounce_seen]
  exact h _ _

theorem cellAt_linePlane (sense k j : Nat) (s : State) : cellAt (linePlane sense k s) j
    = if j ∈ lineKeys k s then cellAt (keyStep sense k s (lineStart sense k s) j).1 j else cellAt s.ksc.plane j :=
  foldl_at (f := fun pl p => (keyStep sense k s pl p).1) (obs := fun pl => cellAt pl j) (fun _ _ h => cellAt_keyStep_ne h)
    (fun _ _ h => (keyStep_congr h).1) (lineKeys_nodup k s) _

theorem cellAt_linePlane_other (h : j ∉ lineKeys k s) : cellAt (linePlane sense k s) j = cellAt s.ksc.plane j := by
  rw [cellAt_linePlane, if_neg h]

theorem linePlane_seen_other (hp : p < 480) (h : p ∉ lineKeys k s) :
    (linePlane sense k s).seen.getLsbD p = s.ksc.plane.seen.getLsbD p := by
  rw [linePlane_seen, lineSeen_getLsbD hp, if_neg h]

theorem linePlane_seen_line (hp : p < 480) (h : p ∈ lineKeys k s) : (linePlane sense k s).seen.getLsbD p = keyLevel sense p := by
  rw [linePlane_seen, lineSeen_getLsbD hp, if_pos h]

/-- A key of the line follows its row (R63, R68). -/
theorem linePlane_row (hp : p < 480) (hm : p ∈ lineKeys k s) : KeyCell.Row (kscLive s 0x08) (kscProvEn s p) (keyLevel sense p) (Corner sense k s p)
    (cellAt s.ksc.plane p) (cellAt (linePlane sense k s) p) ((keyStep sense k s (lineStart sense k s) p).2.map Prod.fst) := by
  have hc : Corner sense k s p = ((keyLevel sense p && !(lineStart sense k s).conf.getLsbD p
      && newCorner s (pressedList s (lineSeen sense k s)) p) = true) := by
    rw [Bool.and_eq_true, newCorner_iff hp (line_of_mem_lineKeys hm), Bool.and_eq_true, Bool.not_eq_true', and_assoc]
    rfl
  have ha : cellAt s.ksc.plane p = cellAt (lineStart sense k s) p := rfl
  rw [cellAt_linePlane, if_pos hm, hc, ha]
  exact debounce_row hp

/-- A CANCEL of the sample cancels a press where the key's confirmed state is released. -/
theorem lineRecs_cancel {r : Nat × Nat × Bool} (hr : r ∈ lineRecs sense k s) (h : r.1 = 3) : r.2.2 = !s.ksc.plane.conf.getLsbD r.2.1 := by
  obtain ⟨p, -, hr⟩ := List.mem_flatMap.mp hr
  obtain ⟨⟨y, b⟩, hq, rfl⟩ := List.mem_map.mp hr
  obtain rfl : y = 3 := h
  exact debounce_cancel (pl := lineStart sense k s) hq

/-! ### The whole resolve (R55) -/

/-- A wake key that is confirmed in WATCH. -/
def lineWake (newer wakes : Bool) (s u : State) : State := if wakes && s.dct.mode = .watch then kbWake 2 newer u else u

/-- The next line that the frame scans, or the end of the frame. -/
def lineAdvance (k : Nat) (s v : State) : State :=
  match (scanLines s).find? (fun j => decide (k < j)) with
  | some j => { v with ksc := { v.ksc with fr := .line j } }
  | none => frameEnd v

/-- KSC with the plane of the sample, before its records. -/
def lineTaken (sense k : Nat) (s : State) : State := { s with ksc := { s.ksc with plane := linePlane sense k s, resolving := false } }

/-- After the records of the sample are made: m and uns are what it has measured of the line's settling. -/
def lineMade (sense k : Nat) (m : Option Nat) (uns : Bool) (s : State) : State :=
  emitKeyRecs (lineRecs sense k s) (settleNote k m uns (lineTaken sense k s))

theorem kscSample_eq (rise : List Nat) (low : Nat) (newer : Bool) (hd : domOn s 5 = true) (hk : sampleLine s = some k) :
    ∃ (m : Option Nat) (uns wakes : Bool), kscSample sense rise low newer s
      = lineAdvance k s (ghostUpdate (lineWake newer wakes s (lineMade sense k m uns s))) := by
  refine ⟨(settle (kscLive s 0x0C) (kscDwell s k) sense rise low).1, (settle (kscLive s 0x0C) (kscDwell s k) sense rise low).2,
    (lineRecs sense k s).any (fun r => r.1 = 4 && kscWake s r.2.1), ?_⟩
  have hf := foldl_keyStep sense k s
  have h1 : linePlane sense k s = (linePlane sense k s, lineRecs sense k s).1 := rfl
  have h2 : lineRecs sense k s = (linePlane sense k s, lineRecs sense k s).2 := rfl
  rw [lineMade, lineTaken, h1, h2, ← hf]
  unfold kscSample
  rw [hd, hk]
  rfl

/-- The types of the records that key p makes in the sample. -/
def keyTypes (sense k : Nat) (s : State) (p : Nat) : List Nat := (keyStep sense k s (lineStart sense k s) p).2.map Prod.fst

/-- The records of the sample as they enter the FIFO. -/
def sampleRecs (sense k : Nat) (s : State) : List KeyRec :=
  (lineKeys k s).flatMap (fun p => (keyTypes sense k s p).map (fun y => { seq := s.ksc.image.seq.toNat % 16, typ := y, pos := p }))

theorem sampleRecs_eq (sense k : Nat) (s : State) : sampleRecs sense k s = (lineRecs sense k s).map (asKeyRec s.ksc.image.seq) := by
  simp only [sampleRecs, lineRecs, keyTypes, List.map_flatMap, List.map_map]
  rfl

theorem lineRecs_length (sense k : Nat) (s : State) : (lineRecs sense k s).length = (sampleRecs sense k s).length := by
  rw [sampleRecs_eq, List.length_map]

end Sys2Proof.Machine
end

section
/-! SUPPORT. What key records do (02 R67, R79; 03 R128): the event FIFO and its overflow, KIS and HINTS, the Field Book, and the key light
of the LED that KLMAP names. -/

namespace Sys2Proof.Machine

variable {r s t u : State}

/-! ### What records and wake requests leave of the other blocks -/

/-- From s to t LGT's configuration, the clock and DCT, wake requests apart, are as they were, and no HINTS bit clears. -/
structure Beyond (s t : State) : Prop where
  lgt : t.lgt = s.lgt
  clk : t.clk = s.clk
  dct : ∃ w, t.dct = { s.dct with wakes := w }
  hints : ∀ (p : Port) (n : Nat), s.hp[p].sel.hints.getLsbD n = true → t.hp[p].sel.hints.getLsbD n = true

theorem Beyond.refl (s : State) : Beyond s s := ⟨rfl, rfl, ⟨_, rfl⟩, fun _ _ => id⟩

theorem Beyond.trans (h : Beyond r s) (k : Beyond s t) : Beyond r t := by
  obtain ⟨w, hw⟩ := h.dct
  obtain ⟨x, hx⟩ := k.dct
  exact ⟨k.lgt.trans h.lgt, k.clk.trans h.clk, ⟨x, by rw [hx, hw]⟩, fun p n => k.hints p n ∘ h.hints p n⟩

/-- A record update of KSC and the lighting banks. -/
theorem Beyond.upd (h : Beyond s t) (ksc : Ksc) (lgb : LgtBank) : Beyond s { t with ksc := ksc, lgb := lgb } := ⟨h.lgt, h.clk, h.dct, h.hints⟩

theorem Recorded.beyond (h : Recorded s t) : Beyond s t := ⟨h.lgt, h.clk, ⟨_, h.dct⟩, h.hints⟩

theorem Beyond.domOn (h : Beyond s t) (d : Nat) : domOn t d = domOn s d := by
  obtain ⟨w, hw⟩ := h.dct
  rw [Machine.domOn, hw]
  rfl

theorem Beyond.mode (h : Beyond s t) : t.dct.mode = s.dct.mode := by
  obtain ⟨w, hw⟩ := h.dct
  rw [hw]

theorem Beyond.kscHeld (h : Beyond s t) : kscHeld t = kscHeld s := by
  obtain ⟨w, hw⟩ := h.dct
  simp only [Machine.kscHeld, hw, h.clk]

theorem kbWake_beyond (code : Nat) (newer : Bool) (s : State) : Beyond s (kbWake code newer s) := by
  have h : Beyond s (raiseWake code s) := by
    rw [raiseWake_eq]
    exact ⟨rfl, rfl, ⟨_, rfl⟩, fun _ _ => id⟩
  exact h.trans (seqKbWake_recorded newer _).beyond

theorem kbWake_ksc (code : Nat) (newer : Bool) (s : State) : (kbWake code newer s).ksc = s.ksc := by
  rw [kbWake, (seqKbWake_recorded newer _).ksc, raiseWake_eq]

theorem kbWake_lgb (code : Nat) (newer : Bool) (s : State) : (kbWake code newer s).lgb = s.lgb := by
  rw [kbWake, (seqKbWake_recorded newer _).lgb, raiseWake_eq]

theorem keyFlag_beyond (made : Bool) (n : Nat) (s : State) : Beyond s (keyFlag made n s) := by
  unfold keyFlag
  split
  · exact ((Beyond.refl s).upd _ s.lgb).trans (setHint_recorded n _).beyond
  · exact .refl s

theorem keyRecord_beyond (typ pos : Nat) (press : Bool) (s : State) : Beyond s (keyRecord typ pos press s) := by
  rw [keyRecord, lgtKeyRecord_eq]
  dsimp only
  split
  · exact (Beyond.refl s).upd _ _
  · split
    · exact (Beyond.refl s).upd _ _
    · exact ((Beyond.refl s).upd _ _).trans (logRec_recorded _ _ _ _).beyond

theorem keyRecords_beyond (rs : List (Nat × Nat × Bool)) (s : State) : Beyond s (keyRecords rs s) := by
  induction rs generalizing s with
  | nil => exact .refl s
  | cons x rs ih => exact (keyRecord_beyond _ _ _ s).trans (ih _)

theorem emitKeyRecs_beyond (rs : List (Nat × Nat × Bool)) (s : State) : Beyond s (emitKeyRecs rs s) :=
  ((keyRecords_beyond rs s).trans (keyFlag_beyond _ 0 _)).trans (keyFlag_beyond _ 1 _)

/-! ### The event FIFO (R67) -/

theorem takeRec_fifo_le {k : Ksc} (x : KeyRec) (h : k.fifo.length ≤ 16) : (takeRec k x).fifo.length ≤ 16 := by
  unfold takeRec
  split
  · simp only [List.length_append, List.length_singleton]
    omega
  · exact h

/-- The records enter the FIFO in order up to 16 of them, and OVF shows a discard. -/
theorem takeRecs_fifo (l : List KeyRec) {k : Ksc} (h : k.fifo.length ≤ 16) : (l.foldl takeRec k).fifo = (k.fifo ++ l).take 16
    ∧ (l.foldl takeRec k).ovf = (k.ovf || decide (16 < k.fifo.length + l.length)) := by
  induction l generalizing k with
  | nil => simp [List.take_of_length_le h, Nat.not_lt.mpr h]
  | cons x l ih =>
    obtain ⟨h1, h2⟩ := ih (takeRec_fifo_le x h)
    rw [List.foldl_cons, h1, h2]
    unfold takeRec
    split
    · have e : k.fifo.length + 1 + l.length = k.fifo.length + (l.length + 1) := by omega
      simp [e]
    · have e : k.fifo.length = 16 := by omega
      simp [e]

theorem takeRec_kis (k : Ksc) (x : KeyRec) {i : Nat} (h : k.kis.testBit i = true) : (takeRec k x).kis.testBit i = true := by
  unfold takeRec
  split <;> simp [h]

theorem takeRecs_kis (l : List KeyRec) {k : Ksc} {i : Nat} (h : k.kis.testBit i = true) : (l.foldl takeRec k).kis.testBit i = true := by
  induction l generalizing k with
  | nil => exact h
  | cons x l ih => exact ih (takeRec_kis k x h)

/-- A discard sets KIS.EVOVF. -/
theorem takeRecs_evovf (l : List KeyRec) {k : Ksc} (h : k.fifo.length ≤ 16) (ho : 16 < k.fifo.length + l.length) :
    (l.foldl takeRec k).kis.testBit 5 = true := by
  induction l generalizing k with
  | nil => exact absurd ho (Nat.not_lt.mpr h)
  | cons x l ih =>
    rw [List.foldl_cons]
    by_cases hf : k.fifo.length < 16
    · refine ih (takeRec_fifo_le x h) ?_
      rw [takeRec, if_pos hf]
      simp only [List.length_append, List.length_cons] at ho ⊢
      omega
    · refine takeRecs_kis l ?_
      rw [takeRec, if_neg hf]
      simp only [Nat.testBit_or, (by decide : Nat.testBit 0x20 5 = true), Bool.or_true]

/-! ### KIS and HINTS (R79, R271) -/

theorem keyFlag_set {n : Nat} (hn : n < 16) (s : State) : (keyFlag true n s).ksc.kis.testBit n = true
    ∧ (domOn s 7 = true → ∀ q : Port, (keyFlag true n s).hp[q].sel.hints.getLsbD n = true) := by
  constructor
  · rw [keyFlag_ksc]
    simp
  · intro h q
    exact setHint_hints (s := kisSet (2 ^ n) s) hn h q

theorem keyFlag_kis (made : Bool) (n : Nat) {i : Nat} (h : s.ksc.kis.testBit i = true) : (keyFlag made n s).ksc.kis.testBit i = true := by
  rw [keyFlag_ksc]
  dsimp only
  split <;> simp [h]

theorem emitKeyRecs_key (rs : List (Nat × Nat × Bool)) (s : State) (h : anyKey rs = true) : (emitKeyRecs rs s).ksc.kis.testBit 0 = true
    ∧ (domOn s 7 = true → ∀ q : Port, (emitKeyRecs rs s).hp[q].sel.hints.getLsbD 0 = true) := by
  obtain ⟨h1, h2⟩ := keyFlag_set (n := 0) (by decide) (keyRecords rs s)
  rw [emitKeyRecs_eq, h]
  refine ⟨keyFlag_kis _ 1 h1, fun hd q => (keyFlag_beyond _ 1 _).hints q 0 (h2 ?_ q)⟩
  rw [(keyRecords_beyond rs s).domOn, hd]

theorem emitKeyRecs_prov (rs : List (Nat × Nat × Bool)) (s : State) (h : anyProv rs = true) : (emitKeyRecs rs s).ksc.kis.testBit 1 = true
    ∧ (domOn s 7 = true → ∀ q : Port, (emitKeyRecs rs s).hp[q].sel.hints.getLsbD 1 = true) := by
  obtain ⟨h1, h2⟩ := keyFlag_set (n := 1) (by decide) (keyFlag (anyKey rs) 0 (keyRecords rs s))
  rw [emitKeyRecs_eq, h]
  refine ⟨h1, fun hd q => h2 ?_ q⟩
  rw [(keyFlag_beyond _ 0 _).domOn, (keyRecords_beyond rs s).domOn, hd]

/-- What the flags of the records leave of the FIFO. -/
theorem emitKeyRecs_fifo (rs : List (Nat × Nat × Bool)) (s : State) : (emitKeyRecs rs s).ksc.fifo = (keyRecords rs s).ksc.fifo
    ∧ (emitKeyRecs rs s).ksc.ovf = (keyRecords rs s).ksc.ovf := by
  rw [emitKeyRecs_eq, keyFlag_ksc, keyFlag_ksc]
  exact ⟨rfl, rfl⟩

/-! ### The Field Book (R67) -/

theorem setHint_fbk (n : Nat) (s : State) : (setHint n s).fbk = s.fbk := by rw [setHint_eq]

theorem keyFlag_fbk (made : Bool) (n : Nat) (s : State) : (keyFlag made n s).fbk = s.fbk := by
  unfold keyFlag
  split
  · exact setHint_fbk n _
  · rfl

theorem emitKeyRecs_fbk (rs : List (Nat × Nat × Bool)) (s : State) : (emitKeyRecs rs s).fbk = (keyRecords rs s).fbk := by
  rw [emitKeyRecs_eq, keyFlag_fbk, keyFlag_fbk]

/-- A record that enters, or that follows the first discard, leaves no record in the Field Book. -/
theorem keyRecord_silent (typ pos : Nat) (press : Bool) (h : s.ksc.fifo.length < 16 ∨ s.ksc.ovf = true) :
    (keyRecord typ pos press s).fbk = s.fbk ∧ (keyRecord typ pos press s).svy = s.svy := by
  rw [keyRecord, lgtKeyRecord_eq]
  dsimp only
  split
  · exact ⟨rfl, rfl⟩
  · next hf =>
    rw [if_pos (h.resolve_left hf)]
    exact ⟨rfl, rfl⟩

/-- The Field Book has room, nothing to report, and no class is selected for a snapshot. -/
def BookReady (s : State) : Prop := s.fbk.ring.length < 256 ∧ s.fbk.drops = 0 ∧ s.svy.svfsel = 0

/-- The Field Book of t is that of s with one EVOVF record more (R67). -/
def LogsEvovf (s t : State) : Prop :=
  ∃ x : FbRec, t.fbk.ring = s.fbk.ring ++ [{ r := x, written := false }] ∧ x.src = 4 ∧ x.typ = 2 ∧ x.p = []

/-- The first discard logs EVOVF. -/
theorem keyRecord_logs (typ pos : Nat) (press : Bool) (hb : BookReady s) (hf : ¬ s.ksc.fifo.length < 16) (ho : s.ksc.ovf = false) :
    LogsEvovf s (keyRecord typ pos press s) := by
  obtain ⟨hr, hd, hv⟩ := hb
  rw [keyRecord, lgtKeyRecord_eq]
  dsimp only
  rw [if_neg hf, if_neg (ho ▸ Bool.false_ne_true)]
  exact logRec_ring 4 2 [] hr hd hv

theorem keyRecords_silent (rs : List (Nat × Nat × Bool)) (h : s.ksc.ovf = true) : (keyRecords rs s).fbk = s.fbk := by
  induction rs generalizing s with
  | nil => rfl
  | cons x rs ih =>
    have ho : (keyRecord x.1 x.2.1 x.2.2 s).ksc.ovf = true := by
      rw [keyRecord_ksc, takeRec]
      split
      · exact h
      · rfl
    exact (ih ho).trans (keyRecord_silent _ _ _ (.inr h)).1

theorem keyRecords_book (rs : List (Nat × Nat × Bool)) (hb : BookReady s) (hl : s.ksc.fifo.length ≤ 16) :
    if s.ksc.ovf = false ∧ 16 < s.ksc.fifo.length + rs.length then LogsEvovf s (keyRecords rs s) else (keyRecords rs s).fbk = s.fbk := by
  induction rs generalizing s with
  | nil =>
    rw [if_neg (fun h => absurd h.2 (Nat.not_lt.mpr hl))]
    rfl
  | cons x rs ih =>
    have hc : keyRecords (x :: rs) s = keyRecords rs (keyRecord x.1 x.2.1 x.2.2 s) := rfl
    by_cases ho : s.ksc.ovf = true
    · rw [if_neg (fun h => by simp [ho] at h)]
      exact keyRecords_silent _ ho
    rw [Bool.not_eq_true] at ho
    by_cases hf : s.ksc.fifo.length < 16
    · obtain ⟨h1, h2⟩ := keyRecord_silent x.1 x.2.1 x.2.2 (.inl hf)
      have hk : (keyRecord x.1 x.2.1 x.2.2 s).ksc.ovf = s.ksc.ovf ∧ (keyRecord x.1 x.2.1 x.2.2 s).ksc.fifo.length = s.ksc.fifo.length + 1 := by
        rw [keyRecord_ksc, takeRec, if_pos hf]
        exact ⟨rfl, by simp⟩
      have hi := ih (s := keyRecord x.1 x.2.1 x.2.2 s) (by rwa [BookReady, h1, h2]) (by omega)
      have e : s.ksc.fifo.length + 1 + rs.length = s.ksc.fifo.length + (rs.length + 1) := by omega
      rw [LogsEvovf, h1, hk.1, hk.2, e] at hi
      exact hi
    · have hk : (keyRecord x.1 x.2.1 x.2.2 s).ksc.ovf = true := by rw [keyRecord_ksc, takeRec, if_neg hf]
      have h16 : 16 < s.ksc.fifo.length + (x :: rs).length := by rw [List.length_cons]; omega
      rw [if_pos ⟨ho, h16⟩, hc, LogsEvovf, keyRecords_silent rs hk]
      exact keyRecord_logs _ _ _ hb hf ho

end Sys2Proof.Machine
end

section
/-! SUPPORT. The key lights (03 R128, R131): what records do to the light of one LED, and their end when D5 goes down. -/

namespace Sys2Proof.Machine

variable {s : State} {i : Nat}

/-- The light of one LED. -/
structure KeyLit where
  lit : Bool
  prov : Bool
  fade : Rat

def lightAt (k : KeyLight) (i : Nat) : KeyLit := { lit := k.lit.getLsbD i, prov := k.provLit.getLsbD i, fade := spGet 0 k.fade i }

/-- Where a light that ends starts to fall from (R129, R131). -/
def fallFrom (s : State) : Rat := if lgtLive s 0x3B = 0 then 0 else 1

/-- The record lights its key: a press, or a CANCEL of a release, for which conf still says pressed. -/
def lightsUp (conf : BitVec 480) (r : KeyRec) : Bool := r.typ = 1 || r.typ = 4 || (r.typ = 3 && conf.getLsbD r.pos)

/-- The record lets its light fall: a release. -/
def lightsFall (r : KeyRec) : Bool := r.typ = 2 || r.typ = 5

/-- What a record does to the LED that KLMAP names for it. -/
def lightStep (conf : BitVec 480) (fall : Rat) (a : KeyLit) (r : KeyRec) : KeyLit :=
  { lit := lightsUp conf r, prov := decide (r.typ = 1), fade := if lightsFall r then (if a.lit then fall else a.fade) else 0 }

/-- The record acts on LED i. -/
def lightsLed (s : State) (i : Nat) (r : KeyRec) : Bool := decide (1 ≤ r.typ ∧ r.typ ≤ 5 ∧ lgtLive s (0x20000 + r.pos) = i)

theorem getLsbD_led (hi : i < 384) (j : Nat) : (1#384 <<< j).getLsbD i = decide (j = i) := by
  rw [← BitVec.twoPow_eq, BitVec.getLsbD_twoPow]
  by_cases h : j = i
  · simp [h, hi]
  · simp [h]

theorem getLsbD_ledOn (hi : i < 384) (m : BitVec 384) (j : Nat) : (m ||| 1#384 <<< j).getLsbD i = (m.getLsbD i || decide (j = i)) := by
  rw [BitVec.getLsbD_or, getLsbD_led hi]

theorem getLsbD_ledOff (hi : i < 384) (m : BitVec 384) (j : Nat) : (m &&& ~~~(1#384 <<< j)).getLsbD i = (m.getLsbD i && !decide (j = i)) := by
  rw [BitVec.getLsbD_and, BitVec.getLsbD_not, getLsbD_led hi, decide_eq_true hi, Bool.true_and]

theorem spGet_fade (m : Sparse Rat) (k j : Nat) (x : Rat) : spGet 0 (spSet 0 m k x) j = if k = j then x else spGet 0 m j :=
  spGet_spSet (fun _ => 0) m k j x

theorem lightAt_lgtKeyRecord {conf : BitVec 480} {r : KeyRec} {press : Bool} (hd : domOn s 6 = true) (hi : i < 384)
    (hp : r.typ = 3 → press = !conf.getLsbD r.pos) : lightAt (lgtKeyRecord r.typ r.pos press s).lgb.keys i
      = if lightsLed s i r then lightStep conf (fallFrom s) (lightAt s.lgb.keys i) r else lightAt s.lgb.keys i := by
  unfold lgtKeyRecord lightsLed
  generalize lgtLive s (0x20000 + r.pos) = j
  by_cases hj : j = i
  · subst hj
    have hn : ¬ 384 ≤ j := Nat.not_le.mpr hi
    by_cases h1 : r.typ = 1
    · simp [h1, hd, hn, lightAt, lightStep, lightsUp, lightsFall, getLsbD_ledOn hi, spGet_fade]
    by_cases h4 : r.typ = 4
    · simp [h4, hd, hn, lightAt, lightStep, lightsUp, lightsFall, getLsbD_ledOn hi, getLsbD_ledOff hi, spGet_fade]
    by_cases h25 : r.typ = 2 ∨ r.typ = 5
    · cases hl : s.lgb.keys.lit.getLsbD j <;> rcases h25 with h | h <;>
        simp [h, hd, hn, hl, lightAt, lightStep, lightsUp, lightsFall, getLsbD_ledOff hi, fadeStart, fallFrom, spGet_fade]
    by_cases h3 : r.typ = 3
    · rw [hp h3]
      cases hc : conf.getLsbD r.pos <;>
        simp [h3, hd, hn, hc, lightAt, lightStep, lightsUp, lightsFall, getLsbD_ledOn hi, getLsbD_ledOff hi, spGet_fade]
    · obtain ⟨h2, h5⟩ := not_or.mp h25
      have hr : ¬ (1 ≤ r.typ ∧ r.typ ≤ 5) := by omega
      simp [hd, hn, h1, h2, h3, h4, h5, hr]
  · have hm : decide (1 ≤ r.typ ∧ r.typ ≤ 5 ∧ j = i) = false := by simp [hj]
    rw [hm, if_neg Bool.false_ne_true]
    dsimp only
    repeat' split
    all_goals simp [lightAt, fadeStart, getLsbD_ledOn hi, getLsbD_ledOff hi, spGet_fade, hj]

/-- What the records of one LED, in order, leave: with none nothing changes, the last one says whether it shines, and one alone that
lets it fall says from where. -/
theorem lightStep_foldl {conf : BitVec 480} {fall : Rat} {l : List KeyRec} {a b : KeyLit} (h : b = l.foldl (lightStep conf fall) a) :
    (l = [] → b.lit = a.lit ∧ b.prov = a.prov ∧ b.fade = a.fade)
    ∧ (∀ m r, l = m ++ [r] → b.lit = lightsUp conf r ∧ b.prov = decide (r.typ = 1) ∧ (lightsFall r = false → b.fade = 0))
    ∧ (∀ r, l = [r] → lightsFall r = true → b.fade = if a.lit then fall else a.fade) := by
  subst h
  refine ⟨fun h => ?_, fun m r h => ?_, fun r h hr => ?_⟩
  · subst h
    exact ⟨rfl, rfl, rfl⟩
  · subst h
    rw [List.foldl_append]
    exact ⟨rfl, rfl, fun hr => by simp [lightStep, hr]⟩
  · subst h
    simp [lightStep, hr]

/-- A record as KSC sends it says of a CANCEL what conf says. -/
def CancelsBy (conf : BitVec 480) (x : Nat × Nat × Bool) : Prop := x.1 = 3 → x.2.2 = !conf.getLsbD x.2.1

theorem keyRecord_lgb (typ pos : Nat) (press : Bool) (s : State) : (keyRecord typ pos press s).lgb = (lgtKeyRecord typ pos press s).lgb := by
  rw [keyRecord]
  dsimp only
  split
  · rfl
  · split
    · rfl
    · rw [(logRec_recorded _ _ _ _).lgb]

theorem emitKeyRecs_lgb (rs : List (Nat × Nat × Bool)) (s : State) : (emitKeyRecs rs s).lgb = (keyRecords rs s).lgb := by
  have h (made : Bool) (n : Nat) (s : State) : (keyFlag made n s).lgb = s.lgb := by
    unfold keyFlag
    split
    · exact (setHint_recorded n _).lgb
    · rfl
  rw [emitKeyRecs_eq, h, h]

/-- The light of a LED after records: each that acts on it, in order. -/
theorem lightAt_keyRecords {conf : BitVec 480} {rs : List (Nat × Nat × Bool)} (hd : domOn s 6 = true) (hi : i < 384)
    (hp : ∀ x ∈ rs, CancelsBy conf x) (q : BitVec 16) : lightAt (keyRecords rs s).lgb.keys i
      = ((rs.map (asKeyRec q)).filter (lightsLed s i)).foldl (lightStep conf (fallFrom s)) (lightAt s.lgb.keys i) := by
  induction rs generalizing s with
  | nil => rfl
  | cons x rs ih =>
    have hb := keyRecord_beyond x.1 x.2.1 x.2.2 s
    have hl (k : Nat) : lgtLive (keyRecord x.1 x.2.1 x.2.2 s) k = lgtLive s k := by rw [lgtLive, hb.lgt]; rfl
    have h1 : lightsLed (keyRecord x.1 x.2.1 x.2.2 s) i = lightsLed s i := funext fun r => by rw [lightsLed, hl]; rfl
    have h2 : fallFrom (keyRecord x.1 x.2.1 x.2.2 s) = fallFrom s := by rw [fallFrom, hl]; rfl
    have h3 : lightAt (keyRecord x.1 x.2.1 x.2.2 s).lgb.keys i = if lightsLed s i (asKeyRec q x)
        then lightStep conf (fallFrom s) (lightAt s.lgb.keys i) (asKeyRec q x) else lightAt s.lgb.keys i := by
      rw [keyRecord_lgb]
      exact lightAt_lgtKeyRecord (r := asKeyRec q x) hd hi (hp x (List.mem_cons_self ..))
    have hi := ih (s := keyRecord x.1 x.2.1 x.2.2 s) (by rw [hb.domOn, hd]) fun y hy => hp y (List.mem_cons_of_mem _ hy)
    rw [h1, h2, h3] at hi
    rw [keyRecords, List.foldl_cons, ← keyRecords, hi, List.map_cons, List.filter_cons]
    split <;> rfl

/-- While D6 is off no record touches LGT. -/
theorem keyRecords_dark (rs : List (Nat × Nat × Bool)) (hd : domOn s 6 = false) : (keyRecords rs s).lgb = s.lgb := by
  induction rs generalizing s with
  | nil => rfl
  | cons x rs ih =>
    have h : (keyRecord x.1 x.2.1 x.2.2 s).lgb = s.lgb := by simp [keyRecord_lgb, lgtKeyRecord, hd]
    rw [keyRecords, List.foldl_cons, ← keyRecords, ih (by rw [(keyRecord_beyond _ _ _ s).domOn, hd]), h]

/-! ### The end of the key lights (R131) -/

/-- The fall of LED j as its light ends: none for a provisional light. -/
def fadeEnd (s : State) (m : Sparse Rat) (j : Nat) : Sparse Rat :=
  if s.lgb.keys.provLit.getLsbD j then spSet 0 m j 0 else if s.lgb.keys.lit.getLsbD j then fadeStart s j m else m

theorem fadeEnd_self (m : Sparse Rat) (j : Nat) : spGet 0 (fadeEnd s m j) j
    = if s.lgb.keys.provLit.getLsbD j then 0 else if s.lgb.keys.lit.getLsbD j then fallFrom s else spGet 0 m j := by
  rw [fadeEnd]
  split
  · simp [spGet_fade]
  · split <;> simp [fadeStart, fallFrom, spGet_fade]

theorem fadeEnd_ne (m : Sparse Rat) {j : Nat} (h : j ≠ i) : spGet 0 (fadeEnd s m j) i = spGet 0 m i := by
  rw [fadeEnd]
  split
  · simp [spGet_fade, h]
  · split <;> simp [fadeStart, spGet_fade, h]

theorem keyLightEnd_keys (hd : domOn s 6 = true) : (keyLightEnd s).lgb.keys
    = { lit := 0, provLit := 0, fade := (upTo 384).foldl (fadeEnd s) s.lgb.keys.fade } := by
  rw [keyLightEnd, if_neg (by simp [hd])]
  rfl

theorem keyLightEnd_lightAt (hd : domOn s 6 = true) (hi : i < 384) : lightAt (keyLightEnd s).lgb.keys i =
    { lit := false, prov := false
      fade := if s.lgb.keys.provLit.getLsbD i then 0 else if s.lgb.keys.lit.getLsbD i then fallFrom s else spGet 0 s.lgb.keys.fade i } := by
  have h := foldl_at (f := fadeEnd s) (obs := fun m => spGet 0 m i) (fun m j h => fadeEnd_ne m h) (fun m n e => by simp only [fadeEnd_self, e])
    (upTo_nodup 384) s.lgb.keys.fade
  rw [if_pos (mem_upTo.mpr hi), fadeEnd_self] at h
  rw [keyLightEnd_keys hd, ← h]
  simp [lightAt]

end Sys2Proof.Machine
end

section
/-! SUPPORT. The end of a sample (02 R53, R55, R71): the ghosts, the wake of a key, the next line and the end of the frame; and the sample
as a whole. -/

namespace Sys2Proof.Machine

variable {s t u v : State} {k : Nat}

/-! ### Ghosts (R71) -/

/-- The reported rectangles by age: those that stay, then the new ones. -/
def ghostRects (s : State) : List Rect :=
  s.ksc.rects.filter (fun r => (rectList s s.ksc.plane).contains r) ++ (rectList s s.ksc.plane).filter (fun r => !s.ksc.rects.contains r)

/-- The numbers that GHOST shows change. -/
def ghostChanges (s : State) : Bool :=
  s.ksc.rects.length ≠ (ghostRects s).length || s.ksc.whcnt ≠ popcount 480 s.ksc.plane.withheld.toNat

theorem ghostUpdate_ksc (s : State) : (ghostUpdate s).ksc = { s.ksc with
    rects := ghostRects s, whcnt := popcount 480 s.ksc.plane.withheld.toNat
    gtag := if s.ksc.rects.head? ≠ (ghostRects s).head? then s.ksc.gtag + 1 else s.ksc.gtag
    kis := if ghostChanges s then s.ksc.kis ||| 4 else s.ksc.kis } := by
  unfold ghostUpdate
  dsimp only
  rw [apply_ite State.ksc, (setHint_recorded 2 _).ksc, ite_self]
  simp only
  rfl

theorem ghostChanges_of (h : popcount 480 s.ksc.plane.withheld.toNat ≠ s.ksc.whcnt ∨ (ghostRects s).length ≠ s.ksc.rects.length) :
    ghostChanges s = true := by
  rw [ghostChanges, Bool.or_eq_true]
  exact h.symm.imp (fun h => decide_eq_true h.symm) (fun h => decide_eq_true h.symm)

theorem ghostUpdate_beyond (s : State) : Beyond s (ghostUpdate s) := by
  unfold ghostUpdate
  dsimp only
  split
  · exact ((Beyond.refl s).upd _ s.lgb).trans (setHint_recorded 2 _).beyond
  · exact (Beyond.refl s).upd _ s.lgb

theorem ghostUpdate_lgb (s : State) : (ghostUpdate s).lgb = s.lgb := by
  unfold ghostUpdate
  dsimp only
  rw [apply_ite State.lgb, (setHint_recorded 2 _).lgb, ite_self]

theorem ghostUpdate_fbk (s : State) : (ghostUpdate s).fbk = s.fbk := by
  unfold ghostUpdate
  dsimp only
  rw [apply_ite State.fbk, setHint_fbk, ite_self]

/-! ### A wake key -/

theorem lineWake_beyond (newer wakes : Bool) (s u : State) : Beyond u (lineWake newer wakes s u) := by
  unfold lineWake
  split
  · exact kbWake_beyond 2 newer u
  · exact .refl u

theorem lineWake_ksc (newer wakes : Bool) (s u : State) : (lineWake newer wakes s u).ksc = u.ksc := by
  rw [lineWake, apply_ite State.ksc, kbWake_ksc, ite_self]

theorem lineWake_lgb (newer wakes : Bool) (s u : State) : (lineWake newer wakes s u).lgb = u.lgb := by
  rw [lineWake, apply_ite State.lgb, kbWake_lgb, ite_self]

theorem lineWake_run (newer wakes : Bool) (u : State) (h : s.dct.mode = .run) : lineWake newer wakes s u = u := by simp [lineWake, h]

/-! ### The next line -/

/-- The next line leaves the records and the ghosts, and no bit of KIS clears. -/
structure Advanced (v t : State) : Prop where
  plane : t.ksc.plane = v.ksc.plane
  fifo : t.ksc.fifo = v.ksc.fifo
  ovf : t.ksc.ovf = v.ksc.ovf
  rects : t.ksc.rects = v.ksc.rects
  whcnt : t.ksc.whcnt = v.ksc.whcnt
  kis : ∀ i, v.ksc.kis.testBit i = true → t.ksc.kis.testBit i = true
  hp : t.hp = v.hp
  lgb : t.lgb = v.lgb
  fbk : t.fbk = v.fbk

theorem lineAdvance_advanced (k : Nat) (s v : State) : Advanced v (lineAdvance k s v) := by
  unfold lineAdvance
  split
  · exact ⟨rfl, rfl, rfl, rfl, rfl, fun _ => id, rfl, rfl, rfl⟩
  · refine ⟨rfl, rfl, rfl, rfl, rfl, fun i h => ?_, rfl, rfl, rfl⟩
    simp only [frameEnd]
    split <;> simp [h]

theorem lineAdvance_next {j : Nat} (h : (scanLines s).find? (fun j => decide (k < j)) = some j) :
    lineAdvance k s v = { v with ksc := { v.ksc with fr := .line j } } := by rw [lineAdvance, h]

theorem lineAdvance_end (h : (scanLines s).find? (fun j => decide (k < j)) = none) : lineAdvance k s v = frameEnd v := by rw [lineAdvance, h]

/-- The next frame starts on the edge on which a frame ends: in RUN, with SCANEN = 1, and nothing that holds it (R53, R83). -/
abbrev NextFrame (s : State) : Prop := s.dct.mode = .run ∧ s.ksc.scanen = true ∧ s.clk.prep = false
  ∧ ¬ (s.dct.phase = .gather ∧ (s.dct.dom = some 5 ∨ (s.dct.dom = none ∧ s.dct.cur.map DctReq.tgt = some 2)))

theorem frameEnd_fr (h : Beyond s v) (he : v.ksc.scanen = s.ksc.scanen) : (frameEnd v).ksc.fr = if NextFrame s then .start else .idle := by
  have hv : (v.dct.mode = .run && v.ksc.scanen && !kscHeld v) = true ↔ NextFrame s := by
    rw [h.mode, he, h.kscHeld, Bool.and_eq_true, Bool.and_eq_true, decide_eq_true_eq, Bool.not_eq_true', ← Bool.not_eq_true, kscHeld_iff,
      GatherHolds, NextFrame, ← Bool.not_eq_true s.clk.prep]
    tauto
  simp only [frameEnd]
  exact if_congr hv rfl rfl

/-! ### The records of the sample -/

section
variable (sense k : Nat) (m : Option Nat) (uns : Bool)

theorem lineMade_beyond : Beyond s (lineMade sense k m uns s) := ((Beyond.refl s).upd _ s.lgb).trans (emitKeyRecs_beyond _ _)

/-- Of KSC the sample's records change the FIFO, OVF and KIS. -/
theorem lineMade_ksc : OnlyFifo (settleNote k m uns (lineTaken sense k s)).ksc (lineMade sense k m uns s).ksc := emitKeyRecs_onlyFifo _ _

theorem lineMade_plane : (lineMade sense k m uns s).ksc.plane = linePlane sense k s := by
  obtain ⟨_, _, _, h⟩ := lineMade_ksc sense k m uns (s := s)
  rw [h]
  rfl

theorem lineMade_scan : (lineMade sense k m uns s).ksc.image = s.ksc.image ∧ (lineMade sense k m uns s).ksc.scanen = s.ksc.scanen
    ∧ (lineMade sense k m uns s).ksc.whcnt = s.ksc.whcnt ∧ (lineMade sense k m uns s).ksc.rects = s.ksc.rects := by
  obtain ⟨_, _, _, h⟩ := lineMade_ksc sense k m uns (s := s)
  rw [h]
  exact ⟨rfl, rfl, rfl, rfl⟩

theorem lineMade_takes : (keyRecords (lineRecs sense k s) (settleNote k m uns (lineTaken sense k s))).ksc
    = (sampleRecs sense k s).foldl takeRec (settleNote k m uns (lineTaken sense k s)).ksc := by
  rw [keyRecords_ksc, sampleRecs_eq]
  rfl

theorem lineMade_fifo (hl : s.ksc.fifo.length ≤ 16) : (lineMade sense k m uns s).ksc.fifo = (s.ksc.fifo ++ sampleRecs sense k s).take 16
    ∧ (lineMade sense k m uns s).ksc.ovf = (s.ksc.ovf || decide (16 < s.ksc.fifo.length + (sampleRecs sense k s).length)) := by
  obtain ⟨h1, h2⟩ := emitKeyRecs_fifo (lineRecs sense k s) (settleNote k m uns (lineTaken sense k s))
  rw [lineMade, h1, h2, lineMade_takes]
  exact takeRecs_fifo _ hl

theorem lineMade_evovf (hl : s.ksc.fifo.length ≤ 16) (ho : 16 < s.ksc.fifo.length + (sampleRecs sense k s).length) :
    (lineMade sense k m uns s).ksc.kis.testBit 5 = true := by
  rw [lineMade, emitKeyRecs_eq]
  refine keyFlag_kis _ 1 (keyFlag_kis _ 0 ?_)
  rw [lineMade_takes]
  exact takeRecs_evovf _ hl ho

/-- A kind of record stands among those that enter the FIFO where KSC makes one. -/
theorem any_lineRecs {f : Nat → Bool} (h : ∃ r ∈ sampleRecs sense k s, f r.typ = true) : (lineRecs sense k s).any (fun x => f x.1) = true := by
  obtain ⟨r, hr, hf⟩ := h
  rw [sampleRecs_eq] at hr
  obtain ⟨x, hx, rfl⟩ := List.mem_map.mp hr
  exact List.any_eq_true.mpr ⟨x, hx, hf⟩

theorem lineMade_key (h : ∃ r ∈ sampleRecs sense k s, r.typ = 4 ∨ r.typ = 5) : (lineMade sense k m uns s).ksc.kis.testBit 0 = true
    ∧ (domOn s 7 = true → ∀ q : Port, (lineMade sense k m uns s).hp[q].sel.hints.getLsbD 0 = true) :=
  emitKeyRecs_key _ _ (any_lineRecs sense k (f := fun y => y = 4 || y = 5) (by simpa using h))

theorem lineMade_prov (h : ∃ r ∈ sampleRecs sense k s, r.typ = 1 ∨ r.typ = 2 ∨ r.typ = 3) : (lineMade sense k m uns s).ksc.kis.testBit 1 = true
    ∧ (domOn s 7 = true → ∀ q : Port, (lineMade sense k m uns s).hp[q].sel.hints.getLsbD 1 = true) :=
  emitKeyRecs_prov _ _ (any_lineRecs sense k (f := fun y => y = 1 || y = 2 || y = 3) (by simpa [or_assoc] using h))

theorem lineMade_book (hb : BookReady s) (hl : s.ksc.fifo.length ≤ 16) :
    if s.ksc.ovf = false ∧ 16 < s.ksc.fifo.length + (sampleRecs sense k s).length then LogsEvovf s (lineMade sense k m uns s)
    else (lineMade sense k m uns s).fbk = s.fbk := by
  have h := keyRecords_book (s := settleNote k m uns (lineTaken sense k s)) (lineRecs sense k s) hb hl
  rw [lineRecs_length] at h
  rw [LogsEvovf, lineMade, emitKeyRecs_fbk]
  exact h

theorem lineMade_light {i : Nat} (hd : domOn s 6 = true) (hi : i < 384) : lightAt (lineMade sense k m uns s).lgb.keys i
    = ((sampleRecs sense k s).filter (lightsLed s i)).foldl (lightStep s.ksc.plane.conf (fallFrom s)) (lightAt s.lgb.keys i) := by
  have h := lightAt_keyRecords (s := settleNote k m uns (lineTaken sense k s)) (rs := lineRecs sense k s) (conf := s.ksc.plane.conf) hd hi
    (fun x hx hc => lineRecs_cancel hx hc) s.ksc.image.seq
  rw [lineMade, emitKeyRecs_lgb, h, sampleRecs_eq]
  rfl

theorem lineMade_dark (hd : domOn s 6 = false) : (lineMade sense k m uns s).lgb = s.lgb := by
  rw [lineMade, emitKeyRecs_lgb]
  exact keyRecords_dark (s := settleNote k m uns (lineTaken sense k s)) _ hd

end

/-! ### The sample as a whole -/

/-- What the end of a sample of line k in s makes of u, in which the records have been made. -/
structure SampleDone (k : Nat) (s u t : State) : Prop where
  plane : t.ksc.plane = u.ksc.plane
  fifo : t.ksc.fifo = u.ksc.fifo
  ovf : t.ksc.ovf = u.ksc.ovf
  kis : ∀ i, u.ksc.kis.testBit i = true → t.ksc.kis.testBit i = true
  hints : ∀ (q : Port) (n : Nat), u.hp[q].sel.hints.getLsbD n = true → t.hp[q].sel.hints.getLsbD n = true
  lgb : t.lgb = u.lgb
  fbk : s.dct.mode = .run → t.fbk = u.fbk
  whcnt : t.ksc.whcnt = popcount 480 u.ksc.plane.withheld.toNat
  ghosts : t.ksc.whcnt ≠ u.ksc.whcnt ∨ t.ksc.rects.length ≠ u.ksc.rects.length → t.ksc.kis.testBit 2 = true
  next : ∀ j, (scanLines s).find? (fun j => decide (k < j)) = some j → t.ksc.fr = .line j ∧ t.ksc.image = u.ksc.image
  last : (scanLines s).find? (fun j => decide (k < j)) = none → t.ksc.image.seq = u.ksc.image.seq + 1 ∧ t.ksc.image.win = u.ksc.plane.conf
    ∧ t.ksc.image.prov = provPlane u.ksc.plane ∧ t.ksc.fr = if NextFrame s then .start else .idle

theorem sampleDone (k : Nat) (newer wakes : Bool) (hu : Beyond s u) (he : u.ksc.scanen = s.ksc.scanen) :
    SampleDone k s u (lineAdvance k s (ghostUpdate (lineWake newer wakes s u))) := by
  have ha := lineAdvance_advanced k s (ghostUpdate (lineWake newer wakes s u))
  have hb := (lineWake_beyond newer wakes s u).trans (ghostUpdate_beyond _)
  have hg := ghostUpdate_ksc (lineWake newer wakes s u)
  rw [lineWake_ksc] at hg
  refine ⟨?plane, ?fifo, ?ovf, fun i h => ha.kis i ?kis, fun q n h => ?hints, ?lgb, fun hm => ?fbk, ?whcnt, fun h => ha.kis 2 ?ghosts,
    fun j hj => ?next, fun hn => ?last⟩
  case plane => rw [ha.plane, hg]
  case fifo => rw [ha.fifo, hg]
  case ovf => rw [ha.ovf, hg]
  case kis =>
    rw [hg]
    dsimp only
    split <;> simp [h]
  case hints =>
    rw [ha.hp]
    exact hb.hints q n h
  case lgb => rw [ha.lgb, ghostUpdate_lgb, lineWake_lgb]
  case fbk => rw [ha.fbk, ghostUpdate_fbk, lineWake_run newer wakes u hm]
  case whcnt => rw [ha.whcnt, hg]
  case ghosts =>
    rw [ha.whcnt, ha.rects, hg] at h
    dsimp only at h
    have hc : ghostChanges (lineWake newer wakes s u) = true := ghostChanges_of (by rwa [lineWake_ksc])
    rw [hg, hc]
    dsimp only
    rw [if_pos rfl, Nat.testBit_or, (by decide : Nat.testBit 4 2 = true), Bool.or_true]

  case next =>
    rw [lineAdvance_next hj, hg]
    exact ⟨rfl, rfl⟩
  case last =>
    have hfr := frameEnd_fr (hu.trans hb) (v := ghostUpdate (lineWake newer wakes s u)) (by rw [hg]; exact he)
    rw [lineAdvance_end hn, hfr, frameEnd, hg]
    exact ⟨rfl, rfl, rfl, rfl⟩

end Sys2Proof.Machine
end

section
/-! SUPPORT. The levels that a sample latches, and the commit of a request that powers D5 down (03 R131; 13 R432, R437; 16 R483). -/

namespace Sys2Proof.Machine

variable {s : State}

/-! ### The levels at the pins (R483) -/

/-- The sense lines as KSC latches them: without bank K every one reads released. -/
def pinSense (sense : BitVec 20) (s : State) : Nat := if s.gpio.viok then sense.toNat else 0xFFFFF

theorem keyLevel_pinSense (sense : BitVec 20) (s : State) (p : Nat) :
    keyLevel (pinSense sense s) p = (s.gpio.viok && !sense.getLsbD (p % 20)) := by
  unfold keyLevel pinSense
  cases s.gpio.viok with
  | true => rfl
  | false =>
    have h : ∀ c : Fin 20, Nat.testBit 0xFFFFF c.val = true := by decide
    simp [h ⟨p % 20, Nat.mod_lt _ (by decide)⟩]

theorem keySampled_eq (sense : BitVec 20) (rise : List Nat) (low : Nat) (newer : Bool) (s : State) :
    ∃ rise' low', keySampled sense.toNat rise low newer s = kscSample (pinSense sense s) rise' low' newer s := by
  unfold keySampled pinSense
  cases s.gpio.viok with
  | true => exact ⟨rise, low, rfl⟩
  | false => exact ⟨[], 0, rfl⟩

theorem kscSample_idle {sense low : Nat} {rise : List Nat} {newer : Bool} (h : domOn s 5 = false ∨ sampleLine s = none) :
    kscSample sense rise low newer s = s := by
  unfold kscSample
  rcases h with h | h
  · simp [h]
  · rw [h]
    exact ite_self _

/-! ### D5 goes down (R131, R432, R437) -/

/-- With nothing held, nothing is taken at the completion of a change in RUN. -/
theorem takeHeld_none (hh : s.dct.held = none) (hd : s.dct.heldDom = none) (hm : s.dct.mode = .run) : takeHeld s = s := by
  have h1 : takeDom s = s := by
    unfold takeDom
    split
    · next h => simp [hd] at h
    · rfl
  simp [takeHeld, hh, h1, d7Wanted, hm]

/-- A change past its commit, D5 off. -/
def d5Off (s : State) : State := { s with dct := { s.dct with phase := .committed, lgtPrep := false, on := s.dct.on &&& ~~~(1#8 <<< 5) } }

/-- Of the domains only D5 goes. -/
theorem domOn_d5Off (s : State) (d : Nat) (h : d < 8) : domOn (d5Off s) d = (domOn s d && decide (d ≠ 5)) := by
  have hbit : ∀ d : Fin 8, (~~~(1#8 <<< 5)).getLsbD d.val = decide (d.val ≠ 5) := by decide
  rw [domOn, domOn, d5Off, BitVec.getLsbD_and, hbit ⟨d, h⟩]

/-- The request that powers D5 down is complete, its record apart: the clamp edge of D5, DIS.DOMAIN, no change in progress. -/
def d5Done (s : State) : State :=
  disSet 0x20 (putDct { (keyLightEnd (d5Off s)).dct with phase := .idle, cur := none, dom := none } (keyLightEnd (d5Off s)))

theorem d5Done_dct (s : State) :
    (d5Done s).dct = { (d5Off s).dct with phase := .idle, cur := none, dom := none, dis := s.dct.dis ||| 0x20 } := by
  have h : (keyLightEnd (d5Off s)).dct = (d5Off s).dct := by
    rw [keyLightEnd]
    split <;> rfl
  rw [d5Done, disSet, putDct, h]
  rfl

/-- D5 alone goes down at the commit of its request. -/
theorem entryCommit_d5 {r : DctReq} (hp : s.dct.phase = .gather) (hc : s.dct.cur = some r) (hd : s.dct.dom = some 5)
    (h5 : domOn s 5 = true) (hf : entryFails s true true = none) : entryCommit s = takeHeld (logRec 2 7 [5, r.by_] (d5Done s)) := by
  have hl : entryList s = [5] := by simp [entryList, hd, h5]
  simp only [entryCommit, d5Done, d5Off, hc, hp, hf, hl, hd, decide_true, Option.isNone_none, Bool.and_self, if_true, Option.isSome_some]
  rfl

theorem entryCommit_d5_result {r : DctReq} (hm : s.dct.mode = .run) (hp : s.dct.phase = .gather) (hc : s.dct.cur = some r)
    (hd : s.dct.dom = some 5) (h5 : domOn s 5 = true) (hf : entryFails s true true = none) (hh : s.dct.held = none) (hhd : s.dct.heldDom = none) :
    domOn (entryCommit s) 5 = false ∧ (entryCommit s).lgb = (keyLightEnd (d5Off s)).lgb := by
  have hrec := logRec_recorded 2 7 [5, r.by_] (d5Done s)
  have hdct := hrec.dct.trans (d5Done_dct s)
  have hnone := takeHeld_none ((congrArg Dct.held hdct).trans hh) ((congrArg Dct.heldDom hdct).trans hhd) ((congrArg Dct.mode hdct).trans hm)
  rw [entryCommit_d5 hp hc hd h5 hf, hnone]
  refine ⟨?_, hrec.lgb⟩
  rw [domOn, congrArg Dct.on hdct]
  exact (domOn_d5Off s 5 (by decide)).trans (Bool.and_false _)

end Sys2Proof.Machine
end

section
/-! CERTIFICATE. The sample of a drive line and the end of the key lights (02 R52 to R55, R63, R65, R67, R68, R71, R98; 03 R128, R131). -/

namespace Sys2Proof.Machine

/-- Settles O42: the keys of the line each follow their row and leave the others alone, their records go to the FIFO and to the key
lights in key order, and what follows them in the sample touches neither. -/
theorem keySamples : Obligations.KeySamples := by
  unfold Obligations.KeySamples
  refine ⟨fun sense rise low s => ⟨fun h => ?idle, fun k hd hk => ?sample⟩, fun r s hck hm hp hc hdom hd5 hd6 hf hh hhd => ?lights⟩
  case idle =>
    obtain ⟨rise', low', hs⟩ := keySampled_eq sense rise.toList low.toNat false s
    exact congrArg Host.Outcome.next (hs.trans (kscSample_idle h))
  case lights =>
    obtain ⟨hoff, hlgb⟩ := entryCommit_d5_result hm hp hc hdom hd5 hf hh hhd
    refine ⟨_, congrArg Host.Outcome.next (whenCk_on hck entryCommit), hoff, fun i hi => ?_⟩
    have hon : domOn (d5Off s) 6 = true := by rw [domOn_d5Off s 6 (by decide), hd6]; rfl
    have hl := keyLightEnd_lightAt hon hi
    rw [hlgb]
    exact ⟨congrArg KeyLit.lit hl, congrArg KeyLit.prov hl, congrArg KeyLit.fade hl⟩
  case sample =>
    obtain ⟨rise', low', hs⟩ := keySampled_eq sense rise.toList low.toNat false s
    have hx := keyLevel_pinSense sense s
    generalize pinSense sense s = sense' at hs hx
    obtain ⟨m, uns, wakes, ht⟩ := kscSample_eq (sense := sense') rise' low' false hd hk
    obtain ⟨himage, hscanen, hwhcnt, hrects⟩ := lineMade_scan sense' k m uns (s := s)
    have hplane := lineMade_plane sense' k m uns (s := s)
    have hdone := sampleDone k false wakes (lineMade_beyond sense' k m uns) hscanen
    rw [← ht, ← hs] at hdone
    have hn := hdone.plane.trans hplane
    refine ⟨_, rfl, keyTypes sense' k s, fun p hp hno => ?others, fun p hp hm => ?row, fun hl => ?fifo, fun hd6 i hi => ?light, fun hd6 => ?dark,
      ?whcnt, ?ghosts, fun j hj => ?next, fun hlast => ?last⟩
    case others =>
      have hcell := cellAt_linePlane_other (sense := sense') hno
      rw [hn]
      exact ⟨congrArg KeyCell.conf hcell, linePlane_seen_other hp hno, congrArg KeyCell.pending hcell, congrArg KeyCell.out hcell,
        congrArg KeyCell.withheld hcell⟩
    case row =>
      have hseen := linePlane_seen_line (sense := sense') hp hm
      have hrow := linePlane_row (sense := sense') hp hm
      simp only [Corner, KeyDown, ← linePlane_seen] at hrow
      rw [hx] at hrow hseen
      rw [hn]
      exact ⟨hseen, hrow⟩
    case fifo =>
      obtain ⟨hfifo, hovf⟩ := lineMade_fifo sense' k m uns hl
      refine ⟨hdone.fifo.trans hfifo, hdone.ovf.trans hovf, fun h => ?key, fun h => ?prov, fun h => ?evovf, fun hm hr hd hv => ?book⟩
      case key =>
        obtain ⟨h1, h2⟩ := lineMade_key sense' k m uns h
        exact ⟨hdone.kis 0 h1, fun h7 q => hdone.hints q 0 (h2 h7 q)⟩
      case prov =>
        obtain ⟨h1, h2⟩ := lineMade_prov sense' k m uns h
        exact ⟨hdone.kis 1 h1, fun h7 q => hdone.hints q 1 (h2 h7 q)⟩
      case evovf => exact hdone.kis 5 (lineMade_evovf sense' k m uns hl h)
      case book =>
        have hb := lineMade_book sense' k m uns ⟨hr, hd, hv⟩ hl
        rw [LogsEvovf, ← hdone.fbk hm] at hb
        exact hb
    case light =>
      have hb := lineMade_light sense' k m uns hd6 hi
      rw [← hdone.lgb] at hb
      exact lightStep_foldl hb
    case dark => exact hdone.lgb.trans (lineMade_dark sense' k m uns hd6)
    case whcnt => rw [hdone.whcnt, hdone.plane]
    case ghosts =>
      rw [← hwhcnt, ← hrects]
      exact hdone.ghosts
    case next =>
      obtain ⟨hfr, himg⟩ := hdone.next j hj
      exact ⟨hfr, himg.trans himage⟩
    case last =>
      obtain ⟨hseq, hwin, hprov, hfr⟩ := hdone.last hlast
      rw [himage] at hseq
      rw [← hdone.plane] at hwin hprov
      exact ⟨hseq, hwin, hprov, hfr⟩

end Sys2Proof.Machine
end

section
/-! CERTIFICATE. The frames and pins of the lighting engine (03 R103, R127, R141): a follower whose live GUARD is below 16. -/

namespace Sys2Proof.Machine

/-- With GUARD below 16 the bound GUARD − 16 of R127 is negative, and the model's clamp lengthens a follower's last slot. -/
theorem slotLen_guard_lt (s : State) (hr : lgtRole s = 2) (hl : s.lgt.line + 1 = lgtLive s 0x10) (hg : lgtLive s 0x14 < 16) :
    slotLen s 0 = lgtSlot s + (16 - lgtLive s 0x14) := by
  have hc : clampI (16 - (lgtLive s 0x14 : Int)) ((lgtLive s 0x14 : Int) - 16) 0 = 16 - (lgtLive s 0x14 : Int) := if_pos (by omega)
  rw [slotLen, if_pos (by simp [hr, hl]), hc]
  omega

/-- A follower in the last of its 8 lines, with GUARD = 0 in its live set: R141 refuses such a set at COMMIT, but the statement's
hypotheses do not shut it out. -/
def followerNoGuard : State := {
  lgt := { run := true, running := true, next := 8, line := 7, cfg := { live := [(0x10, 8), (0x11, 90), (0x13, 40), (0x14, 0), (0x42, 2)] } }
  gpio := { lsgv := true } }

/-- In the 16 CK past its nominal slot the line of that follower is still on: its slot is 16 CK longer. -/
theorem followerNoGuard_line_on : lsgPin followerNoGuard 7 (lgtSlot followerNoGuard) = .low := by
  have hlen : slotLen followerNoGuard 0 = lgtSlot followerNoGuard + 16 :=
    slotLen_guard_lt followerNoGuard (by decide) (by decide) (by decide)
  rw [lsgPin, slotPhase, hlen]
  decide

/-- Refutes O45: the clause on LSGj has the line off from lgtSlot on, whatever GUARD is. At `followerNoGuard` the model keeps the line
of the last slot on for 16 CK more. -/
theorem not_lightingFrames : ¬ Obligations.LightingFrames := by
  unfold Obligations.LightingFrames
  intro h
  obtain ⟨-, hpins, -⟩ := h 0 0 0 0 0 0 0 0 false followerNoGuard (by decide)
  obtain ⟨hline, -⟩ := hpins 7 (lgtSlot followerNoGuard) 0 (by decide) (by decide) (by decide)
  have hoff : lsgPin followerNoGuard 7 (lgtSlot followerNoGuard) = .high := (hline rfl (by decide)).trans (if_neg (by decide))
  exact absurd (followerNoGuard_line_on.symm.trans hoff) (by decide)

end Sys2Proof.Machine
end

section
/-! SUPPORT. Indirect data registers of two bytes (00 R13; 03 R142): a whole write by an engine, and the reads of two engines on one
edge (00 R38), of which the first alone advances the index. -/

namespace Sys2Proof.Machine

/-- The I/O addresses a and a + 1 hold an indirect data register of region r at base b: shared by the engines, refused to none, and a
read of its top byte advances its index. -/
structure IndexedPair (a b r : Nat) : Prop where
  above : b ≤ a
  low : ioRegion a = (b, r)
  high : ioRegion (a + 1) = (b, r)
  shared : perEng r (a - b) = false
  span : ∀ s, spanAt r (a - b) s = { lo := a - b, len := 2, kind := .pair }
  spanHigh : ∀ s, spanAt r (a + 1 - b) s = { lo := a - b, len := 2, kind := .pair }
  free : ∀ s e v, readRefused s e a = false ∧ readRefused s e (a + 1) = false ∧ writeRefused s (.ce e) e a v = false
    ∧ writeRefused s (.ce e) e (a + 1) v = false
  acts : readActs a = true
  topActs : topActs (a + 1) = true

namespace IndexedPair

variable {e n : Eng} {m : Mst} {a b r v x : Nat} {s t : State}

theorem at_one (i : IndexedPair a b r) : a + 1 - b - (a - b) = 1 := by have := i.above; omega

theorem base_add (i : IndexedPair a b r) : b + (a - b) = a := by have := i.above; omega

/-! ### The write (R13) -/

theorem ioPut_low (i : IndexedPair a b r) : ioPut m e a v s
    = withIo { s.io with held := spSet none s.io.held (ioKey m 0 a) (some (v % 256)) } s := by
  simp [ioPut, i.low, i.span, i.shared, i.base_add, withIo]

theorem ioPut_high (i : IndexedPair a b r) (hh : spGet none s.io.held (ioKey m 0 a) = some x) (hl : x < 256) :
    ioPut m e (a + 1) v s = regWrite m e r (a - b) (x + 256 * (v % 256)) (withIo { s.io with held := spErase s.io.held (ioKey m 0 a) } s) := by
  have hv : leNat [x, v] = x + 256 * (v % 256) := by simp only [leNat]; omega
  simp [ioPut, i.high, i.spanHigh, i.shared, i.at_one, i.base_add, hv, hh, withIo]

theorem outBytes_cons {l : List Nat} (h : EngMay s e a true) (hw : writeRefused s (.ce e) e a v = false) :
    outBytes e false a (v :: l) s = outBytes e false (a + 1) l (ioPut (.ce e) e a v s) := by
  obtain ⟨-, hden, hoff, -, hgov⟩ := h
  simp [outBytes, govPast_none hgov, engOut, engTry, hden, hoff, hw]

/-- An engine writes the register whole; the fabric's held bytes apart. -/
theorem engWrite_whole (i : IndexedPair a b r) (h : EngMay s e a true) (h' : EngMay s e (a + 1) true) :
    ∃ y, engWrite e a 2 v s = regWrite (.ce e) e r (a - b) (v % 65536) (withIo y s) := by
  have hv : v % 256 % 256 + 256 * (v / 256 % 256 % 256) = v % 65536 := by omega
  obtain ⟨-, -, hw, -⟩ := i.free s e (v % 256)
  rw [engWrite_eq h, leBytes, leBytes, leBytes, outBytes_cons h hw, i.ioPut_low]
  generalize hy : ({ s.io with held := _ } : IoBuf) = y
  have hh : spGet none (withIo y s).io.held (ioKey (.ce e) 0 a) = some (v % 256 % 256) := by
    rw [withIo_io, ← hy]
    exact spGet_spSet_some _ _ _
  obtain ⟨-, -, -, hw'⟩ := i.free (withIo y s) e (v / 256 % 256)
  rw [outBytes_cons (h'.withIo y) hw', outBytes, i.ioPut_high hh (Nat.mod_lt _ (by decide)), hv]
  exact ⟨_, rfl⟩

/-! ### The reads (R13, R38) -/

theorem inBytes_succ {again : Bool} {k : Nat} {l : List Nat} (h : EngMay s e a false) (hr : readRefused s e a = false) :
    inBytes e again a (k + 1) l s = inBytes e again (a + 1) k (l ++ [(ioGet (.ce e) e a s again).2]) (ioGet (.ce e) e a s again).1 := by
  obtain ⟨-, hden, hoff, -, hgov⟩ := h
  simp only [inBytes, govPast_none hgov, engIn, hden, hoff, hr, Bool.false_eq_true, if_false]

/-- An engine reads both bytes, where its read of the first leaves the state but for the I/O fabric. -/
theorem engRead_whole {again : Bool} {y z : IoBuf} {j k : Nat} (i : IndexedPair a b r) (h : EngMay s e a false) (h' : EngMay s e (a + 1) false)
    (hj : ioGet (.ce e) e a s again = (withIo y s, j)) (hk : ioGet (.ce e) e (a + 1) (withIo y s) again = (withIo z t, k)) :
    engRead e a 2 s again = withIo { z with rd := z.rd.set e (leNat [j, k]) } t := by
  have he : engRead e a 2 s again = inBytes e again a 2 [] s := by
    obtain ⟨hrun, -, -, hbad, -⟩ := h
    rw [engRead, if_pos hrun, engCount_eq hbad, afterKick_none hbad]
  obtain ⟨hr, -⟩ := i.free s e 0
  obtain ⟨-, hr', -⟩ := i.free (withIo y s) e 0
  rw [he, inBytes_succ h hr, hj, inBytes_succ (h'.withIo y) hr', hk]
  rfl

/-- The first byte is read from the register, which latches the second. -/
theorem ioGet_low (i : IndexedPair a b r) (hv : regRead e r (a - b) s = (s, v)) :
    ∃ y, ioGet m e a s = (withIo y s, v % 256) ∧ spGet none y.latch (ioKey m 0 (a + 1)) = some (byteOf v 1) := by
  refine ⟨{ s.io with latch := spSet none s.io.latch (ioKey m 0 (a + 1)) (some (byteOf v 1))
                      was := spSet none (spErase s.io.was (a + 1)) a (some v) }, ?_, spGet_spSet_some _ _ _⟩
  simp [ioGet, i.low, i.span, i.shared, hv, i.base_add, readNote, i.acts, withIo, List.range_succ]

/-- The second byte is read from the latch; that read is noted for both bytes and advances the index. -/
theorem ioGet_high (i : IndexedPair a b r) (hl : spGet none s.io.latch (ioKey m 0 (a + 1)) = some x) (hv : (regRead e r (a - b) s).2 = v) :
    ∃ z, ioGet m e (a + 1) s = (topRead (a + 1) (withIo z s), x) ∧ spGet none z.was a = some v ∧ spGet none z.was (a + 1) = some v := by
  refine ⟨{ s.io with was := spSet none (spSet none s.io.was a (some v)) (a + 1) (some v) }, ?_, ?_, spGet_spSet_some _ _ _⟩
  · simp [ioGet, i.high, i.spanHigh, i.shared, hv, i.at_one, i.base_add, hl, readNote, i.acts, i.topActs, withIo]
  · rw [spGet_spSet (fun _ => none), if_neg (by omega)]
    exact spGet_spSet_some _ _ _

/-- A read of the first byte on the edge of a read that is noted gives what that one gave. -/
theorem ioGet_low_again (i : IndexedPair a b r) (hw : spGet none s.io.was a = some v) : ∃ y, ioGet m e a s true = (withIo y s, v % 256)
    ∧ spGet none y.latch (ioKey m 0 (a + 1)) = some (byteOf v 1) ∧ y.was = s.io.was := by
  refine ⟨{ s.io with latch := spSet none s.io.latch (ioKey m 0 (a + 1)) (some (byteOf v 1)) }, ?_, spGet_spSet_some _ _ _, rfl⟩
  simp [ioGet, i.low, i.span, i.shared, i.base_add, readWas, hw, withIo, List.range_succ]

/-- So does one of the second byte, and it advances nothing. -/
theorem ioGet_high_again (i : IndexedPair a b r) (hl : spGet none s.io.latch (ioKey m 0 (a + 1)) = some x)
    (hw : spGet none s.io.was (a + 1) = some v) : ioGet m e (a + 1) s true = (s, x) := by
  simp [ioGet, i.high, i.spanHigh, i.shared, i.at_one, i.base_add, readWas, hw, hl]

/-- The two bytes of a value. -/
theorem leNat_bytes (v : Nat) : leNat [v % 256, byteOf v 1] = v % 65536 := by
  simp only [leNat, byteOf, Nat.shiftRight_eq_div_pow]
  omega

/-- The first read on an edge gives the register's value, advances its index and is noted. -/
theorem engRead_noted (i : IndexedPair a b r) (hv : ∀ y, regRead e r (a - b) (withIo y s) = (withIo y s, v))
    (ht : ∀ y, topRead (a + 1) (withIo y s) = withIo y t) (h : EngMay s e a false) (h' : EngMay s e (a + 1) false) :
    ∃ y, engRead e a 2 s = withIo y t ∧ y.rd[e] = v % 65536 ∧ spGet none y.was a = some v ∧ spGet none y.was (a + 1) = some v := by
  obtain ⟨y, hlow, hl⟩ := i.ioGet_low (m := .ce e) (hv s.io)
  obtain ⟨z, hhigh, hw⟩ := i.ioGet_high (e := e) (s := withIo y s) hl (congrArg Prod.snd (hv y))
  rw [withIo_withIo, ht] at hhigh
  exact ⟨_, i.engRead_whole h h' hlow hhigh, by simp [leNat_bytes], hw⟩

/-- A later read on that edge gives the same value and has no effect. -/
theorem engRead_again (i : IndexedPair a b r) (h : EngMay s e a false) (h' : EngMay s e (a + 1) false) (hw : spGet none s.io.was a = some v)
    (hw' : spGet none s.io.was (a + 1) = some v) : ∃ z, engRead e a 2 s true = withIo z s ∧ z.rd[e] = v % 65536 := by
  obtain ⟨y, hlow, hl, hy⟩ := i.ioGet_low_again (m := .ce e) (e := e) hw
  have hhigh := i.ioGet_high_again (e := e) (s := withIo y s) hl (hy ▸ hw')
  exact ⟨_, i.engRead_whole h h' hlow hhigh, by simp [leNat_bytes]⟩

/-- Two engines read the register on one edge: both get its value, and its index advances once. -/
theorem readBoth (i : IndexedPair a b r) (hv : ∀ y, regRead e r (a - b) (withIo y s) = (withIo y s, v))
    (ht : ∀ y, topRead (a + 1) (withIo y s) = withIo y t) (h : EngMay s e a false) (h' : EngMay s e (a + 1) false)
    (hn : EngMay t n a false) (hn' : EngMay t n (a + 1) false) :
    ∃ y z, engRead e a 2 s = withIo y t ∧ y.rd[e] = v % 65536 ∧ engRead n a 2 (withIo y t) true = withIo z t ∧ z.rd[n] = v % 65536 := by
  obtain ⟨y, hread, hrd, hw, hw'⟩ := i.engRead_noted hv ht h h'
  obtain ⟨z, hagain, hrdn⟩ := i.engRead_again (hn.withIo y) (hn'.withIo y) hw hw'
  exact ⟨y, z, hread, hrd, hagain, hrdn⟩

end IndexedPair

/-- LIXDAT (R142). -/
theorem lixdat_pair : IndexedPair 0x8A3 0x800 3 :=
  ⟨by decide, rfl, rfl, rfl, fun _ => rfl, fun _ => rfl, fun _ _ _ => ⟨rfl, rfl, rfl, rfl⟩, by decide, by decide⟩

end Sys2Proof.Machine
end

section
/-! SUPPORT. The faults of LGT and the registers that clear them (03 R107, R112, R113, R116, R119, R139, R142): a fault sets its flag and
LIS.FAULT and logs its record. -/

namespace Sys2Proof.Machine

variable {e : Eng} {s u : State}

/-- From s to t a record of LGT enters the Field Book, where nothing is discarded and no class is selected for a snapshot. -/
def LgtLogs (s t : State) (typ : Nat) (p : List Nat) : Prop := s.fbk.ring.length < 256 → s.fbk.drops = 0 → s.svy.svfsel = 0 →
  ∃ r : FbRec, t.fbk.ring = s.fbk.ring ++ [{ r := r, written := false }] ∧ r.src = 5 ∧ r.typ = typ ∧ r.p = p

theorem logRec_lgtLogs (typ : Nat) (p : List Nat) (hf : u.fbk = s.fbk) (hv : u.svy = s.svy) : LgtLogs s (logRec 5 typ p u) typ p := by
  rw [LgtLogs, ← hf, ← hv]
  exact logRec_ring 5 typ p

/-! ### Flags -/

theorem lfltSet_eq (m : Nat) (s : State) : lfltSet m s
    = { s with lgt := { s.lgt with flt := s.lgt.flt ||| m, lis := s.lgt.lis ||| 0x20 }, hp := (lfltSet m s).hp } := by
  rw [lfltSet, setHint_eq]

theorem lfltSet_lgt (m : Nat) (s : State) : (lfltSet m s).lgt = { s.lgt with flt := s.lgt.flt ||| m, lis := s.lgt.lis ||| 0x20 } := by
  rw [lfltSet_eq]

theorem lfltSet_lgb (m : Nat) (s : State) : (lfltSet m s).lgb = s.lgb := by rw [lfltSet_eq]

/-- A fault that leaves q of LGT and b of its banks sets its flag and logs its record (R139). -/
def lgtFaulted (q : Lgt) (b : LgtBank) (m typ : Nat) (p : List Nat) (s : State) : State :=
  logRec 5 typ p (lfltSet m { s with lgt := q, lgb := b })

theorem lgtFaulted_eq (q : Lgt) (b : LgtBank) (m typ : Nat) (p : List Nat) (s : State) :
    (lgtFaulted q b m typ p s).lgt = { q with flt := q.flt ||| m, lis := q.lis ||| 0x20 } ∧ (lgtFaulted q b m typ p s).lgb = b
    ∧ LgtLogs s (lgtFaulted q b m typ p s) typ p := by
  have hr := logRec_recorded 5 typ p (lfltSet m { s with lgt := q, lgb := b })
  refine ⟨hr.lgt.trans (lfltSet_lgt _ _), hr.lgb.trans (lfltSet_lgb _ _), logRec_lgtLogs typ p ?_ ?_⟩ <;> rw [lfltSet_eq]

/-! ### Faults -/

/-- Entry i of the fault map latched, and its verdict counted anew (R116). -/
def ledLatched (i x : Nat) (b : LgtBank) : LgtBank :=
  { b with fault := spSet 0 b.fault i x, verdict := spSet (0, 0) b.verdict i (0, 0) }

theorem lgtLedFault_eq {i x m : Nat} (hd : domOn s 6 = true) (hi : i < 1152) (hv : spGet (0, 0) s.lgb.verdict i = (x, m)) (hx : x = 1 ∨ x = 2)
    (hm : lgtLive s 0x16 ≤ m) (hf : spGet 0 s.lgb.fault i = 0) :
    lgtLedFault i s = lgtFaulted s.lgt (ledLatched i x s.lgb) 0x04 (x + 2) [i] s := by
  have hx0 : x ≠ 0 := by omega
  have ht : (if x = 1 then 0x03 else 0x04) = x + 2 := by rcases hx with rfl | rfl <;> rfl
  simp [lgtLedFault, hd, hi, hv, hx0, hm, hf, ht, ledLatched, lgtFaulted]

/-- The frames with a LOW sample at RMAX counted anew (R112, log entry 48). -/
def lowsCleared (c : Fin 3) (q : Lgt) : Lgt := { q with rails := modAt q.rails c (fun r => { r with lows := 0 }) }

theorem lgtHeadroom_eq {c : Fin 3} (hd : domOn s 6 = true) (h : 64 ≤ s.lgt.rails[c].lows) :
    lgtHeadroom c s = lgtFaulted (lowsCleared c s.lgt) s.lgb 0x20 1 [c.val] s := if_pos (by simpa [hd] using h)

theorem railPast_iff {c : Fin 3} : railPast s c = true
    ↔ s.lgt.rails[c].st = .on ∨ (∃ k, s.lgt.rails[c].st = .soft k) ∧ (s.lgt.running = false ∨ s.lgt.atB = true) := by
  simp only [railPast]
  cases s.lgt.rails[c].st <;> simp

/-- Rail c off and the matrix dark (R113). -/
def railDown (c : Fin 3) (q : Lgt) : Lgt :=
  { q with rails := modAt q.rails c (fun r => { r with st := .off }), pulses := [], probe := 0 }

theorem lgtRailFault_eq {c : Fin 3} (hd : domOn s 6 = true) (h : railPast s c = true) :
    lgtRailFault c s = lgtFaulted (railDown c s.lgt) s.lgb 0x10 2 [c.val] s := if_pos (by simp [hd, h])

theorem modAt_self {α : Type} {n : Nat} (v : Vector α n) (i : Fin n) (f : α → α) : (modAt v i f)[i] = f v[i] := by simp [modAt]

/-- A stage in which R119 looks for faults: on, lit, and with no fault in this frame. -/
def StageTested (s : State) (n : Fin 8) : Prop :=
  (lgtLive s (0x50 + 8 * n.val)).testBit 0 = true ∧ (s.lgt.run = true ∨ s.lgt.running = true) ∧ s.lgt.blanked = false
  ∧ (s.lgt.esopen ||| s.lgt.esshort ||| s.lgt.esOff).testBit n.val = false

/-- Stage n latched and off (R119). -/
def stageLatched (open_ : Bool) (n : Fin 8) (q : Lgt) : Lgt :=
  { q with esopen := if open_ then q.esopen ||| 2 ^ n.val else q.esopen, esshort := if open_ then q.esshort else q.esshort ||| 2 ^ n.val
           esOff := q.esOff ||| 2 ^ n.val, esPulse := q.esPulse.set n (0, 0) }

theorem stageLatched_esPulse (open_ : Bool) (n : Fin 8) (q : Lgt) : (stageLatched open_ n q).esPulse[n] = (0, 0) := by simp [stageLatched]

theorem lgtStageFault_eq {n : Fin 8} (open_ : Bool) (hd : domOn s 6 = true) (h : StageTested s n) :
    lgtStageFault open_ n s = lgtFaulted (stageLatched open_ n s.lgt) s.lgb 0x08 (if open_ then 5 else 6) [n.val] s := by
  obtain ⟨hen, hrun, hlit, hok⟩ := h
  have hr : (s.lgt.run || s.lgt.running) = true := by simpa using hrun
  exact if_pos (by simp only [hd, hen, hr, hlit, hok]; rfl)

theorem lsyncLost_eq (hd : domOn s 6 = true) (hr : lgtRole s = 2) (hg : s.lgt.running = true) (hl : s.lgb.synclost = false) :
    lsyncLost s = logRec 5 7 [s.lgt.lframe.toNat] (lisSet 0x10 { s with lgb := { s.lgb with synclost := true } }) :=
  if_pos (by simp [hd, hr, hg, hl])

/-! ### The registers that clear them (R14, R139) -/

/-- A W1C write clears the bits that are 1 in it. -/
theorem testBit_w1c (n v w k : Nat) (hk : k < n) : (w1c n v w).testBit k = (v.testBit k && !w.testBit k) := by
  simp only [w1c, BitVec.testBit_toNat, BitVec.getLsbD_and, BitVec.getLsbD_not, BitVec.getLsbD_ofNat, hk, decide_true, Bool.true_and]

theorem engWrite_lflt (h : EngMay s e 0x807 true) (v : Byte) :
    engWrite e 0x807 1 v.toNat s = { s with lgt := { s.lgt with flt := w1c 7 s.lgt.flt v.toNat } } := by
  rw [engWrite_byte (b := 0x800) (r := 3) h rfl rfl rfl, Nat.mod_eq_of_lt v.isLt]
  rfl

theorem engWrite_esopen (h : EngMay s e 0x890 true) (v : Byte) :
    engWrite e 0x890 1 v.toNat s = { s with lgt := { s.lgt with esopen := w1c 8 s.lgt.esopen v.toNat } } := by
  rw [engWrite_byte (b := 0x800) (r := 3) h rfl rfl rfl, Nat.mod_eq_of_lt v.isLt]
  rfl

/-! ### LIXDAT and LTIN (R107, R142) -/

/-- A write of LIXDAT by an engine. -/
theorem engWrite_lixdat (h : EngMay s e 0x8A3 true) (h' : EngMay s e 0x8A4 true) (v : Half) :
    ∃ y, engWrite e 0x8A3 2 v.toNat s = lixWrite v.toNat (withIo y s) := by
  obtain ⟨y, hy⟩ := lixdat_pair.engWrite_whole (v := v.toNat) h h'
  rw [Nat.mod_eq_of_lt v.isLt] at hy
  exact ⟨y, hy⟩

/-- A write of 0b00 to an entry of the fault map clears it (R116, R142). -/
theorem lixWrite_fault (ht : s.lgb.lixsel = 4) (hi : s.lgb.lixidx < 1152) : lixWrite 0 s
    = { s with lgb := { s.lgb with fault := spSet 0 s.lgb.fault s.lgb.lixidx 0, lixidx := (s.lgb.lixidx + 1) % 2048 } } := by
  simp [lixWrite, ht, hi]

/-- A write beyond the table only sets BSTAT.ERR (R142). -/
theorem lixWrite_beyond (v : Nat) (ht : s.lgb.lixsel = 0) (hi : 1160 ≤ s.lgb.lixidx) :
    lixWrite v s = { s with lgt := { s.lgt with cfg := { s.lgt.cfg with err := true } } } := by
  simp [lixWrite, ht, hi]

/-- A write of a back half that no swap and no copy-back holds (R120, R142). -/
theorem lixWrite_back (v : Half) (ht : s.lgb.lixsel = 0) (hi : s.lgb.lixidx < 1160) (hs : s.lgb.swap = none) (hc : s.lgb.copying = false) :
    lixWrite v.toNat s = { s with lgb := { s.lgb with
      back := spSet 0 s.lgb.back s.lgb.lixidx v.toNat, lixidx := (s.lgb.lixidx + 1) % 2048 } } := by
  have hn : ¬ 1160 ≤ s.lgb.lixidx := by omega
  have hv : v.toNat % 65536 = v.toNat := Nat.mod_eq_of_lt v.isLt
  simp [lixWrite, lgtBackWrite, ht, hn, hs, hc, hv]

/-- Two engines read LIXDAT on one edge (R38, R142). -/
theorem lixdat_readBoth {n : Eng} (h : EngMay s e 0x8A3 false) (h' : EngMay s e 0x8A4 false) (hn : EngMay s n 0x8A3 false)
    (hn' : EngMay s n 0x8A4 false) : ReadBoth (.lixdatRead · ·) e n (lixEntry s % 65536) s
      { s with lgb := { s.lgb with lixidx := (s.lgb.lixidx + 1) % 2048 } } := by
  obtain ⟨y, z, h1, h2, h3, h4⟩ := lixdat_pair.readBoth (e := e) (n := n) (v := lixEntry s)
    (t := { s with lgb := { s.lgb with lixidx := (s.lgb.lixidx + 1) % 2048 } }) (fun _ => rfl) (fun _ => rfl) h h' hn hn'
  exact ⟨y, z, congrArg Host.Outcome.next h1, h2, congrArg Host.Outcome.next h3, h4⟩

/-- A write of LTIN by an engine where TSRC takes it (R107). -/
theorem engWrite_ltin (h : EngMay s e 0x892 true) (h' : EngMay s e 0x893 true) (ht : fld (lgtLive s 0x2B) 1 0 = 2) (v : Half) :
    ∃ y, engWrite e 0x892 2 v.toNat s = withIo y { s with lgb := { s.lgb with ltin := v.toNat, tstale := false } } := by
  obtain ⟨y, hy⟩ := engWrite_two (v := v.toNat) h h' (by decide) rfl rfl rfl (fun _ => rfl) rfl (fun _ => rfl)
  have hv : v.toNat % 65536 = v.toNat := Nat.mod_eq_of_lt v.isLt
  rw [hv] at hy
  refine ⟨y, hy.trans ?_⟩
  change (if fld (lgtLive s 0x2B) 1 0 = 2 then ltinSet v.toNat (withIo y s) else withIo y s) = _
  rw [if_pos ht, ltinSet, hv]
  rfl

end Sys2Proof.Machine
end

section
/-! SUPPORT. LSYNC at a follower (03 R121, R125 to R127): what a pulse leaves before any frame, and what the frame keeps of it. -/

namespace Sys2Proof.Machine

variable {s : State}

/-! ### Commit requests (R121) -/

theorem lgtCommitReq_none (pulse : Bool) (h : s.lgb.swap = none) : lgtCommitReq pulse s
    = { s with lgb := { s.lgb with swap := some { atOnce := !s.lgt.run, taken := false, pulse := pulse } } } := by simp [lgtCommitReq, h]

theorem lgtCommitReq_eq (pulse : Bool) (s : State) : lgtCommitReq pulse s = { s with lgb := { s.lgb with swap := (lgtCommitReq pulse s).lgb.swap } } := by
  unfold lgtCommitReq
  split <;> rfl

/-! ### LSYNC (R125 to R127) -/

/-- What a follower takes of a pulse before any frame: whether its edge ends the loss of sync, and whether it is a commit pulse. -/
def pulseHeard (near commit : Bool) (s : State) : State :=
  let s1 := if near then { s with lgb := { s.lgb with synclost := false } } else s
  if commit then lgtCommitReq false s1 else s1

theorem synclost_near (near : Bool) (s : State) : (if near then { s with lgb := { s.lgb with synclost := false } } else s)
    = { s with lgb := { s.lgb with synclost := s.lgb.synclost && !near } } := by cases near <;> simp

/-- A pulse changes SYNCLOST and the pending swap. -/
theorem pulseHeard_eq (near commit : Bool) (s : State) : pulseHeard near commit s = { s with lgb := { s.lgb with
    synclost := s.lgb.synclost && !near, swap := (pulseHeard near commit s).lgb.swap } } := by
  rw [pulseHeard, synclost_near]
  cases commit
  · rfl
  · exact lgtCommitReq_eq _ _

/-- With no swap pending a commit pulse is a request. -/
theorem pulseHeard_none (near commit : Bool) (h : s.lgb.swap = none) : pulseHeard near commit s
    = (let b : LgtBank := { s.lgb with synclost := s.lgb.synclost && !near }
       if commit then { s with lgb := { b with swap := some { atOnce := !s.lgt.run, taken := false, pulse := false } } }
       else { s with lgb := b }) := by
  rw [pulseHeard, synclost_near]
  exact congrArg (if commit then · else _) (lgtCommitReq_none false h)

theorem pulseHeard_isSome (near commit : Bool) (h : s.lgb.swap = none) : (pulseHeard near commit s).lgb.swap.isSome = commit := by
  rw [pulseHeard_none near commit h]
  cases commit
  · simp [h]
  · rfl

variable {low : Nat} {off : Int}

theorem lsyncPulse_stopped (hd : domOn s 6 = true) (hr : lgtRole s = 2) (hrun : s.lgt.run = false) :
    lsyncPulse low off s = pulseHeard (s.lgt.running && |off| ≤ 2) (16 ≤ low) s := by
  simp [lsyncPulse, hd, hr, hrun, pulseHeard]

/-- The pulse that starts a waiting follower. -/
theorem lsyncPulse_first (hd : domOn s 6 = true) (hr : lgtRole s = 2) (hrun : s.lgt.run = true) (hg : s.lgt.running = false) :
    lsyncPulse low off s = lgtFrame (pulseHeard true (16 ≤ low) { s with lgt := { s.lgt with running := true } }) := by
  simp [lsyncPulse, hd, hr, hrun, hg, pulseHeard]

/-- An edge near its boundary ends the loss of sync, and starts the frame that is due. -/
theorem lsyncPulse_found (hd : domOn s 6 = true) (hr : lgtRole s = 2) (hrun : s.lgt.run = true) (hg : s.lgt.running = true)
    (hl : s.lgb.synclost = true) (ho : |off| ≤ 2) : lsyncPulse low off s
    = if s.lgt.atB then lgtFrame (pulseHeard true (16 ≤ low) s) else pulseHeard true (16 ≤ low) s := by
  have hb : (pulseHeard true (16 ≤ low) s).lgt.atB = s.lgt.atB := by rw [pulseHeard_eq]
  rw [← hb]
  simp [lsyncPulse, hd, hr, hrun, hg, hl, ho, pulseHeard]

/-! ### What a frame boundary keeps (R104, R127) -/

theorem lgtFrame_running (s : State) : (lgtFrame s).lgt.running = s.lgt.running := rfl
theorem lgtFrame_lframe (s : State) : (lgtFrame s).lgt.lframe = s.lgt.lframe + 1 := rfl
theorem lgtFrame_synclost (s : State) : (lgtFrame s).lgb.synclost = s.lgb.synclost := rfl
theorem lgtFrame_swap (s : State) : (lgtFrame s).lgb.swap.isSome = s.lgb.swap.isSome := Option.isSome_map

end Sys2Proof.Machine
end

section
/-! SUPPORT. The lighting chain (03 R123, R132 to R134): the response word, a command with and without the right to it, and what the
commands do. -/

namespace Sys2Proof.Machine

variable {s : State}

/-! ### The shift and the response (R132, R134) -/

/-- A shift: LTDI into bit 0, and the bit that comes to place 47 on LTDO (R132). -/
theorem chainShift_eq (d : Bool) (hd : domOn s 6 = true) : chainShift d s = { s with lgb := { s.lgb with
    chain := (s.lgb.chain <<< 1) ||| (if d then 1#48 else 0#48), ltdo := s.lgb.chain.getLsbD 46 } } := by
  have hb : ((s.lgb.chain <<< 1) ||| (if d then 1#48 else 0#48)).getLsbD 47 = s.lgb.chain.getLsbD 46 := by cases d <;> simp
  rw [chainShift, if_neg (by simp [hd])]
  simp only [hb]

/-- s with a response word in the chain register. -/
def chainAnswered (r : BitVec 48) (s : State) : State := { s with lgb := { s.lgb with chain := r } }

theorem chainAnswered_lgt (r : BitVec 48) (s : State) : (chainAnswered r s).lgt = s.lgt := rfl
theorem chainAnswered_back (r : BitVec 48) (s : State) : (chainAnswered r s).lgb.back = s.lgb.back := rfl

/-- A response word speaks of LGT and its pending swap, so that it is the same once it is loaded. -/
theorem chainResponse_answered (denied : Bool) (cmd low : Nat) (r : BitVec 48) (s : State) :
    chainResponse denied cmd low (chainAnswered r s) = chainResponse denied cmd low s := rfl

theorem chainAnswered_chain (cmd : Nat) (s : State) : (chainAnswered (chainResponse false cmd 0 s) s).lgb.chain
    = chainResponse false cmd 0 (chainAnswered (chainResponse false cmd 0 s) s) := by
  rw [chainResponse_answered, chainAnswered]

theorem bAt_le (b : Bool) (i : Nat) : bAt b i ≤ 2 ^ i := by cases b <;> simp [bAt]

/-- The command code stands in bits [47:40] of the response. -/
theorem chainResponse_code (denied : Bool) {cmd low : Nat} (s : State) (hc : cmd < 256) (hl : low < 65536) :
    (chainResponse denied cmd low s).toNat / 2 ^ 40 = cmd := by
  have hf := s.lgt.lframe.isLt
  have h7 := bAt_le denied 7
  have h6 := bAt_le (s.lgt.flt.testBit 1) 6
  have h5 := bAt_le (s.lgt.flt.testBit 6) 5
  have h4 := bAt_le s.lgb.swap.isSome 4
  have h3 := bAt_le s.lgt.blanked 3
  have h2 := bAt_le (s.lgt.flt.testBit 2) 2
  have h1 := bAt_le (s.lgt.flt.testBit 4) 1
  have h0 := bAt_le (s.lgt.flt.testBit 3) 0
  simp only [chainResponse, BitVec.toNat_ofNat]
  omega

/-! ### A command with and without the right to it (R134) -/

section Commands

variable {t : State} {cmd : Nat} {act : Nat → State → State} {low : Nat → State → Nat} {v : Nat}

/-- What of a rising LTLE edge does not depend on the right to the command. -/
theorem chainPin_loaded (hp : s.gpio.viom = true) (hd : domOn s 6 = true) (hc : s.lgb.chain.toNat / 2 ^ 40 = cmd) :
    chainPin (chainRun cmd act low) s = (let ok : Bool := cmd = 0 || s.rst.bootPhase || s.prt.gflags.testBit 0
      let v := s.lgb.chain.toNat % 2 ^ 40
      let u := if ok then act v s else s
      chainAnswered (chainResponse (!ok) cmd (if ok then low v u else 0) u) u) := by
  have hg : ¬ (!domOn s 6 || decide (s.lgb.chain.toNat / 2 ^ 40 ≠ cmd)) = true := by simp only [hd, hc]; simp
  rw [chainPin, if_pos hp, chainRun, if_neg hg]
  rfl

/-- A chain command with the right to it: its effect, then the response. -/
theorem chainPin_run (hp : s.gpio.viom = true) (hd : domOn s 6 = true) (hok : cmd = 0 ∨ s.rst.bootPhase = true ∨ s.prt.gflags.testBit 0 = true)
    (hx : s.lgb.chain.toNat / 2 ^ 40 = cmd ∧ s.lgb.chain.toNat % 2 ^ 40 = v) :
    chainPin (chainRun cmd act low) s = chainAnswered (chainResponse false cmd (low v (act v s)) (act v s)) (act v s) := by
  have hok : (decide (cmd = 0) || s.rst.bootPhase || s.prt.gflags.testBit 0) = true := by simpa [or_assoc] using hok
  simp only [chainPin_loaded hp hd hx.1, hx.2, hok]
  rfl

/-- A chain command whose response has no data. -/
theorem chainPin_act (hp : s.gpio.viom = true) (hd : domOn s 6 = true) (hm : s.rst.bootPhase = true ∨ s.prt.gflags.testBit 0 = true)
    (hx : s.lgb.chain.toNat / 2 ^ 40 = cmd ∧ s.lgb.chain.toNat % 2 ^ 40 = v) (hact : act v s = t) :
    chainPin (chainRun cmd act (fun _ _ => 0)) s = chainAnswered (chainResponse false cmd 0 t) t := by
  rw [chainPin_run hp hd (.inr hm) hx, hact]

/-- Without the right only the response is loaded. -/
theorem chainPin_denied (hp : s.gpio.viom = true) (hd : domOn s 6 = true) (h0 : cmd ≠ 0)
    (hno : ¬ (s.rst.bootPhase = true ∨ s.prt.gflags.testBit 0 = true)) (hc : s.lgb.chain.toNat / 2 ^ 40 = cmd) :
    chainPin (chainRun cmd act low) s = chainAnswered (chainResponse true cmd 0 s) s := by
  have hno : (decide (cmd = 0) || s.rst.bootPhase || s.prt.gflags.testBit 0) = false := by simpa [h0] using hno
  simp only [chainPin_loaded hp hd hc, hno]
  rfl

end Commands

/-! ### BLANK and UNBLANK (R123) -/

theorem lgtBlank_stopped (b : Bool) (hr : s.lgt.run = false) (hg : s.lgt.running = false) :
    (lgtBlank b s).lgt.blanked = b := by simp [lgtBlank, hr, hg]

theorem lgtBlank_running (b : Bool) (hg : s.lgt.running = true) : (lgtBlank b s).lgt
    = if b then { s.lgt with blankReq := true } else { s.lgt with unblankReq := true } := by cases b <;> simp [lgtBlank, hg]

/-! ### WRITE and FILL (R120, R133) -/

theorem lgtBackWrite_none (e v : Nat) (h : s.lgb.swap = none) : lgtBackWrite e v s = { s with lgb := { s.lgb with
    back := spSet 0 s.lgb.back e (v % 65536)
    written := if s.lgb.copying && decide (s.lgb.copied ≤ e) then e :: s.lgb.written else s.lgb.written } } := by simp [lgtBackWrite, h]

/-- What the writes of FILL see of the state at entry j of the back half. -/
def backSeen (j : Nat) (s : State) : Nat × Option SwapReq := (spGet 0 s.lgb.back j, s.lgb.swap)

/-- A back-half write at k is seen at k alone, and only where no swap is pending. -/
theorem lgtBackWrite_seen (k v j : Nat) (s : State) : backSeen j (lgtBackWrite k v s)
    = (if k = j ∧ s.lgb.swap = none then v % 65536 else spGet 0 s.lgb.back j, s.lgb.swap) := by
  unfold lgtBackWrite backSeen
  split
  · next h => simp [lfltSet_lgb, Option.isSome_iff_ne_none.mp h]
  · next h => simp [spGet_spSet (fun _ => 0), Option.not_isSome_iff_eq_none.mp h]

/-- FILL at entry k: a write where k lies in its colour group. -/
def fillStep (v : Nat) (s : State) (k : Nat) : State :=
  if fld v 17 16 = 3 || (k % 72) / 24 = fld v 17 16 then lgtBackWrite k (v % 65536) s else s

theorem chainFill_eq (v : Nat) (s : State) : chainFill v s = (upTo (72 * lgtLive s 0x10)).foldl (fillStep v) s := rfl

theorem fillStep_seen (v k j : Nat) (s : State) : backSeen j (fillStep v s k)
    = (if k = j ∧ (fld v 17 16 = 3 ∨ k % 72 / 24 = fld v 17 16) ∧ s.lgb.swap = none then v % 65536 else spGet 0 s.lgb.back j, s.lgb.swap) := by
  by_cases hg : fld v 17 16 = 3 ∨ k % 72 / 24 = fld v 17 16
  · rw [fillStep, if_pos (by simpa using hg), lgtBackWrite_seen]
    simp [hg]
  · rw [fillStep, if_neg (by simpa using hg)]
    simp [hg, backSeen]

/-- FILL keeps the flags, for with no swap pending each of its writes is performed. -/
theorem chainFill_lgt (v : Nat) (hs : s.lgb.swap = none) : (chainFill v s).lgt = s.lgt := by
  have hstep (u : State) (hu : u.lgt = s.lgt ∧ u.lgb.swap = none) (e : Nat) : (fillStep v u e).lgt = s.lgt ∧ (fillStep v u e).lgb.swap = none := by
    unfold fillStep
    split
    · rw [lgtBackWrite_none _ _ hu.2]
      exact hu
    · exact hu
  exact (List.foldlRecOn (motive := fun u : State => u.lgt = s.lgt ∧ u.lgb.swap = none) _ _ ⟨rfl, hs⟩ fun u hu e _ => hstep u hu e).1

/-- FILL writes each entry of its colour group on the scanned lines, and no other. -/
theorem chainFill_back (v j : Nat) (hs : s.lgb.swap = none) : spGet 0 (chainFill v s).lgb.back j
    = if j < 72 * lgtLive s 0x10 ∧ (fld v 17 16 = 3 ∨ j % 72 / 24 = fld v 17 16) then v % 65536 else spGet 0 s.lgb.back j := by
  have hne (u : State) (k : Nat) (hk : k ≠ j) : backSeen j (fillStep v u k) = backSeen j u := by
    rw [fillStep_seen, if_neg (fun h => hk h.1), backSeen]
  have hj (u w : State) (h : backSeen j u = backSeen j w) : backSeen j (fillStep v u j) = backSeen j (fillStep v w j) := by
    obtain ⟨hback, hswap⟩ := Prod.mk.inj h
    rw [fillStep_seen, fillStep_seen, hback, hswap]
  have h := congrArg Prod.fst (foldl_at hne hj (upTo_nodup (72 * lgtLive s 0x10)) s)
  refine h.trans ?_
  rw [fillStep_seen]
  by_cases hl : j < 72 * lgtLive s 0x10
  · simp [mem_upTo, hl, hs]
  · simp [mem_upTo, hl, backSeen]

/-! ### START (R133) -/

/-- A COMMIT of LGT leaves LGT but for its staged fields, and of those the staging and live sets. -/
theorem commit_lgt (s : State) : ∃ (pnd : Option Regs) (dirty mism : Bool) (chk : Nat), (commit .lgt s).lgt
    = { s.lgt with cfg := { s.lgt.cfg with pnd := pnd, dirty := dirty, mism := mism, chk := chk } } := by
  unfold commit
  dsimp only
  split
  · exact ⟨_, _, _, _, rfl⟩
  · rw [(logRec_recorded _ _ _ _).lgt]
    exact ⟨_, _, _, _, rfl⟩

/-- START's set in the staging registers. -/
def startStaged (v : Nat) (s : State) : State := { s with lgt := { s.lgt with cfg := { s.lgt.cfg with stg := chainStartSet v, dirty := true } } }

/-- RUN set by START: frames start but for a follower, and they start unblanked. -/
def startFrames (s : State) : State :=
  { s with lgt := { s.lgt with run := true, running := s.lgt.running || !s.lgt.running && lgtRole s ≠ 2
                               atB := if !s.lgt.running && lgtRole s ≠ 2 then true else s.lgt.atB, unblankReq := true } }

theorem chainStart_eq (v : Nat) (s : State) : chainStart v s = startFrames (commit .lgt (startStaged v s)) := rfl

theorem chainStart_running (v : Nat) (hg : s.lgt.running = false) : (chainStart v s).lgt.running = decide (lgtRole s ≠ 2) := by
  obtain ⟨_, _, _, _, hc⟩ := commit_lgt (startStaged v s)
  have hr : lgtRole (commit .lgt (startStaged v s)) = lgtRole s := by
    rw [lgtRole, lgtLive, hc]
    rfl
  have hn : (commit .lgt (startStaged v s)).lgt.running = false := (congrArg Lgt.running hc).trans hg
  rw [chainStart_eq, startFrames, hr, hn]
  simp

theorem chainStart_stg (v : Nat) (s : State) : (chainStart v s).lgt.cfg.stg = chainStartSet v := by
  obtain ⟨_, _, _, _, hc⟩ := commit_lgt (startStaged v s)
  exact congrArg (fun q : Lgt => q.cfg.stg) hc

/-- Writes of one value at keys from c on. -/
theorem spGet_foldl_const {l : List Nat} (hl : l.Nodup) (m : Regs) (c x k : Nat) :
    spGet 0 (l.foldl (fun m i => spSet 0 m (c + i) x) m) (c + k) = if k ∈ l then x else spGet 0 m (c + k) := by
  have hset (m : Regs) (i : Nat) : spGet 0 (spSet 0 m (c + i) x) (c + k) = if i = k then x else spGet 0 m (c + k) := by
    rw [spGet_spSet (fun _ => 0)]
    simp
  rw [foldl_at (obs := fun m : Regs => spGet 0 m (c + k)) (j := k) (fun m i hi => (hset m i).trans (if_neg hi))
    (fun m n _ => by rw [hset, hset, if_pos rfl, if_pos rfl]) hl, hset, if_pos rfl]

/-- START stages a current of at most 0x50 for every sink. -/
theorem spGet_chainStartSet (v : Nat) {k : Nat} (hk : k < 72) : spGet 0 (chainStartSet v) (0x10000 + k) = min (v % 256) 0x50 := by
  rw [chainStartSet, spGet_foldl_const (upTo_nodup 72), if_pos (mem_upTo.mpr hk)]

end Sys2Proof.Machine
end

section
/-! CERTIFICATE. Faults, temperature, LSYNC and the indirect tables of LGT, and the lighting chain (03 R107, R112, R113, R116, R119, R125
to R127, R132 to R134, R142). -/

namespace Sys2Proof.Machine

/-- Settles O46: each fault is a flag and a record over its own change, a pulse is what `pulseHeard` takes of it before any frame, and a
chain command is its effect with the response word over it. -/
theorem lightingChainAndFaults : Obligations.LightingChainAndFaults := by
  unfold Obligations.LightingChainAndFaults
  refine ⟨fun e e' c n i v low off mask s hd => ⟨?led, ?headroom, ?rail, ?railClear, ?stage, ?stageClear, ?lixWrite, ?lixRead, ?ltin, ?tstale,
      ?pulseStopped, ?pulseFirst, ?pulseFound, ?lost, ?syncflt⟩,
    fun d x s hd hp => ⟨?shift, ?nop, ?write, ?fill, ?commit, ?blank, ?unblank, ?start, ?read, ?reserved, ?denied⟩⟩
  case led =>
    intro x m hi hv hx hm hf
    obtain ⟨hlgt, hlgb, hlog⟩ := lgtFaulted_eq s.lgt (ledLatched i.toNat x s.lgb) 0x04 (x + 2) [i.toNat] s
    refine ⟨_, congrArg Host.Outcome.next (lgtLedFault_eq hd hi hv hx hm hf), ?_, congrArg Lgt.flt hlgt, hlog⟩
    rw [hlgb, ledLatched, spGet_spSet (fun _ => 0), if_pos rfl]
  case headroom =>
    intro h
    obtain ⟨hlgt, -, hlog⟩ := lgtFaulted_eq (lowsCleared c s.lgt) s.lgb 0x20 1 [c.val] s
    exact ⟨_, congrArg Host.Outcome.next (lgtHeadroom_eq hd h), congrArg Lgt.flt hlgt,
      (congrArg (fun q : Lgt => q.rails[c]) hlgt).trans (modAt_self _ c _), hlog⟩
  case rail =>
    intro h
    obtain ⟨hlgt, -, hlog⟩ := lgtFaulted_eq (railDown c s.lgt) s.lgb 0x10 2 [c.val] s
    exact ⟨_, congrArg Host.Outcome.next (lgtRailFault_eq hd (railPast_iff.mpr h)), congrArg Lgt.flt hlgt,
      (congrArg (fun q : Lgt => q.rails[c]) hlgt).trans (modAt_self _ c _), congrArg Lgt.pulses hlgt, hlog⟩
  case railClear =>
    intro h
    refine ⟨_, congrArg Host.Outcome.next (engWrite_lflt h 0x10), rfl, fun k hk => ?_⟩
    have h4 : ∀ k < 7, (!(16 : Nat).testBit k) = (k != 4) := by decide
    rw [← h4 k hk]
    exact testBit_w1c 7 _ _ k hk
  case stage =>
    intro h
    obtain ⟨ho, -, hologs⟩ := lgtFaulted_eq (stageLatched true n s.lgt) s.lgb 0x08 5 [n.val] s
    obtain ⟨hs, -, hslogs⟩ := lgtFaulted_eq (stageLatched false n s.lgt) s.lgb 0x08 6 [n.val] s
    exact ⟨⟨_, congrArg Host.Outcome.next (lgtStageFault_eq true hd h), congrArg Lgt.esopen ho, (congrArg Lgt.esshort ho :),
        (congrArg (fun q : Lgt => q.esPulse[n]) ho).trans (stageLatched_esPulse true n s.lgt), congrArg Lgt.flt ho, hologs⟩,
      ⟨_, congrArg Host.Outcome.next (lgtStageFault_eq false hd h), congrArg Lgt.esshort hs, (congrArg Lgt.esopen hs :),
        (congrArg (fun q : Lgt => q.esPulse[n]) hs).trans (stageLatched_esPulse false n s.lgt), congrArg Lgt.flt hs, hslogs⟩⟩
  case stageClear =>
    intro h
    refine ⟨_, congrArg Host.Outcome.next (engWrite_esopen h mask), rfl, fun k hk => ?_⟩
    rw [← BitVec.testBit_toNat]
    exact testBit_w1c 8 _ _ k hk
  case lixWrite =>
    intro h h'
    obtain ⟨y, hy⟩ := engWrite_lixdat h h' v
    obtain ⟨z, hz⟩ := engWrite_lixdat h h' 0
    refine ⟨fun ht hi => ⟨z, ?_⟩, fun ht hi => ⟨y, ?_⟩, fun ht hi hs hc => ⟨y, ?_⟩⟩
    · exact congrArg Host.Outcome.next ((if_pos ht).trans (hz.trans (lixWrite_fault (s := withIo z s) ht hi)))
    · exact congrArg Host.Outcome.next (hy.trans (lixWrite_beyond (s := withIo y s) _ ht hi))
    · exact congrArg Host.Outcome.next (hy.trans (lixWrite_back (s := withIo y s) v ht hi hs hc))
  case lixRead => exact fun h h' hn hn' => lixdat_readBoth h h' hn hn'
  case ltin =>
    intro h h' ht
    obtain ⟨y, hy⟩ := engWrite_ltin h h' ht v
    exact ⟨y, congrArg Host.Outcome.next hy⟩
  case tstale => exact fun _ hm ht hs => congrArg Host.Outcome.next (if_pos (by simp [hd, hm, ht, hs]))
  case pulseStopped =>
    intro hv hr hrun hs
    refine congrArg Host.Outcome.next ((if_pos hv).trans ((lsyncPulse_stopped hd hr hrun).trans ((pulseHeard_none _ _ hs).trans ?_)))
    simp [hrun]
  case pulseFirst =>
    intro hv hr hrun hg hs
    have he := pulseHeard_eq true (16 ≤ low.toNat) { s with lgt := { s.lgt with running := true } }
    have hi := pulseHeard_isSome (s := { s with lgt := { s.lgt with running := true } }) true (16 ≤ low.toNat) hs
    refine ⟨_, congrArg Host.Outcome.next ((if_pos hv).trans (lsyncPulse_first hd hr hrun hg)), ?_, ?_, ?_, ?_⟩
    · rw [lgtFrame_synclost, he]
      exact Bool.and_false _
    · rw [lgtFrame_running, he]
    · rw [lgtFrame_lframe, he]
    · rw [lgtFrame_swap, hi, decide_eq_true_iff]
  case pulseFound =>
    intro hv hr hrun hg hl ho
    have he := pulseHeard_eq true (16 ≤ low.toNat) s
    have hx := lsyncPulse_found (low := low.toNat) hd hr hrun hg hl ho
    by_cases hb : s.lgt.atB = true
    · rw [if_pos hb, he] at hx
      exact ⟨_, congrArg Host.Outcome.next ((if_pos hv).trans hx), Bool.and_false _, hg, (if_pos hb).symm⟩
    · rw [if_neg hb, he] at hx
      exact ⟨_, congrArg Host.Outcome.next ((if_pos hv).trans hx), Bool.and_false _, hg, (if_neg hb).symm⟩
  case lost =>
    intro hr hg hl
    have hrec := logRec_recorded 5 7 [s.lgt.lframe.toNat] (lisSet 0x10 { s with lgb := { s.lgb with synclost := true } })
    exact ⟨_, congrArg Host.Outcome.next (lsyncLost_eq hd hr hg hl), hrec.lgb, congrArg Lgt.lis hrec.lgt, logRec_lgtLogs 7 _ rfl rfl⟩
  case syncflt =>
    intro hv
    exact ⟨_, congrArg Host.Outcome.next ((if_pos hv).trans (if_pos hd)), lfltSet_lgt 1 s, lfltSet_lgb 1 s⟩
  case shift => exact congrArg Host.Outcome.next ((if_pos hp).trans (chainShift_eq d hd))
  case nop => exact fun hx => congrArg Host.Outcome.next (chainPin_run hp hd (.inl rfl) hx)
  case write =>
    intro hm hx hi hs
    have ha := lgtBackWrite_none (fld x.toNat 26 16) (x.toNat % 65536) hs
    rw [Nat.mod_mod] at ha
    exact ⟨_, congrArg Host.Outcome.next (chainPin_act hp hd hm hx ((if_pos hi).trans ha)), rfl, chainAnswered_chain _ _, rfl⟩
  case fill =>
    intro hm hx hs
    refine ⟨_, congrArg Host.Outcome.next (chainPin_act hp hd hm hx rfl), ?_, chainAnswered_chain _ _, fun k => ?_⟩
    · rw [chainAnswered_lgt, chainFill_lgt _ hs]
    · rw [chainAnswered_back, chainFill_back _ k hs]
  case commit =>
    intro hm hx hs
    exact ⟨_, congrArg Host.Outcome.next (chainPin_act hp hd hm hx (lgtCommitReq_none true hs)), rfl, chainAnswered_chain _ _, rfl, rfl⟩
  case blank =>
    intro hm hx
    refine ⟨_, congrArg Host.Outcome.next (chainPin_act (t := lgtBlank true s) hp hd hm hx rfl), chainAnswered_chain _ _, fun hr hg => ?_, fun hg => ?_⟩
    · rw [chainAnswered_lgt, lgtBlank_stopped true hr hg]
    · exact (chainAnswered_lgt _ _).trans (lgtBlank_running true hg)
  case unblank =>
    intro hm hx
    refine ⟨_, congrArg Host.Outcome.next (chainPin_act (t := lgtBlank false s) hp hd hm hx rfl), chainAnswered_chain _ _, fun hr hg => ?_, fun hg => ?_⟩
    · rw [chainAnswered_lgt, lgtBlank_stopped false hr hg]
    · exact (chainAnswered_lgt _ _).trans (lgtBlank_running false hg)
  case start =>
    intro hm hx hg
    have ht := chainPin_act (act := chainStart) hp hd hm hx rfl
    have hrun := chainStart_running x.toNat hg
    have hstg := chainStart_stg x.toNat s
    have hon : (chainStart x.toNat s).lgt.run = true ∧ (chainStart x.toNat s).lgt.unblankReq = true := ⟨rfl, rfl⟩
    generalize chainStart x.toNat s = t at ht hrun hstg hon
    refine ⟨_, congrArg Host.Outcome.next ht, hon.1, hon.2, hrun, fun k hk => ?_, chainResponse_code false t (by decide) (by decide)⟩
    rw [← spGet_chainStartSet _ hk, ← hstg]
    rfl
  case read => exact fun hm hx => congrArg Host.Outcome.next (chainPin_run hp hd (.inr hm) hx)
  case reserved =>
    intro code hm hx hn
    have hno : ¬ chainCodes.contains (s.lgb.chain.toNat / 2 ^ 40) = true := by
      rw [hx.1]
      simpa using hn
    have ht := chainPin_act (act := fun _ => lfltSet 0x02) hp hd hm ⟨rfl, hx.2⟩ rfl
    refine ⟨_, congrArg Host.Outcome.next ((if_neg hno).trans ht), ?_, ?_, ?_⟩
    · rw [chainAnswered_lgt, lfltSet_lgt]
    · rw [hx.1]
      exact chainAnswered_chain code _
    · rw [chainAnswered_back, lfltSet_lgb]
  case denied => exact fun hno hx => congrArg Host.Outcome.next (chainPin_denied hp hd (by decide) hno hx.1)

end Sys2Proof.Machine
end

section
/-! SUPPORT. What records, flags and state changes leave of the charger (04 R153, R154, R193; 14 R450, R461): each operation's own frame,
and the charger's registers after it. -/

namespace Sys2Proof.Machine

variable {s u : State} {st : Nat}

/-! ### Records -/

/-- From s to t only the Field Book, the Survey and the ports change. -/
def OnlyBook (s t : State) : Prop := t = { s with hp := t.hp, fbk := t.fbk, svy := t.svy }

theorem OnlyBook.refl (s : State) : OnlyBook s s := rfl

theorem OnlyBook.trans {r s t : State} (h : OnlyBook r s) (k : OnlyBook s t) : OnlyBook r t :=
  Eq.trans k (congrArg (fun x : State => { x with hp := t.hp, fbk := t.fbk, svy := t.svy }) (h : s = _))

/-- A record update of the Field Book and the Survey. -/
theorem OnlyBook.upd {r s : State} (h : OnlyBook r s) (fbk : Fbk) (svy : Svy) : OnlyBook r { s with fbk := fbk, svy := svy } :=
  h.trans (by rfl)

theorem setHint_onlyBook (n : Nat) (s : State) : OnlyBook s (setHint n s) := by
  rw [setHint_eq]
  rfl

theorem enterRec_onlyBook (src typ : Nat) (p : List Nat) (s : State) : OnlyBook s (enterRec src typ p s) :=
  ((OnlyBook.refl s).upd _ s.svy).trans (setHint_onlyBook 12 _)

theorem fbOverflow_onlyBook (s : State) : OnlyBook s (fbOverflow s) := by
  unfold fbOverflow
  split
  · exact ((OnlyBook.refl s).upd _ s.svy).trans (enterRec_onlyBook _ _ _ _)
  · exact .refl s

theorem pushRec_onlyBook (src typ : Nat) (p : List Nat) (s : State) : OnlyBook s (pushRec src typ p s) := by
  have h := fbOverflow_onlyBook s
  unfold pushRec
  dsimp only
  split
  · exact h.trans (enterRec_onlyBook _ _ _ _)
  · exact h.upd _ _

theorem takeSnap_onlyBook (src trig : Nat) (s : State) : OnlyBook s (takeSnap src trig s) := by
  unfold takeSnap
  dsimp only
  split
  · exact (OnlyBook.refl s).upd s.fbk _
  · exact (((OnlyBook.refl s).upd s.fbk _).trans (pushRec_onlyBook _ _ _ _)).trans (setHint_onlyBook 13 _)

theorem logRec_onlyBook (src typ : Nat) (p : List Nat) (s : State) : OnlyBook s (logRec src typ p s) := by
  have h := pushRec_onlyBook src typ p s
  unfold logRec
  dsimp only
  split
  · split
    · split
      · exact h.trans (by rfl)
      · exact h.trans (takeSnap_onlyBook _ _ _)
    · exact h
  · exact h

variable (src typ m : Nat) (p : List Nat) (s : State)

theorem logRec_eq : logRec src typ p s = { s with
    hp := (logRec src typ p s).hp, fbk := (logRec src typ p s).fbk, svy := (logRec src typ p s).svy } := logRec_onlyBook src typ p s

@[simp] theorem logRec_chg : (logRec src typ p s).chg = s.chg := by rw [logRec_eq]
@[simp] theorem logRec_chp : (logRec src typ p s).chp = s.chp := by rw [logRec_eq]
@[simp] theorem logRec_cht : (logRec src typ p s).cht = s.cht := by rw [logRec_eq]
@[simp] theorem logRec_chs : (logRec src typ p s).chs = s.chs := by rw [logRec_eq]
@[simp] theorem logRec_eng : (logRec src typ p s).eng = s.eng := by rw [logRec_eq]
@[simp] theorem logRec_dct : (logRec src typ p s).dct = s.dct := by rw [logRec_eq]

/-- From s to t a record of CHG enters the Field Book, where nothing is discarded and no class is selected for a snapshot. -/
def ChgLogs (s t : State) (typ : Nat) (pay : List Nat) : Prop := s.fbk.ring.length < 256 → s.fbk.drops = 0 → s.svy.svfsel = 0 →
  ∃ r : FbRec, t.fbk.ring = s.fbk.ring ++ [{ r := r, written := false }] ∧ r.src = 6 ∧ r.typ = typ ∧ r.p = pay

variable {s} in
theorem logRec_chgLogs (hf : u.fbk = s.fbk) (hv : u.svy = s.svy) : ChgLogs s (logRec 6 typ p u) typ p := by
  rw [ChgLogs, ← hf, ← hv]
  exact logRec_ring 6 typ p

/-! ### Flags of CFLT and CIS (R193) -/

theorem cfltSet_eq : cfltSet m s = { s with
    chg := { s.chg with flt := s.chg.flt ||| m, cis := s.chg.cis ||| 0x02 }, hp := (cfltSet m s).hp, dct := (cfltSet m s).dct } := by
  rw [cfltSet, raiseWake_eq, setHint_eq]

theorem cfltSet_domOn (d : Nat) : domOn (cfltSet m s) d = domOn s d := by
  rw [cfltSet, raiseWake_eq, setHint_eq]
  rfl

@[simp] theorem cfltSet_chg : (cfltSet m s).chg = { s.chg with flt := s.chg.flt ||| m, cis := s.chg.cis ||| 0x02 } := by rw [cfltSet_eq]
@[simp] theorem cfltSet_chp : (cfltSet m s).chp = s.chp := by rw [cfltSet_eq]
@[simp] theorem cfltSet_cht : (cfltSet m s).cht = s.cht := by rw [cfltSet_eq]
@[simp] theorem cfltSet_chs : (cfltSet m s).chs = s.chs := by rw [cfltSet_eq]
@[simp] theorem cfltSet_fbk : (cfltSet m s).fbk = s.fbk := by rw [cfltSet_eq]
@[simp] theorem cfltSet_svy : (cfltSet m s).svy = s.svy := by rw [cfltSet_eq]

theorem cisSet_eq : cisSet m s = { s with chg := { s.chg with cis := s.chg.cis ||| m }, dct := (cisSet m s).dct } := by
  unfold cisSet
  dsimp only
  split
  · rw [raiseWake_eq]
  · rfl

@[simp] theorem cisSet_chg : (cisSet m s).chg = { s.chg with cis := s.chg.cis ||| m } := by rw [cisSet_eq]
@[simp] theorem cisSet_chp : (cisSet m s).chp = s.chp := by rw [cisSet_eq]
@[simp] theorem cisSet_cht : (cisSet m s).cht = s.cht := by rw [cisSet_eq]
@[simp] theorem cisSet_chs : (cisSet m s).chs = s.chs := by rw [cisSet_eq]
@[simp] theorem cisSet_fbk : (cisSet m s).fbk = s.fbk := by rw [cisSet_eq]
@[simp] theorem cisSet_svy : (cisSet m s).svy = s.svy := by rw [cisSet_eq]

/-! ### Changes of STATE (R153, R154) -/

/-- The states in which the safety timer and the precharge counter are at 0 (R153). -/
def timerStops (n : Nat) : Prop := n = 0 ∨ n = 1 ∨ n = 3 ∨ n = 8 ∨ n = 0xD

/-- A state of a charge that is running (R154). -/
def inCharge (n : Nat) : Prop := 4 ≤ n ∧ n ≤ 7

variable (st)

/-- A change of state concerns the charger's own registers, CTIME and the hints. -/
theorem chgEnter_eq : chgEnter st s = { s with
    chg := { s.chg with
      st := st, cis := (chgEnter st s).chg.cis, timer := (chgEnter st s).chg.timer, pre := (chgEnter st s).chg.pre
      cend := (chgEnter st s).chg.cend, inProg := (chgEnter st s).chg.inProg }
    cht := { s.cht with
      ctime := (chgEnter st s).cht.ctime, ctimeRun := (chgEnter st s).cht.ctimeRun, above := (chgEnter st s).cht.above }
    hp := (chgEnter st s).hp } := by
  unfold chgEnter
  dsimp only
  split
  · next h => rw [← h]
  · rw [setHint_eq]
    split
    · rfl
    · split <;> rfl

@[simp] theorem chgEnter_st : (chgEnter st s).chg.st = st := by rw [chgEnter_eq]
@[simp] theorem chgEnter_chp : (chgEnter st s).chp = s.chp := by rw [chgEnter_eq]
@[simp] theorem chgEnter_fbk : (chgEnter st s).fbk = s.fbk := by rw [chgEnter_eq]
@[simp] theorem chgEnter_svy : (chgEnter st s).svy = s.svy := by rw [chgEnter_eq]

variable {st s}

theorem chgEnter_self (h : s.chg.st = st) : chgEnter st s = s := if_pos h

/-- A change sets CIS.STATE, and in the states of `timerStops` the timers go back to 0. -/
theorem chgEnter_moved (h : s.chg.st ≠ st) : (chgEnter st s).chg.cis = s.chg.cis ||| 1
    ∧ (timerStops st → (chgEnter st s).chg.timer = 0 ∧ (chgEnter st s).chg.pre = 0) := by
  have hz : timerStops st → (st = 0 || st = 1 || st = 3 || st = 8 || st = 0xD) = true := by simp [timerStops, or_assoc]
  unfold chgEnter
  dsimp only
  rw [if_neg h, setHint_eq]
  split
  on_goal 2 => split
  all_goals exact ⟨rfl, fun k => ⟨if_pos (hz k), if_pos (hz k)⟩⟩

/-- A change out of a running charge: it ends where the table of R154 has a code for the new state, which CEND then shows. -/
theorem chgEnter_ends (h : s.chg.st ≠ st) (hp : s.chg.inProg = true) (hc : inCharge s.chg.st) :
    (chgEnter st s).chg.cend = (cendCode s st).getD s.chg.cend ∧ (chgEnter st s).chg.inProg = (cendCode s st).isNone := by
  have he : (s.chg.inProg && (s.chg.st = 4 || s.chg.st = 5 || s.chg.st = 6 || s.chg.st = 7)) = true := by
    obtain ⟨hlo, hhi⟩ := hc
    simp only [hp, Bool.true_and, Bool.or_eq_true, decide_eq_true_eq]
    omega
  unfold chgEnter
  dsimp only
  rw [if_neg h, setHint_eq, if_pos he]
  cases cendCode s st <;> simp [hp]

/-- With no charge in progress CEND stays, and a change into PRECHARGE or CHARGE starts one. -/
theorem chgEnter_starts (hp : s.chg.inProg = false) : (chgEnter st s).chg.cend = s.chg.cend
    ∧ (s.chg.st ≠ st → (chgEnter st s).chg.inProg = decide (st = 4 ∨ st = 5)) := by
  by_cases h : s.chg.st = st
  · simp [chgEnter_self h, h]
  · unfold chgEnter
    dsimp only
    rw [if_neg h, setHint_eq]
    by_cases hs : st = 4 ∨ st = 5
    · rcases hs with rfl | rfl <;> simp [hp]
    · simp [hp, hs]

end Sys2Proof.Machine
end

section
/-! SUPPORT. What ends or faults a charge and what clears it (04 R155, R159, R162 to R168, R181, R193). -/

namespace Sys2Proof.Machine

variable {e : Eng} {s : State} {v : Nat}

/-! ### Battery temperature (R155) -/

theorem chgNtcFault_eq (hd : domOn s 1 = true) (hb : 3 ≤ s.chp.ntcBad) (hz : s.chg.zone ≠ 7) :
    chgNtcFault s = logRec 6 0x11 [1] (cfltSet 0x20 { s with chg := { s.chg with zone := 7 } }) := if_pos (by simp [hd, hb, hz])

theorem chgNtcRecovery_eq (hd : domOn s 1 = true) (hg : 3 ≤ s.chp.ntcGood) (hz : s.chg.zone = 7) :
    chgNtcRecovery s = logRec 6 0x11 [0] { s with chg := { s.chg with zone := zoneRaw s s.chp.tbat } } := if_pos (by simp [hd, hg, hz])

/-! ### The end of a charge (R159, R162 to R164) -/

/-- The charge held as terminated, its count at the capacity (R159). -/
def terminated (s : State) : State := { s with
  chg := { s.chg with termHeld := true, exp1 := false, expKind := none, flt := w1c 10 s.chg.flt 0x04, cis := s.chg.cis ||| 0x10 }
  cht := { s.cht with rcq := 3600000 * (s.chp.fcc : Int), termCnt := 0 } }

theorem chgDone_eq (hd : domOn s 1 = true) (h5 : s.chg.st = 5) (ht : 16 ≤ s.cht.termCnt) :
    chgDone s = logRec 6 0x0C [s.cht.ctime, s.cht.cmin] (chgEnter 8 (terminated s)) := if_pos (by simp [hd, h5, ht])

theorem chgEnter_terminated (h5 : s.chg.st = 5) : (chgEnter 8 (terminated s)).chg.termHeld = true ∧ (chgEnter 8 (terminated s)).chg.exp1 = false
    ∧ (chgEnter 8 (terminated s)).chg.timer = 0 ∧ (chgEnter 8 (terminated s)).cht.rcq = 3600000 * (s.chp.fcc : Int) := by
  have h8 : (terminated s).chg.st ≠ 8 := ne_of_eq_of_ne h5 (by decide)
  obtain ⟨-, ht⟩ := chgEnter_moved h8
  obtain ⟨htimer, -⟩ := ht (by simp [timerStops])
  refine ⟨?_, ?_, htimer, ?_⟩ <;> rw [chgEnter_eq] <;> rfl

/-- An expiry counts as thermal in thermal regulation and in a zone that derates (R162). -/
def thermalExpiry (s : State) : Bool := s.cht.threg || zoneDerate s s.chg.zone

/-- The safety timer has reached its limit in a charge, and the precharge timeout has not (R162, R164). -/
def Expired (s : State) : Prop := (s.chg.st = 4 ∨ s.chg.st = 5) ∧ 240 * chgLive s 0x37 ≤ s.chg.timer ∧ preExpired s = false

theorem chgExpiry_first (hd : domOn s 1 = true) (h : Expired s) (he : s.chg.exp1 = false) :
    chgExpiry s = logRec 6 (if thermalExpiry s then 0x04 else 0x03) [s.chg.zone, s.chg.step, s.chg.st] (chgEnter (if thermalExpiry s then 0xA else 0x9)
      { s with chg := { s.chg with exp1 := true, expKind := some (thermalExpiry s) } }) := by
  obtain ⟨hs, ht, hp⟩ := h
  refine (if_pos (by simp [hd, hs, ht, hp])).trans (if_neg ?_)
  simp [he]

theorem chgExpiry_second (hd : domOn s 1 = true) (h : Expired s) (he : s.chg.exp1 = true) :
    chgExpiry s = logRec 6 0x05 [s.chg.zone, s.chg.step, s.chg.st] (chgEnter 0xB (cfltSet 0x04 s)) := by
  obtain ⟨hs, ht, hp⟩ := h
  exact (if_pos (by simp [hd, hs, ht, hp])).trans (if_pos he)

theorem chgEnter_flt (st : Nat) : (chgEnter st s).chg.flt = s.chg.flt := by rw [chgEnter_eq]
theorem chgEnter_exp1 (st : Nat) : (chgEnter st s).chg.exp1 = s.chg.exp1 := by rw [chgEnter_eq]

theorem chgPreTimeout_eq (hd : domOn s 1 = true) (h4 : s.chg.st = 4) (hp : 240 * chgLive s 0x39 ≤ s.chg.pre) :
    chgPreTimeout s = logRec 6 0x06 [s.chg.zone, s.chg.step, s.chg.st] (chgEnter 0xB (cfltSet 0x08 s)) :=
  if_pos (by simp [hd, preExpired, h4, hp])

/-! ### CFLT (R163, R167) -/

/-- A write of CFLT by an engine. -/
theorem engWrite_cflt (h : EngMay s e 0xC07 true) (h' : EngMay s e 0xC08 true) (hv : v < 65536) :
    ∃ y, engWrite e 0xC07 2 v s = chgCfltWrite v (withIo y s) := by
  obtain ⟨y, hy⟩ := engWrite_two (v := v) h h' (by decide) rfl rfl rfl (fun _ => rfl) rfl (fun _ => rfl)
  rw [Nat.mod_eq_of_lt hv] at hy
  exact ⟨y, hy⟩

/-- Every cell in use is below COV - COVHYS (R167). -/
def cellsLow (s : State) : Bool := (cellsOf s s.cht.last).all (fun c => decide (c < (chgLive s 0x25 : Int) - chgLive s 0x27))

/-- A write of TMRLATCH clears it and EXP1. -/
theorem chgCfltWrite_tmrlatch (s : State) :
    chgCfltWrite 4 s = { s with chg := { s.chg with flt := w1c 10 s.chg.flt 4, exp1 := false, expKind := none } } := by
  simp [chgCfltWrite, show setBit (setBit 4 1 false) 0 false = 4 by decide, show Nat.testBit 4 2 = true by decide]

/-- A write of OVP clears it where every cell is low, and sets CIS.FAULT where a latched one stays. -/
theorem chgCfltWrite_ovp (s : State) : ∃ cis, chgCfltWrite 1 s
    = { s with chg := { s.chg with flt := w1c 10 s.chg.flt (b2n (!(s.chg.flt.testBit 0 && !cellsLow s))), cis := cis } } := by
  have hset : ∀ b, setBit (setBit 1 1 false) 0 b = b2n b := by decide
  have h : chgCfltWrite 1 s = (let s1 := { s with chg := { s.chg with flt := w1c 10 s.chg.flt (b2n (!(s.chg.flt.testBit 0 && !cellsLow s))) } }
      if s.chg.flt.testBit 0 && !cellsLow s then cisSet 0x02 s1 else s1) := by
    simp [chgCfltWrite, cellsLow, hset, show Nat.testBit 1 2 = false by decide]
  rw [h]
  dsimp only
  split
  · exact ⟨_, rfl⟩
  · exact ⟨_, rfl⟩

/-! ### Cells (R166, R168) -/

/-- CHG's comparators see cell c at v, OVP latched (R166). -/
def cellOvSeen (c v : Nat) (s : State) : State := cfltSet 1 (cellsNow (s.cht.last.cells.set (finOf 5 (c - 1)) (v : Int)) s)

theorem chgCellOv_eq {c : Nat} (hd : domOn s 1 = true) (h1 : 1 ≤ c) (hn : c ≤ chgLive s 0x10) :
    chgCellOv c v s = rbHalt 4 (chgGatesOff (logRec 6 1 [c, v] (cellOvSeen c v s))) := if_pos (by simp [hd, h1, hn])

theorem rbHalt_none (cause : Nat) (h : s.chg.rb = 0) : rbHalt cause s = s := if_pos h

/-- The end of reverse boost (R181). -/
theorem rbHalt_eq (cause : Nat) (h : s.chg.rb ≠ 0) : (rbHalt cause s).chg = { s.chg with rb := 0, rbStop := 0, gates := 0, mode := 0, modeNext := 0 }
    ∧ (rbHalt cause s).chp = { s.chp with acg := false, attached := false } := by
  rw [rbHalt, if_neg h]
  exact ⟨logRec_chg .., logRec_chp ..⟩

/-- CUV latched, and reverse boost about to stop (R168, R181). -/
def cellUvSeen (s : State) : State :=
  if (cfltSet 0x100 s).chg.rb = 0 then cfltSet 0x100 s
  else { cfltSet 0x100 s with chg := { (cfltSet 0x100 s).chg with rbStop := 3 } }

theorem cellUvSeen_eq (s : State) : cellUvSeen s
    = { cfltSet 0x100 s with chg := { (cfltSet 0x100 s).chg with rbStop := if s.chg.rb = 0 then s.chg.rbStop else 3 } } := by
  have hr : (cfltSet 0x100 s).chg.rb = s.chg.rb := by rw [cfltSet_chg]
  have hstop : (cfltSet 0x100 s).chg.rbStop = s.chg.rbStop := by rw [cfltSet_chg]
  unfold cellUvSeen
  rw [hr, ← hstop]
  split <;> rfl

theorem chgCellUv_eq {c : Nat} (hd : domOn s 1 = true) (hi : inputValid s = false) :
    chgCellUv c v s = logRec 6 2 [c, v] (cellUvSeen s) := if_pos (by simp [hd, hi])

end Sys2Proof.Machine
end

section
/-! CERTIFICATE. What ends or faults a charge, and what clears it (04 R155, R159, R160, R162 to R168). -/

namespace Sys2Proof.Machine

/-- Settles O48: each event is a change of the charger's own registers, CFLT or STATE under its record; a clear is a write of CFLT, and a
cell over-voltage in reverse boost also halts it. -/
theorem chargerFaults : Obligations.ChargerFaults := by
  unfold Obligations.ChargerFaults
  refine fun e k v cells s hd => ⟨?ntcFault, ?ntcRecovery, ?done, ?recharge, ?expiry, ?preTimeout, ?tmrlatch, ?ovp, ?cellOv, ?cellOvBoost, ?cellUv⟩
  case ntcFault =>
    intro hb hz
    refine ⟨_, congrArg Host.Outcome.next (chgNtcFault_eq hd hb hz), ?_, ?_, logRec_chgLogs _ _ ?_ ?_⟩ <;> simp
  case ntcRecovery =>
    intro hg hz
    exact ⟨_, congrArg Host.Outcome.next (chgNtcRecovery_eq hd hg hz), logRec_chg .., logRec_chgLogs _ _ rfl rfl⟩
  case done =>
    intro h5 ht
    obtain ⟨hheld, hexp, htimer, hrcq⟩ := chgEnter_terminated h5
    refine ⟨_, congrArg Host.Outcome.next (chgDone_eq hd h5 ht), ?_, ?_, ?_, ?_, ?_, _, _,
      logRec_chgLogs _ _ (chgEnter_fbk _ _) (chgEnter_svy _ _)⟩ <;> simp [hheld, hexp, htimer, hrcq]
  case recharge => exact fun h8 => congrArg Host.Outcome.next (if_pos (by simp [hd, h8]))
  case expiry =>
    intro hs ht hp
    have hth : (s.cht.threg = true ∨ zoneDerate s s.chg.zone = true) ↔ thermalExpiry s = true := by simp [thermalExpiry]
    refine ⟨fun he => ?_, fun he => ?_⟩
    · simp only [hth]
      refine ⟨_, congrArg Host.Outcome.next (chgExpiry_first hd ⟨hs, ht, hp⟩ he), ?_, ?_, logRec_chgLogs _ _ ?_ ?_⟩ <;> simp [chgEnter_exp1]
    · refine ⟨_, congrArg Host.Outcome.next (chgExpiry_second hd ⟨hs, ht, hp⟩ he), ?_, ?_, logRec_chgLogs _ _ ?_ ?_⟩ <;> simp [chgEnter_flt]
  case preTimeout =>
    intro h4 hp
    have hx := chgPreTimeout_eq hd h4 hp
    rw [h4] at hx
    refine ⟨_, congrArg Host.Outcome.next hx, ?_, ?_, logRec_chgLogs _ _ ?_ ?_⟩ <;> simp [chgEnter_flt]
  case tmrlatch =>
    intro h h'
    obtain ⟨y, hy⟩ := engWrite_cflt (v := 4) h h' (by decide)
    refine ⟨_, congrArg Host.Outcome.next (hy.trans (chgCfltWrite_tmrlatch _)), rfl, rfl, fun n hn => ?_⟩
    have h2 : ∀ n < 10, (!(4 : Nat).testBit n) = (n != 2) := by decide
    rw [← h2 n hn]
    exact testBit_w1c 10 _ _ n hn
  case ovp =>
    intro h h'
    obtain ⟨y, hy⟩ := engWrite_cflt (s := cellsNow cells s) (v := 1) h h' (by decide)
    obtain ⟨cis, hc⟩ := chgCfltWrite_ovp (withIo y (cellsNow cells s))
    refine ⟨_, congrArg Host.Outcome.next ((if_pos h.1).trans (hy.trans hc)), rfl, rfl, fun n hn => ?_⟩
    refine (testBit_w1c 10 _ _ n hn).trans ?_
    change (s.chg.flt.testBit n && !(b2n (!(s.chg.flt.testBit 0 && !cellsLow (cellsNow cells s)))).testBit n)
      = (s.chg.flt.testBit n && !(n == 0 && cellsLow (cellsNow cells s)))
    have hb : ∀ (b : Bool), ∀ n < 10, (b2n b).testBit n = (b && n == 0) := by decide
    rw [hb _ n hn]
    by_cases h0 : n = 0
    · subst h0
      cases s.chg.flt.testBit 0 <;> simp
    · rw [beq_false_of_ne h0, Bool.and_false, Bool.false_and]
  case cellOv =>
    intro h1 hn hr
    have hx := chgCellOv_eq (v := v.toNat) hd h1 hn
    rw [rbHalt_none 4 (by simpa [chgGatesOff, cellOvSeen, cellsNow] using hr)] at hx
    refine ⟨_, congrArg Host.Outcome.next hx, ?_, rfl, rfl, logRec_chgLogs 1 _ (u := cellOvSeen k.val v.toNat s) ?_ ?_⟩ <;>
      simp [chgGatesOff, cellOvSeen, cellsNow]
  case cellOvBoost =>
    intro h1 hn hr
    obtain ⟨hchg, hchp⟩ := rbHalt_eq 4 (s := chgGatesOff (logRec 6 1 [k.val, v.toNat] (cellOvSeen k.val v.toNat s)))
      (by simpa [chgGatesOff, cellOvSeen, cellsNow] using hr)
    refine ⟨_, congrArg Host.Outcome.next (chgCellOv_eq hd h1 hn), ?_, congrArg Chg.gates hchg, congrArg Chg.mode hchg,
      congrArg Chg.rb hchg, congrArg ChgPort.acg hchp⟩
    rw [hchg]
    simp [chgGatesOff, cellOvSeen, cellsNow]
  case cellUv =>
    intro hi
    refine ⟨_, congrArg Host.Outcome.next (chgCellUv_eq hd hi), ?_, ?_, logRec_chgLogs _ _ ?_ ?_⟩ <;> simp [cellUvSeen_eq]

end Sys2Proof.Machine
end

section
/-! SUPPORT. The input port, the battery connection and reverse boost (04 R171 to R181), and the writes of CCTL that start and stop it
(R178, R181, R186, R193). -/

namespace Sys2Proof.Machine

variable {e : Eng} {s : State} {v pack : Nat}

/-! ### CCTL (R193) -/

theorem engWrite_cctl (h : EngMay s e 0xC04 true) (hv : v < 256) : engWrite e 0xC04 1 v s = chgCctl v s := by
  rw [engWrite_byte (b := 0xC00) (r := 4) h rfl rfl rfl, Nat.mod_eq_of_lt hv]
  rfl

/-- A write of EN alone. -/
theorem chgCctl_en (en : Bool) (s : State) : chgCctl (b2n en) s = { s with chg := { s.chg with en := en } } := by cases en <;> rfl

/-- A write that keeps EN starts what its other bits name. -/
theorem chgCctl_keeps_en {k : Nat} (hk : k = 2 ∨ k = 4 ∨ k = 8) (s : State) : chgCctl (b2n s.chg.en + k) s
    = (let s1 := if k.testBit 3 then { s with cht := { s.cht with lfm := true } } else s
      let s2 := if k.testBit 2 then chgRbStopAt 1 s1 else s1
      if k.testBit 1 then chgRbgo s2 else s2) := by
  have hb : ∀ b, (b2n b + k).testBit 0 = b ∧ ∀ j < 4, 1 ≤ j → (b2n b + k).testBit j = k.testBit j := by
    rcases hk with rfl | rfl | rfl <;> decide
  obtain ⟨h0, h⟩ := hb s.chg.en
  simp only [chgCctl, h0, h 1 (by decide) (by decide), h 2 (by decide) (by decide), h 3 (by decide) (by decide)]

theorem engWrite_cctl_keeps {k : Nat} (hk : k = 2 ∨ k = 4 ∨ k = 8) (h : EngMay s e 0xC04 true) :
    engWrite e 0xC04 1 (b2n s.chg.en + k) s = chgCctl (b2n s.chg.en + k) s := by
  have hb : b2n s.chg.en ≤ 1 := by cases s.chg.en <;> decide
  exact engWrite_cctl h (by omega)

theorem engWrite_rbgo (h : EngMay s e 0xC04 true) : engWrite e 0xC04 1 (b2n s.chg.en + 2) s = chgRbgo s :=
  (engWrite_cctl_keeps (.inl rfl) h).trans (chgCctl_keeps_en (.inl rfl) s)

theorem engWrite_rbstop (h : EngMay s e 0xC04 true) : engWrite e 0xC04 1 (b2n s.chg.en + 4) s = chgRbStopAt 1 s :=
  (engWrite_cctl_keeps (.inr (.inl rfl)) h).trans (chgCctl_keeps_en (.inr (.inl rfl)) s)

theorem engWrite_lfmgo (h : EngMay s e 0xC04 true) :
    engWrite e 0xC04 1 (b2n s.chg.en + 8) s = { s with cht := { s.cht with lfm := true } } :=
  (engWrite_cctl_keeps (.inr (.inr rfl)) h).trans (chgCctl_keeps_en (.inr (.inr rfl)) s)

/-! ### The input port (R171, R172) -/

theorem chgAttach_eq (hd : domOn s 1 = true) (ha : s.chp.acg = true) (ht : s.chp.attached = false) (hr : s.chg.rb = 0) :
    chgAttach v s = logRec 6 0x09 [v] (cisSet 0x40 { s with chp := { s.chp with attached := true } }) := if_pos (by simp [hd, ha, ht, hr])

theorem chgInputLost_eq (rev : Bool) (hd : domOn s 1 = true) (hr : s.chg.rb = 0) (hi : s.chp.acg = true ∨ s.chp.vinOk = true) :
    chgInputLost (if rev then 2 else 1) s = inputDrop rev (logRec 6 0x0A [if rev then 2 else 1] (cisSet 0x40 s)) := by
  cases rev <;> exact if_pos (by simp [hd, hr, hi])

theorem chgInputOv_eq (hd : domOn s 1 = true) (hr : s.chg.rb = 0) :
    chgInputOv v s = inputDrop false (logRec 6 0x0B [v] (cisSet 0x40 (cfltSet 0x10 s))) := if_pos (by simp [hd, hr])

/-! ### Battery removal and return (R174, R175, R177) -/

/-- The charger after the first decision of a removal, before its gates and BATG follow (R174, R175). -/
def packGone (p0 vsys : Nat) (second : Bool) (s : State) : State := { s with
  chg := { s.chg with timer := 0, pre := 0, exp1 := false, expKind := none, termHeld := false
                      flt := w1c 10 s.chg.flt 0x0D, cis := s.chg.cis ||| 0x04 }
  chp := { s.chp with isol := true, remP0 := p0, remVsys := vsys, remSecond := second, vsysTgt := vsys, insPack := none, insDue := none } }

theorem endOnTime_eq (ended : Bool) (s : State) : endOnTime ended s = { s with chg := { s.chg with
    gates := if s.chg.mode ≠ 0 ∧ ended = false ∧ s.chg.gates = startGates (s.chg.rb ≠ 0) s.chg.mode then endGates (s.chg.rb ≠ 0) s.chg.mode else s.chg.gates
    gatesWas := (endOnTime ended s).chg.gatesWas } } := by
  unfold endOnTime
  by_cases h : s.chg.mode ≠ 0 ∧ ended = false ∧ s.chg.gates = startGates (s.chg.rb ≠ 0) s.chg.mode
  · have hc : (decide (s.chg.mode ≠ 0) && !ended && decide (s.chg.gates = startGates (s.chg.rb ≠ 0) s.chg.mode)) = true := by
      simpa [and_assoc] using h
    rw [if_pos hc, if_pos h]
  · have hc : ¬ (decide (s.chg.mode ≠ 0) && !ended && decide (s.chg.gates = startGates (s.chg.rb ≠ 0) s.chg.mode)) = true := by
      simpa [and_assoc] using h
    rw [if_neg hc, if_neg h]

/-- A removal that BID or the rise detector decides (R174). -/
def RemovalDecided (rise bid : Bool) (s : State) : Prop :=
  (bid = true ∧ (chgLive s 0x3A).testBit 0 = true) ∨ (rise = true ∧ chgLive s 0x3D ≠ 0 ∧ (s.chg.st = 4 ∨ s.chg.st = 5))

theorem chgRemoved_eq {rise bid : Bool} (ended : Bool) (hd : domOn s 1 = true) (hi : s.chp.isol = false ∨ s.chp.insPack.isSome = true)
    (hr : RemovalDecided rise bid s) : ∃ p0 second, let t := endOnTime ended (logRec 6 0x07 [p0, v, 0] (packGone p0 v second s))
      chgRemoved rise bid v ended s = { t with chp := { t.chp with batg := false } } := by
  refine ⟨_, _, if_pos ?_⟩
  rcases hr with ⟨hb, hl⟩ | ⟨hb, hl, hs⟩
  · simp [hd, hi, hb, hl]
  · simp [hd, hi, hb, hl, hs]

theorem chgRemovedSecond_eq {ck : Nat} (hd : domOn s 1 = true) (hi : s.chp.isol = true) (h2 : s.chp.remSecond = true) (ha : secondActive s = true)
    (hc : ck ≤ if s.clk.ckPll = true then 240000 else 24000) : chgRemovedSecond ck s
      = logRec 6 0x07 [3 - s.chp.remP0, s.chp.remVsys, reg16 ck] { s with chp := { s.chp with remSecond := false } } :=
  if_pos (by simp [hd, hi, h2, ha, hc])

/-- CHG after the end of an isolation (R177): in SYSREG the record waits, else it is logged. -/
theorem chgJoin_sysreg (h : s.chg.st = 3) : chgJoin pack s = { s with
    chg := { s.chg with timer := 0, pre := 0 }
    chp := { s.chp with batg := true, isol := false, insPack := none, insDue := some pack, remSecond := false } } := if_pos h

theorem chgJoin_logs (h : s.chg.st ≠ 3) : chgJoin pack s = logRec 6 0x08 [pack] (cisSet 0x08 { s with
    chg := { s.chg with timer := 0, pre := 0 }
    chp := { s.chp with batg := true, isol := false, insPack := none, insDue := none, remSecond := false } }) := if_neg h

/-- The end of an isolation as a whole. -/
theorem chgJoin_leaves (pack : Nat) (s : State) : (chgJoin pack s).chp = { s.chp with
      batg := true, isol := false, insPack := none, insDue := if s.chg.st = 3 then some pack else none, remSecond := false }
    ∧ (chgJoin pack s).chg.timer = 0 ∧ (chgJoin pack s).chg.pre = 0 ∧ (s.chg.st = 3 → (chgJoin pack s).fbk = s.fbk)
    ∧ (s.chg.st ≠ 3 → ChgLogs s (chgJoin pack s) 0x08 [pack]) := by
  by_cases h : s.chg.st = 3
  · rw [chgJoin_sysreg h, if_pos h]
    exact ⟨rfl, rfl, rfl, fun _ => rfl, absurd h⟩
  · rw [chgJoin_logs h, if_neg h]
    refine ⟨?_, ?_, ?_, fun k => absurd k h, fun _ => logRec_chgLogs _ _ ?_ ?_⟩ <;> simp

/-! ### Reverse boost (R178 to R181) -/

theorem chgRbgo_start (hf : rbFails s = 0) (hr : s.chg.rb = 0) : chgRbgo s = { s with
    chg := { s.chg with rb := 1, rbStop := 0 }, chp := { s.chp with acg := false, attached := false, rbTgt := 0 } } := if_pos (by simp [hf, hr])

theorem chgRbgo_runs (hf : rbFails s = 0) (hr : s.chg.rb ≠ 0) : chgRbgo s = s := by simp [chgRbgo, hf, hr]

theorem chgRbgo_refused (hf : rbFails s ≠ 0) : chgRbgo s = logRec 6 0x10 [rbFails s] (cfltSet 0x200 s) := by simp [chgRbgo, hf]

theorem chgRbStart_eq (hd : domOn s 1 = true) (hr : s.chg.rb = 1) (ha : s.chp.acg = true) :
    chgRbStart s = logRec 6 0x0D [chgLive s 0x45] (chgEnter 0xD { s with chg := { s.chg with rb := 2 } }) := if_pos (by simp [hd, hr, ha])

theorem chgRbStopAt_eq (cause : Nat) (hd : domOn s 1 = true) (hr : s.chg.rb ≠ 0) (hs : s.chg.rbStop = 0) :
    chgRbStopAt cause s = { s with chg := { s.chg with rbStop := cause } } := by simp [chgRbStopAt, hd, hr, hs]

theorem chgOverload_eq (hd : domOn s 1 = true) (hr : s.chg.rb ≠ 0) (hs : s.chg.rbStop = 0) :
    chgOverload s = { cfltSet 0x40 s with chg := { (cfltSet 0x40 s).chg with rbStop := 7 } } := by
  exact (if_pos (by simp [hd, hr])).trans (chgRbStopAt_eq 7 (by rwa [cfltSet_domOn]) (by simpa using hr) (by simpa using hs))

end Sys2Proof.Machine
end

section
/-! CERTIFICATE. The input port, the battery connection and reverse boost (04 R171 to R181). -/

namespace Sys2Proof.Machine

/-- Settles O49: each decision is a change of the charger's registers with its record, a write of CCTL is the operation that its bit names,
and `chgJoin_leaves` says what ends an isolation. -/
theorem powerPath : Obligations.PowerPath := by
  unfold Obligations.PowerPath
  refine fun e v rev rise bid ended ck s hd => ⟨?acg, ?attach, ?lost, ?inputOv, ?removed, ?second, ?inserted, ?joined, ?reconnect, ?rbgo, ?refused,
    ?rbStart, ?rbstop, ?again, ?faults⟩
  case acg => exact fun hr hlo hhi => congrArg Host.Outcome.next (if_pos (by simp [hd, hr, hlo, hhi]))
  case attach =>
    intro ha ht hr
    refine ⟨_, congrArg Host.Outcome.next (chgAttach_eq hd ha ht hr), ?_, ?_, logRec_chgLogs _ _ ?_ ?_⟩ <;> simp
  case lost =>
    intro hr hi
    refine ⟨_, congrArg Host.Outcome.next (chgInputLost_eq rev hd hr hi), ⟨rfl, rfl, rfl, rfl, rfl⟩, rfl, ?_,
      logRec_chgLogs _ _ (u := cisSet 0x40 s) ?_ ?_⟩ <;> simp [inputDrop]
  case inputOv =>
    intro hr
    refine ⟨_, congrArg Host.Outcome.next (chgInputOv_eq hd hr), ⟨rfl, rfl, rfl, rfl, rfl⟩, rfl, ?_,
      logRec_chgLogs _ _ (u := cisSet 0x40 (cfltSet 0x10 s)) ?_ ?_⟩ <;> simp [inputDrop]
  case removed =>
    intro hi hr
    obtain ⟨p0, second, ht⟩ := chgRemoved_eq (v := v.toNat) ended hd hi hr
    refine ⟨_, congrArg Host.Outcome.next ht, ?_⟩
    dsimp only
    rw [endOnTime_eq]
    simp [packGone]
  case second =>
    intro hi h2 ha hc
    exact ⟨_, congrArg Host.Outcome.next (chgRemovedSecond_eq hd hi h2 ha hc), logRec_chp .., logRec_chg .., logRec_chgLogs _ _ rfl rfl⟩
  case inserted =>
    intro hi hn hv
    exact congrArg Host.Outcome.next ((if_pos (by simp [hd, hi, hn])).trans (if_pos hv))
  case joined =>
    intro hi hn hv
    have hj : chgInserted v.toNat s = chgJoin v.toNat s := (if_pos (by simp [hd, hi, hn])).trans (if_neg (by simp [hv]))
    exact ⟨_, congrArg Host.Outcome.next hj, chgJoin_leaves v.toNat s⟩
  case reconnect =>
    intro k hi hk
    have hj : chgReconnect s = chgJoin k s := by simp [chgReconnect, hk, hd, hi]
    exact ⟨_, congrArg Host.Outcome.next hj, chgJoin_leaves k s⟩
  case rbgo =>
    intro h hf hr
    exact ⟨_, congrArg Host.Outcome.next ((engWrite_rbgo h).trans (chgRbgo_start hf hr)), rfl, rfl, rfl, rfl, rfl⟩
  case refused =>
    rintro _ h rfl hf
    refine ⟨_, congrArg Host.Outcome.next ((engWrite_rbgo h).trans (chgRbgo_refused hf)), ?_, ?_, ?_, logRec_chgLogs _ _ ?_ ?_⟩ <;> simp
  case rbStart =>
    intro hr _ ha
    refine ⟨_, congrArg Host.Outcome.next (chgRbStart_eq hd hr ha), ?_, ?_, ?_, logRec_chgLogs _ _ ?_ ?_⟩
    · rw [logRec_chg, chgEnter_eq]
    all_goals simp [ha]
  case rbstop =>
    intro h hr hs
    exact ⟨_, congrArg Host.Outcome.next ((engWrite_rbstop h).trans (chgRbStopAt_eq 1 hd hr hs)), rfl, rfl, rfl⟩
  case again => exact fun h hf hr => congrArg Host.Outcome.next ((engWrite_rbgo h).trans (chgRbgo_runs hf hr))
  case faults =>
    intro hr hs
    have ho : exec .rbOverload s = .next _ := congrArg Host.Outcome.next (chgOverload_eq hd hr hs)
    refine ⟨⟨_, congrArg Host.Outcome.next (chgRbStopAt_eq 6 hd hr hs), rfl, rfl, rfl⟩, ⟨_, ho, rfl, ?_, ?_⟩, ⟨_, ho, ?_⟩⟩ <;> simp

end Sys2Proof.Machine
end

section
/-! SUPPORT. Loss measurements, the copies that a port holds and the contour table (04 R186, R187, R191, R195). -/

namespace Sys2Proof.Machine

variable {e n : Eng} {s : State}

/-! ### RON and QG (R186) -/

/-- The samples of a switch that R186 takes: those with |IL| of 2.0 A and more. -/
def ronSamples (l : List (Int × Int)) : List (Int × Int) := l.filter (fun x => decide (2000 ≤ |x.2|))

theorem ronMean_few {l : List (Int × Int)} (old : Nat) (h : (ronSamples l).length < 4096) : ronMean l old = old :=
  if_pos (lt_of_le_of_lt (List.length_take_le' _ _) h)

theorem ronMean_mean {l : List (Int × Int)} (old : Nat) (h : 4096 ≤ (ronSamples l).length) : ronMean l old
    = reg16 (openRound (20 * (((ronSamples l).take 4096).map (fun x => (x.1 : Rat) / (x.2 : Rat))).sum / 4096)) := by
  have hn : ¬ ((ronSamples l).take 4096).length < 4096 := by rw [List.length_take, min_eq_left h]; exact lt_irrefl _
  rw [List.sum_eq_foldl, List.foldl_map]
  exact if_neg hn

theorem qgMean_few {l : List Nat} (old : Nat) (h : l.length < 16) : qgMean l old = old := if_pos h

theorem qgMean_mean {l : List Nat} (old : Nat) (h : 16 ≤ l.length) : qgMean l old
    = reg16 (openRound (20 * 41667 / 1000000 * (((l.take 16).sum : Nat) : Rat) / 16)) := by
  rw [qgMean, if_neg (not_lt.mpr h), bind_pure_comp, List.map_eq_map, Nat.cast_list_sum, List.sum_eq_foldl]

theorem chgLfmDone_eq {ron : Vector (List (Int × Int)) 4} {qg : Vector (List Nat) 4} (hd : domOn s 1 = true) (hl : s.cht.lfm = true)
    (hm : s.dct.mode = .run) : chgLfmDone ron qg s = cisSet 0x80 { s with
      cht := { s.cht with lfm := false }
      chs := { s.chs with
        ron := Vector.ofFn (fun k => ronMean ron[k] s.chs.ron[k])
        qg := Vector.ofFn (fun k => if (switchMask (s.chg.rb ≠ 0) s.chg.mode).testBit k.val then qgMean qg[k] s.chs.qg[k] else s.chs.qg[k]) } } :=
  if_pos (by simp [hd, hl, hm])

theorem chgLossBound_eq (hd : domOn s 1 = true) (hc : 16 ≤ s.cht.lossCnt) :
    chgLossBound s = logRec 6 0x12 [s.chs.lratio, reg16 (openRound s.chs.floor)]
      (cfltSet 0x80 { s with cht := { s.cht with lossCnt := 0 } }) := if_pos (by simp [hd, hc])

/-! ### The held copies (R191) -/

/-- A write of HOLD = 1 over HOLD = 0 takes the port's copy. -/
theorem hostWrite_chgsel_hold {p : Port} {priv : Bool} (h : PortMay s p priv 0x1C true) (hk : s.hp[p].sel.chgsel % 64 < 0x1B)
    (hlt : s.hp[p].sel.chgsel < 128) : hostWrite p priv 0x1C (setBit s.hp[p].sel.chgsel 7 true) s
      = { portWrote p { s.hp[p].sel with chgsel := s.hp[p].sel.chgsel % 64 + 128 } s with chs := { s.chs with held := s.chs.held.set p s.cht.vals } } := by
  have h7 : s.hp[p].sel.chgsel.testBit 7 = false := Nat.testBit_lt_two_pow hlt
  have hv : setBit s.hp[p].sel.chgsel 7 true = s.hp[p].sel.chgsel + 128 := by
    rw [setBit, h7]
    rfl
  have hv7 : (s.hp[p].sel.chgsel + 128).testBit 7 = true := by
    have hb := testBit_setBit s.hp[p].sel.chgsel 7 7 true
    rwa [hv, if_pos rfl] at hb
  have hm : (s.hp[p].sel.chgsel + 128) % 64 = s.hp[p].sel.chgsel % 64 := by omega
  have hn : ¬ 0x1B ≤ s.hp[p].sel.chgsel % 64 := by omega
  rw [hv]
  refine hostWrite_ok h ?_
  change chgselWrite p (s.hp[p].sel.chgsel + 128) (bufFree p s) = _
  simp only [chgselWrite, bufFree_sel, hm, if_neg hn, hv7, h7, putSel_bufFree]
  rfl

/-! ### The contour table (R195) -/

/-- CTDAT (R195). -/
theorem ctdat_pair : IndexedPair 0xC49 0xC00 4 :=
  ⟨by decide, rfl, rfl, rfl, fun _ => rfl, fun _ => rfl, fun _ _ _ => ⟨rfl, rfl, rfl, rfl⟩, by decide, by decide⟩

/-- Two engines read CTDAT on one edge (R38, R195). -/
theorem ctdat_readBoth (h : EngMay s e 0xC49 false) (h' : EngMay s e 0xC4A false) (hn : EngMay s n 0xC49 false) (hn' : EngMay s n 0xC4A false) :
    ReadBoth (.contourTableAccess · none ·) e n (ctEntry s % 65536) s { s with chs := { s.chs with ctsel := (s.chs.ctsel + 1) % 128 } } := by
  obtain ⟨y, z, h1, h2, h3, h4⟩ := ctdat_pair.readBoth (e := e) (n := n) (v := ctEntry s)
    (t := { s with chs := { s.chs with ctsel := (s.chs.ctsel + 1) % 128 } }) (fun _ => rfl) (fun _ => rfl) h h' hn hn'
  exact ⟨y, z, congrArg Host.Outcome.next h1, h2, congrArg Host.Outcome.next h3, h4⟩

/-- A write of CTDAT by an engine. -/
theorem engWrite_ctdat (h : EngMay s e 0xC49 true) (h' : EngMay s e 0xC4A true) (v : Half) :
    ∃ y, engWrite e 0xC49 2 v.toNat s = chgWrite 0x49 v.toNat (withIo y s) := by
  obtain ⟨y, hy⟩ := ctdat_pair.engWrite_whole (v := v.toNat) h h'
  rw [Nat.mod_eq_of_lt v.isLt] at hy
  exact ⟨y, hy⟩

/-- CTSEL after an access, whatever else it does (R195, log entry 51). -/
def ctNext (s : State) : ChgSel := { s.chs with ctsel := (s.chs.ctsel + 1) % 128 }

/-- A write of an entry of a zone is staged. -/
theorem ctdatWrite_contour (v : Half) (hi : s.chs.ctsel < 48) : chgWrite 0x49 v.toNat s = { s with
    chs := ctNext s
    chg := { s.chg with cfg := { s.chg.cfg with stg := spSet 0 s.chg.cfg.stg (0x10000 + s.chs.ctsel) v.toNat, dirty := true } } } := by
  have hv : v.toNat % 65536 = v.toNat := Nat.mod_eq_of_lt v.isLt
  simp [chgWrite, ctNext, hi, hv]

/-- A write of an entry of the OCV table is live at once. -/
theorem ctdatWrite_ocv (v : Half) (hlo : 48 ≤ s.chs.ctsel) (hhi : s.chs.ctsel < 69) : chgWrite 0x49 v.toNat s = { s with
    chs := ctNext s, chp := { s.chp with ocv := spSet 0 s.chp.ocv (s.chs.ctsel - 48) v.toNat } } := by
  have hv : v.toNat % 65536 = v.toNat := Nat.mod_eq_of_lt v.isLt
  simp [chgWrite, ctNext, not_lt.mpr hlo, hhi, hv]

/-- A write beyond the tables sets BSTAT.ERR. -/
theorem ctdatWrite_beyond (v : Half) (hi : 69 ≤ s.chs.ctsel) : chgWrite 0x49 v.toNat s = { s with
    chs := ctNext s, chg := { s.chg with cfg := { s.chg.cfg with err := true } } } := by
  have h48 : ¬ s.chs.ctsel < 48 := by omega
  simp [chgWrite, ctNext, not_lt.mpr hi, h48]

end Sys2Proof.Machine
end

section
/-! CERTIFICATE. Loss measurements, the held copies and the contour table (04 R186, R187, R191, R195). -/

namespace Sys2Proof.Machine

/-- Settles O50: RON and QG are the means of their samples where there are enough, and CTDAT is an indirect data register whose write
goes to the table that CTSEL points into. -/
theorem chargerMeasurements : Obligations.ChargerMeasurements := by
  unfold Obligations.ChargerMeasurements
  refine fun e p priv v ron qg s hd => ⟨?lfmgo, ?auto, ?floorDone, ?bound, ?hold, ?readBoth, ?tables⟩
  case lfmgo => exact fun h => congrArg Host.Outcome.next (engWrite_lfmgo h)
  case auto => exact fun hm hs hl => congrArg Host.Outcome.next (if_pos (by simp [hd, hm, hs, hl]))
  case floorDone =>
    intro hm hl
    refine ⟨_, congrArg Host.Outcome.next (chgLfmDone_eq hd hl hm), cisSet_cht .., cisSet_chg .., fun n => ?_⟩
    rw [cisSet_chs]
    have hron : (Vector.ofFn fun k : Fin 4 => ronMean ron[k] s.chs.ron[k])[n] = ronMean ron[n] s.chs.ron[n] := Vector.getElem_ofFn _
    refine ⟨fun h => ?_, fun h => ?_, fun h => ?_, fun h hlen => ?_⟩
    · exact hron.trans (ronMean_few _ h)
    · exact hron.trans (ronMean_mean _ h)
    · refine (Vector.getElem_ofFn _).trans ?_
      rcases h with h | h
      · exact if_neg (by simpa using h)
      · split
        · exact qgMean_few _ h
        · rfl
    · exact (Vector.getElem_ofFn _).trans ((if_pos h).trans (qgMean_mean _ hlen))
  case bound =>
    intro hc
    refine ⟨_, congrArg Host.Outcome.next (chgLossBound_eq hd hc), ?_, ?_, ?_⟩ <;> simp
  case hold => exact fun h hk _ hlt => congrArg Host.Outcome.next (hostWrite_chgsel_hold h hk hlt)
  case readBoth => exact fun n h h' hn hn' => ctdat_readBoth h h' hn hn'
  case tables =>
    intro h h'
    obtain ⟨y, hy⟩ := engWrite_ctdat h h' v
    refine ⟨fun hi => ⟨y, ?_⟩, fun hi => ⟨y, ?_⟩, fun hlo hhi => ⟨y, ?_⟩⟩
    · exact congrArg Host.Outcome.next (hy.trans (ctdatWrite_contour (s := withIo y s) v hi))
    · exact congrArg Host.Outcome.next (hy.trans (ctdatWrite_beyond (s := withIo y s) v hi))
    · exact congrArg Host.Outcome.next (hy.trans (ctdatWrite_ocv (s := withIo y s) v hlo hhi))

end Sys2Proof.Machine
end

section
/-! SUPPORT. The battery temperature, the timers, the peak limit and the telemetry interval (04 R148, R149, R151, R155, R161, R164, R180, R182,
R183). -/

namespace Sys2Proof.Machine

variable {s : State} {t : ChgTelem}

/-! ### TBAT (R155) -/

theorem chgTbat_code {y : Nat} (hd : domOn s 1 = true) (hy : y < 256 ∨ 16128 < y) :
    chgTbat y s = { s with chp := { s.chp with ntcBad := s.chp.ntcBad + 1, ntcGood := 0 } } := by
  have hv : ¬ (256 ≤ y ∧ y ≤ 16128) := by omega
  simp only [chgTbat, hd, Bool.not_true, Bool.false_eq_true, if_false]
  exact if_neg (by simpa only [Bool.and_eq_true, decide_eq_true_eq, and_assoc] using fun h => hv ⟨h.1, h.2.1⟩)

theorem chgTbat_valid {y : Nat} (hd : domOn s 1 = true) (hlo : 256 ≤ y) (hhi : y ≤ 16128)
    (htlo : -640 ≤ ntcTemp (chgLive s 0x41) (chgLive s 0x43) 1000 y) (hthi : ntcTemp (chgLive s 0x41) (chgLive s 0x43) 1000 y ≤ 2000) :
    chgTbat y s = { s with
      chp := { s.chp with tbat := ntcTemp (chgLive s 0x41) (chgLive s 0x43) 1000 y, ntcBad := 0, ntcGood := s.chp.ntcGood + 1 }
      chg := { s.chg with zone := if s.chg.zone = 7 then 7 else zoneHyst s (ntcTemp (chgLive s 0x41) (chgLive s 0x43) 1000 y) s.chg.zone } } := by
  simp [chgTbat, hd, hlo, hhi, htlo, hthi]

/-! ### The safety timer (R161, R164, R182) -/

/-- What a tick adds: 1 where slow time makes up half of its interval, else 2. -/
def tickSize (s : State) : Nat := if 250 ≤ s.cht.slowCnt then 1 else 2

theorem chgTick_eq (hd : domOn s 1 = true) : chgTick s = { s with
    chg := { s.chg with
      timer := if s.chg.st = 4 ∨ s.chg.st = 5 then s.chg.timer + tickSize s else s.chg.timer
      pre := if s.chg.st = 4 then s.chg.pre + tickSize s else s.chg.pre, half := (chgTick s).chg.half }
    cht := { s.cht with slowCnt := 0 } } := by
  simp [chgTick, hd, tickSize]

/-! ### The gates and the peak limit (R146, R148, R149) -/

theorem startGates_normal {r mode : Nat} (hr : r = 0) (hm : mode ≠ 0) : startGates (r ≠ 0) mode = if mode = 1 then 0b1001 else 0b1010 := by
  simp [startGates, hr, hm]

theorem startGates_boost {r mode : Nat} (hr : r ≠ 0) (hm : mode ≠ 0) : startGates (r ≠ 0) mode = if mode = 1 then 0b1001 else 0b0101 := by
  simp [startGates, hr, hm]

theorem endGates_normal {r mode : Nat} (hr : r = 0) (hm : mode ≠ 0) : endGates (r ≠ 0) mode = if mode = 1 ∨ mode = 2 then 0b0101 else 0b1001 := by
  by_cases h1 : mode = 1 <;> simp [endGates, hr, hm, h1]

theorem endGates_boost {r mode : Nat} (hr : r ≠ 0) (hm : mode ≠ 0) : endGates (r ≠ 0) mode = if mode = 1 ∨ mode = 2 then 0b1010 else 0b1001 := by
  by_cases h1 : mode = 1 <;> simp [endGates, hr, hm, h1]

/-- An on-time that runs is cut. -/
theorem chgPeak_runs (hd : domOn s 1 = true) (hm : s.chg.mode ≠ 0) (hg : s.chg.gates = startGates (s.chg.rb ≠ 0) s.chg.mode) :
    chgPeak false s = { s with chg := { s.chg with gates := endGates (s.chg.rb ≠ 0) s.chg.mode, gatesWas := s.chg.gates } } :=
  (if_pos hd).trans (if_pos (by simp only [← hg]; simp [hm]))

/-- One that has ended, has been cut or never ran is not. -/
theorem chgPeak_none (hd : domOn s 1 = true) (h : s.chg.mode = 0 ∨ s.chg.gates ≠ startGates (s.chg.rb ≠ 0) s.chg.mode) :
    chgPeak false s = s := by
  refine (if_pos hd).trans (if_neg ?_)
  rcases h with h | h
  · simp [h]
  · rw [decide_eq_false h, Bool.and_false]
    exact Bool.false_ne_true

theorem chgPeak_ended (hd : domOn s 1 = true) : chgPeak true s = s := (if_pos hd).trans (if_neg (by simp))

/-! ### The telemetry interval (R151, R156, R180, R182 to R187) -/

/-- The interval counted: the charge count, the regulation flags, the step and ZCELL; before CTIME, the losses and the ramps. -/
def intervalCounted (t : ChgTelem) (s : State) : State :=
  let q := s.chg
  let c := s.cht
  let hc := maxInt (cellsOf s t.m)
  let inreg := decide (c.nPer < 2 * c.nIn)
  let threg := decide (c.nPer < 2 * c.nTj) || (c.ithAll && c.nPer ≠ 0)
  let final := decide (zoneSteps s q.zone ≤ q.step + 1)
  let term := q.st = 5 && final && decide (t.m.ibat < 10 * (chgLive s 0x1D : Int)) && decide (c.nPer < 2 * c.nV)
  let ct := c.ctimeRun.map (· + 1)
  { s with
    cht := { c with rcq := clampI 0 (3600000 * (s.chp.fcc : Int)) (c.rcq + t.m.ibat)
                    zcell := (zcellFold hc t.m.ibat c.zm c.zcell).1, zm := (zcellFold hc t.m.ibat c.zm c.zcell).2, inreg := inreg, threg := threg
                    slowCnt := c.slowCnt + b2n (inreg || threg || zoneDerate s q.zone)
                    termCnt := if term then c.termCnt + 1 else 0
                    nPer := 0, nIn := 0, nTj := 0, nV := 0, ithAll := true, hcPrev := hc, ibPrev := t.m.ibat
                    ctimeRun := ct, ctime := match ct with | some n => reg16 (n / 1000 : Nat) | none => c.ctime }
    chg := { q with stepNext := if q.st = 5 && !final && decide (veff s q.zone q.step ≤ hc) then some (q.step + 1) else q.stepNext
                    cis := q.cis ||| 0x20 } }

/-- The losses of the interval, in RUN (R187). -/
def lossesTaken (t : ChgTelem) (s : State) : State :=
  if s.dct.mode ≠ .run then s else
  let ratio : Int := (256 * lossNow s t / lossFloor s t).floor
  let high := lossFloor s t ≠ 0 && decide (294 < ratio) && decide (50 ≤ lossFloor s t)
  { s with
    chs := { s.chs with loss := openRound (lossNow s t), floor := lossFloor s t
                        lratio := if lossFloor s t = 0 then (Config.ratioNoFloor (lossNow s t)).toNat else reg16 (min 65535 ratio) }
    cht := { s.cht with lossCnt := if high then s.cht.lossCnt + 1 else 0 } }

/-- The ramps of VSYS and of reverse boost (R175, R177, R179, R180). -/
def rampsMoved (s : State) : State :=
  let goal : Int := match s.chp.insPack with
    | some p => p
    | none => 20 * (chgLive s 0x30 : Int)
  { s with chp := { s.chp with
    vsysTgt := if s.chp.isol then rampTo 1000 goal s.chp.vsysTgt else s.chp.vsysTgt
    rbTgt := if s.chg.rb = 0 then s.chp.rbTgt else rampTo (if s.chg.rb = 1 then 5000 else 1000) (rbGoal s) s.chp.rbTgt } }

theorem chgInterval_eq (hd : domOn s 1 = true) : chgInterval t s
    = (let u := rampsMoved (lossesTaken t (socCross (chgSoc s) (intervalCounted t s)))
      { u with cht := { u.cht with vals := chgValues u t }, chs := { u.chs with drvv := t.drvv % 256 } }) :=
  if_neg (by simp [hd])

theorem socCross_eq (n : Nat) (s : State) : socCross n s = { s with cht := { s.cht with
    ctimeRun := (socCross n s).cht.ctimeRun, ctime := (socCross n s).cht.ctime, cmin := (socCross n s).cht.cmin } } := by
  unfold socCross
  split <;> rfl

theorem lossesTaken_eq (t : ChgTelem) (s : State) : lossesTaken t s = { s with
    chs := (lossesTaken t s).chs, cht := { s.cht with lossCnt := (lossesTaken t s).cht.lossCnt } } := by
  unfold lossesTaken
  split <;> rfl

/-- What an interval changes beside what it counts. -/
theorem chgInterval_leaves (hd : domOn s 1 = true) : chgInterval t s = { intervalCounted t s with
    chp := { s.chp with vsysTgt := (chgInterval t s).chp.vsysTgt, rbTgt := (chgInterval t s).chp.rbTgt }
    cht := { (intervalCounted t s).cht with
      ctimeRun := (chgInterval t s).cht.ctimeRun, ctime := (chgInterval t s).cht.ctime, cmin := (chgInterval t s).cht.cmin
      lossCnt := (chgInterval t s).cht.lossCnt, vals := (chgInterval t s).cht.vals }
    chs := (chgInterval t s).chs } := by
  rw [chgInterval_eq hd, lossesTaken_eq, socCross_eq]
  rfl

theorem chgInterval_rbTgt (hd : domOn s 1 = true) (hr : s.chg.rb ≠ 0) :
    (chgInterval t s).chp.rbTgt = rampTo (if s.chg.rb = 1 then 5000 else 1000) (rbGoal s) s.chp.rbTgt := by
  rw [chgInterval_eq hd, lossesTaken_eq, socCross_eq]
  exact if_neg hr

theorem clampI_zero {x y : Int} (hy : 0 ≤ y) : clampI 0 y x = max 0 (min y x) := by
  unfold clampI
  split_ifs <;> omega

end Sys2Proof.Machine
end

section
/-! SUPPORT. What a period start decides (04 R146, R147, R150, R151, R154, R156 to R158): the row of the table of states, the code that an
ended charge shows, the step of the contour, the stage mode, the loop that limits and the charge current. -/

namespace Sys2Proof.Machine

variable {s : State} {m : ChgMeas}

/-! ### The state (R154) -/

/-- The state of the first row that holds, CHARGE where none does. -/
def pickRow : List (Bool × Nat) → Nat
  | [] => 0x5
  | r :: l => if r.1 then r.2 else pickRow l

theorem find?_pickRow (l : List (Bool × Nat)) : (l ++ [(true, 0x5)]).find? Prod.fst = some (true, pickRow l) := by
  induction l with
  | nil => rfl
  | cons r l ih =>
    obtain ⟨b, n⟩ := r
    cases b
    · exact ih
    · rfl

theorem pickRow_le {l : List (Bool × Nat)} {b : Nat} (hl : ∀ r ∈ (true, 0x5) :: l, r.2 ≤ b) : pickRow l ≤ b := by
  have hm : (true, pickRow l) ∈ l ++ [(true, 0x5)] := List.mem_of_find?_eq_some (find?_pickRow l)
  exact hl (true, pickRow l) (List.mem_cons.mpr ((List.mem_append.mp hm).symm.imp List.mem_singleton.mp id))

/-- CHARGE is entered only where no row holds. -/
theorem pickRow_charge {l : List (Bool × Nat)} (hl : ∀ r ∈ l, r.2 ≠ 0x5) (h : pickRow l = 0x5) : ∀ r ∈ l, r.1 = false := by
  induction l with
  | nil => simp
  | cons r l ih =>
    obtain ⟨hr, hl⟩ := List.forall_mem_cons.mp hl
    by_cases hb : r.1 = true
    · exact absurd ((if_pos hb).symm.trans h) hr
    · exact List.forall_mem_cons.mpr ⟨by simpa using hb, ih hl ((if_neg hb).symm.trans h)⟩

/-- The rows of R154 but the last, in their order. -/
def stateRows (s : State) (m : ChgMeas) : List (Bool × Nat) :=
  let q := s.chg
  let z := q.zone
  let hc := maxInt (cellsOf s m)
  let lc := minInt (cellsOf s m)
  let again := decide (1 ≤ zoneSteps s z) && !zoneDerate s z && decide (hc < veffFinal s z - chgLive s 0x23)
  let pre := decide (lc < (chgLive s 0x21 : Int)) || (q.st = 4 && decide (lc < (chgLive s 0x21 : Int) + 100))
  let hold := decide (veffFinal s z ≤ hc) && (q.st = 6 || (q.st = 5 && q.zoneP ≠ z) || (q.st ≠ 5 && !pre))
  [(!q.en, 0x0), (q.flt.testBit 0 || s.tha.chgTrip, 0xC), (q.rb = 2, 0xD), (!(s.chp.vinOk && !s.chp.blocked), 0x1), (!s.chp.attached, 0x2), (s.chp.isol, 0x3),
    (q.flt.testBit 2 || q.flt.testBit 3, 0xB), (q.expKind.isSome && !again, if q.expKind = some true then 0xA else 0x9), (z = 7 || zoneSteps s z = 0, 0x7),
    (q.termHeld, 0x8), (hold, 0x6), (pre, 0x4)]

theorem chgNextState_eq (s : State) (m : ChgMeas) : chgNextState s m = pickRow (stateRows s m) := by
  simp only [chgNextState, stateRows, pickRow, inputValid, chgTripLine, restartMet, decide_eq_true_eq]
  simp only [Bool.and_comm (decide (s.chg.st ≠ 5))]
  rfl

theorem chgNextState_le (s : State) (m : ChgMeas) : chgNextState s m ≤ 0xD := by
  rw [chgNextState_eq]
  refine pickRow_le ?_
  simp only [stateRows, List.forall_mem_cons]
  refine ⟨by decide, by decide, by decide, by decide, by decide, by decide, by decide, by decide, ?_, by decide, by decide, by decide, by decide, by simp⟩
  split_ifs <;> decide

theorem stateRows_no_charge : ∀ r ∈ stateRows s m, r.2 ≠ 0x5 := by
  simp only [stateRows, List.forall_mem_cons]
  refine ⟨by decide, by decide, by decide, by decide, by decide, by decide, by decide, ?_, by decide, by decide, by decide, by decide, by simp⟩
  split_ifs <;> decide

/-- In CHARGE the zone has a step; and where the step is to be selected, the highest cell is below the final voltage. -/
theorem chgNextState_charge (h : chgNextState s m = 5) : zoneSteps s s.chg.zone ≠ 0
    ∧ (s.chg.st ≠ 5 ∨ s.chg.zoneP ≠ s.chg.zone → maxInt (cellsOf s m) < veffFinal s s.chg.zone) := by
  have hrow := pickRow_charge stateRows_no_charge ((chgNextState_eq s m).symm.trans h)
  simp only [stateRows, List.forall_mem_cons] at hrow
  obtain ⟨-, -, -, -, -, -, -, -, hz, -, hhold, hpre, -⟩ := hrow
  refine ⟨fun h0 => by simp [h0] at hz, fun hs => not_le.mp fun hfull => ?_⟩
  rw [hpre] at hhold
  by_cases h5 : s.chg.st = 5
  · have hzone : s.chg.zoneP ≠ s.chg.zone := hs.resolve_left (not_not.mpr h5)
    simp [hfull, h5, hzone] at hhold
  · simp [hfull, h5] at hhold

/-- With the charger off, the state is OFF; with a protection, PROTECT; with no valid input, NOINPUT. -/
theorem chgNextState_off (he : s.chg.en = false) : chgNextState s m = 0x0 := by simp [chgNextState, he]

theorem chgNextState_protect (he : s.chg.en = true) (h : s.chg.flt.testBit 0 = true ∨ s.tha.chgTrip = true) : chgNextState s m = 0xC :=
  (if_neg (by simp [he])).trans (if_pos (by simpa [chgTripLine] using h))

theorem chgNextState_noinput (he : s.chg.en = true) (hf : s.chg.flt.testBit 0 = false) (ht : s.tha.chgTrip = false) (hr : s.chg.rb ≠ 2)
    (hi : inputValid s = false) : chgNextState s m = 0x1 := by
  rw [chgNextState_eq]
  have hi' : (!(s.chp.vinOk && !s.chp.blocked)) = true := by rw [← inputValid, hi]; rfl
  simp [stateRows, pickRow, he, hf, ht, hr, hi']

/-! ### The end of a charge (R154) -/

theorem cendCode_getD {n : Nat} (hn : n ≤ 0xD) (c : Nat) (s : State) : (cendCode s n).getD c
    = if n = 0 then 9 else if n = 1 then (if s.chp.isol then 4 else 5) else if n = 3 then 4 else if n = 8 then 1 else if n = 9 then 2
      else if n = 0xA then 3 else if n = 0xB then (if s.chg.flt.testBit 3 then 7 else 0xA) else if n = 0xC then (if s.chg.flt.testBit 0 then 6 else 8)
      else c := by
  interval_cases n <;> rfl

theorem cendCode_isNone {n : Nat} (hn : n ≤ 0xD) (s : State) : (cendCode s n).isNone = decide (n = 2 ∨ (4 ≤ n ∧ n ≤ 7) ∨ n = 0xD) := by
  interval_cases n <;> rfl

/-! ### The step (R157) -/

/-- Below the final voltage a step is selected: the lowest whose voltage the highest cell has not reached. -/
theorem selectStep_spec {z : Nat} {hc : Int} (hz : zoneSteps s z ≠ 0) (h : hc < veffFinal s z) :
    ∃ k, selectStep s z hc = some k ∧ k < zoneSteps s z ∧ hc < veff s z k ∧ ∀ j, j < k → veff s z j ≤ hc := by
  have hlast : zoneSteps s z - 1 ∈ List.range (zoneSteps s z) := List.mem_range.mpr (by omega)
  have hsome : ((List.range (zoneSteps s z)).find? (fun k => decide (hc < veff s z k))).isSome = true :=
    List.find?_isSome.mpr ⟨_, hlast, decide_eq_true h⟩
  obtain ⟨k, hk⟩ := Option.isSome_iff_exists.mp hsome
  obtain ⟨hv, hm, hj⟩ := List.find?_range_eq_some.mp hk
  exact ⟨k, hk, List.mem_range.mp hm, of_decide_eq_true hv, fun j h => by simpa using hj j h⟩

/-! ### The stage mode (R146) -/

theorem stageMode_buck (a b : Int) : stageMode 1 a b = if 100 * -a < -114 * b then 3 else if 100 * -a < -90 * b then 2 else 1 := by
  simp [stageMode]

theorem stageMode_boost (a b : Int) : stageMode 3 a b = if 100 * a < 86 * b then 1 else if 100 * a < 110 * b then 2 else 3 := by
  simp [stageMode]

theorem stageMode_other {mode : Nat} (h1 : mode ≠ 1) (h3 : mode ≠ 3) (a b : Int) :
    stageMode mode a b = if 100 * a < 86 * b then 1 else if 100 * -a < -114 * b then 3 else 2 := by
  simp [stageMode, h1, h3]

/-! ### The loops (R150) -/

/-- The target of loop j lies near what it regulates, so that the loop counts. -/
def loopNear (s : State) (m : ChgMeas) (j : Nat) : Prop :=
  let charging : Prop := s.chg.st = 4 ∨ s.chg.st = 5
  let n : Int := chgLive s 0x10
  j = 0 ∨ (j = 1 ∧ charging ∧ cellTarget s - 10 ≤ maxInt (cellsOf s m)) ∨ (j = 2 ∧ charging ∧ n * cellTarget s - n * 10 ≤ m.pack)
  ∨ (j = 3 ∧ s.chp.acg = true ∧ s.chg.rb = 0 ∧ 98 * iinLimit s ≤ 100 * m.iin)
  ∨ (j = 4 ∧ s.chp.acg = true ∧ s.chg.rb = 0 ∧ 100 * m.vin ≤ 102 * 20 * (chgLive s 0x2C : Int)) ∨ (j = 5 ∧ 16 * ((chgLive s 0x40 : Int) - 2) ≤ m.tj)

/-- What loop j demands. -/
def loopDemand (d : ChgDemand) (j : Nat) : Int :=
  if j = 0 then d.primary else if j = 1 then d.cell else if j = 2 then d.pack else if j = 3 then d.iin else if j = 4 then d.vin else d.tj

/-- One candidate against the least so far. -/
def lessOf (a : Nat × Int) (c : Nat × Int × Bool) : Nat × Int := if c.2.2 && decide (c.2.1 < a.2) then (c.1, c.2.1) else a

/-- The least of a start and the candidates that count. -/
theorem foldl_lessOf (l : List (Nat × Int × Bool)) (a : Nat × Int) :
    (l.foldl lessOf a = a ∨ ∃ c ∈ l, c.2.2 = true ∧ l.foldl lessOf a = (c.1, c.2.1))
    ∧ (l.foldl lessOf a).2 ≤ a.2 ∧ ∀ c ∈ l, c.2.2 = true → (l.foldl lessOf a).2 ≤ c.2.1 := by
  induction l generalizing a with
  | nil => simp
  | cons c l ih =>
    obtain ⟨hwhich, hstart, hall⟩ := ih (lessOf a c)
    have hle : (lessOf a c).2 ≤ a.2 ∧ (c.2.2 = true → (lessOf a c).2 ≤ c.2.1) := by
      unfold lessOf
      split
      · next h =>
        simp only [Bool.and_eq_true, decide_eq_true_eq] at h
        exact ⟨h.2.le, fun _ => le_rfl⟩
      · next h =>
        simp only [Bool.and_eq_true, decide_eq_true_eq, not_and, not_lt] at h
        exact ⟨le_rfl, h⟩
    refine ⟨?_, hstart.trans hle.1, List.forall_mem_cons.mpr ⟨fun hc => hstart.trans (hle.2 hc), hall⟩⟩
    rw [List.foldl_cons]
    rcases hwhich with h | ⟨x, hx, hc, h⟩
    · rw [h]
      unfold lessOf
      split
      · next hc => exact .inr ⟨c, List.mem_cons_self, (Bool.and_eq_true_iff.mp hc).1, rfl⟩
      · exact .inl rfl
    · exact .inr ⟨x, List.mem_cons_of_mem _ hx, hc, h⟩

/-- The candidates that stand against the primary loop. -/
def loopCands (s : State) (m : ChgMeas) (d : ChgDemand) : List (Nat × Int × Bool) :=
  let charging := s.chg.st = 4 || s.chg.st = 5
  let n : Int := chgLive s 0x10
  let t := cellTarget s
  [(1, d.cell, charging && decide (t - 10 ≤ maxInt (cellsOf s m))), (2, d.pack, charging && decide (n * t - n * 10 ≤ m.pack)),
    (3, d.iin, s.chp.acg && s.chg.rb = 0 && decide (98 * iinLimit s ≤ 100 * m.iin)),
    (4, d.vin, s.chp.acg && s.chg.rb = 0 && decide (100 * m.vin ≤ 102 * 20 * (chgLive s 0x2C : Int))),
    (5, d.tj, decide (16 * ((chgLive s 0x40 : Int) - 2) ≤ m.tj))]

theorem bindLoop_eq (s : State) (m : ChgMeas) (d : ChgDemand) : bindLoop s m d = (loopCands s m d).foldl lessOf (0, d.primary) := rfl

/-- A candidate that counts is a loop near its target, with its demand. -/
theorem loopCands_near (s : State) (m : ChgMeas) (d : ChgDemand) :
    ∀ c ∈ loopCands s m d, c.2.2 = true → loopNear s m c.1 ∧ c.2.1 = loopDemand d c.1 := by
  simp only [loopCands, List.forall_mem_cons, Bool.and_eq_true, Bool.or_eq_true, decide_eq_true_eq]
  refine ⟨fun h => ⟨.inr (.inl ⟨rfl, h⟩), rfl⟩, fun h => ⟨.inr (.inr (.inl ⟨rfl, h⟩)), rfl⟩,
    fun h => ⟨.inr (.inr (.inr (.inl ⟨rfl, h.1.1, h.1.2, h.2⟩))), rfl⟩,
    fun h => ⟨.inr (.inr (.inr (.inr (.inl ⟨rfl, h.1.1, h.1.2, h.2⟩)))), rfl⟩, fun h => ⟨.inr (.inr (.inr (.inr (.inr ⟨rfl, h⟩)))), rfl⟩, by simp⟩

/-- Every loop near its target but the primary one is a candidate that counts. -/
theorem loopNear_cand {d : ChgDemand} {j : Nat} (h0 : j ≠ 0) (h : loopNear s m j) :
    ∃ c ∈ loopCands s m d, c.2.2 = true ∧ c.2.1 = loopDemand d j := by
  rcases h with rfl | ⟨rfl, h⟩ | ⟨rfl, h⟩ | ⟨rfl, ha, hr, h⟩ | ⟨rfl, ha, hr, h⟩ | ⟨rfl, h⟩
  · exact absurd rfl h0
  · exact ⟨_, .head _, by simpa using h, rfl⟩
  · exact ⟨_, .tail _ (.head _), by simpa using h, rfl⟩
  · exact ⟨_, .tail _ (.tail _ (.head _)), by simpa [ha, hr] using h, rfl⟩
  · exact ⟨_, .tail _ (.tail _ (.tail _ (.head _))), by simpa [ha, hr] using h, rfl⟩
  · exact ⟨_, .tail _ (.tail _ (.tail _ (.tail _ (.head _)))), by simpa using h, rfl⟩

/-- The loop that limits is near its target, and its demand is the least of those that are. -/
theorem bindLoop_spec (s : State) (m : ChgMeas) (d : ChgDemand) : loopNear s m (bindLoop s m d).1
    ∧ (bindLoop s m d).2 = loopDemand d (bindLoop s m d).1 ∧ ∀ j, loopNear s m j → (bindLoop s m d).2 ≤ loopDemand d j := by
  obtain ⟨hwhich, hprimary, hall⟩ := foldl_lessOf (loopCands s m d) (0, d.primary)
  rw [← bindLoop_eq] at hwhich hprimary hall
  refine ⟨?_, ?_, fun j hj => ?_⟩
  · rcases hwhich with h | ⟨c, hc, hcount, h⟩
    · exact .inl (congrArg Prod.fst h)
    · rw [h]
      exact (loopCands_near s m d c hc hcount).1
  · rcases hwhich with h | ⟨c, hc, hcount, h⟩
    · rw [h]
      rfl
    · rw [h]
      exact (loopCands_near s m d c hc hcount).2
  · rcases eq_or_ne j 0 with rfl | h0
    · exact hprimary
    · obtain ⟨c, hc, hcount, hdem⟩ := loopNear_cand (d := d) h0 hj
      exact hdem ▸ hall c hc hcount

end Sys2Proof.Machine
end

section
/-! SUPPORT. A period start as a whole (04 R45, R146, R147, R150, R153, R154, R171, R175, R177, R179, R180): a pending set, the state, the
stage, the loops and a due record, one after the other, where no stop of reverse boost waits. -/

namespace Sys2Proof.Machine

variable {s v : State} {m : ChgMeas} {d : ChgDemand} {on : Nat}

/-! ### The parts -/

/-- VIN is valid at a period start: within VINOVP, and above 3.30 V, or 3.50 V where it was not valid (R171, R172). -/
def periodVinOk (m : ChgMeas) (s : State) : Bool :=
  if s.chg.rb = 0 then decide (m.vin ≤ 20 * (chgLive (chgTakeSet s) 0x2E : Int)) && decide ((if s.chp.vinOk then 3300 else 3500) ≤ m.vin) else s.chp.vinOk

/-- What a period works with: the pending set live, the margin registers and VIN as they stand at its start. -/
def periodView (m : ChgMeas) (s : State) : State := { chgTakeSet s with
  chp := { s.chp with mpLive := (s.chp.mpvdn, s.chp.mpdt, s.chp.mpilk), vinOk := periodVinOk m s } }

/-- The same with the measurements of the period before. -/
def periodOpen (m : ChgMeas) (s : State) : State := { periodView m s with cht := { s.cht with last := m } }

/-- An expiry is over where the state lets the charge go on (R163). -/
def expiryOver (st : Nat) (s : State) : State :=
  if s.chg.expKind.isSome && (st = 4 || st = 5 || st = 6 || st = 7 || st = 8) then { s with chg := { s.chg with expKind := none, timer := 0, pre := 0 } } else s

/-- In CHARGE a step is selected where the state or the zone is new (R157). -/
def stepSelects (st was : Nat) (s : State) : Bool := st = 5 && (was ≠ 5 || s.chg.zoneP ≠ s.chg.zone)

/-- The step of the period (R156, R157). -/
def periodStep (hc : Int) (st was : Nat) (s : State) : Nat :=
  if stepSelects st was s then (selectStep s s.chg.zone hc).getD s.chg.step
  else if st = 5 then s.chg.stepNext.getD s.chg.step else s.chg.step

/-- The stage switches: in the states of R153 and in reverse boost, but around a planned change of the CK source (R173). -/
def periodRuns (st : Nat) (s : State) : Bool := (switching st || (s.chg.rb ≠ 0 && st ≠ 0xC)) && !s.clk.prep

/-- The two voltages whose ratio selects the mode (R146). -/
def stageRatio (m : ChgMeas) (s : State) : Int × Int := if s.chg.rb ≠ 0 then (m.vin, m.vsys) else (m.vsys, m.vchg)

/-- The stage mode of the period (R146). -/
def periodMode (m : ChgMeas) (st : Nat) (s : State) : Nat :=
  if !periodRuns st s then 0 else if s.chg.mode = 0 then stageMode 0 (stageRatio m s).1 (stageRatio m s).2 else s.chg.modeNext

/-- The stage at the period start. -/
def periodStage (m : ChgMeas) (hc : Int) (on was gatesWas st : Nat) (s : State) : State :=
  let mode := periodMode m st s
  { s with chg := { s.chg with
    step := periodStep hc st was s, stepNext := none, zoneP := s.chg.zone
    mode := mode, modeNext := if mode = 0 then 0 else stageMode mode (stageRatio m s).1 (stageRatio m s).2
    gates := startGates (s.chg.rb ≠ 0) mode, gatesWas := gatesWas, onCk := if mode = 0 then 0 else (dither on s.chg.dith).1
    dith := if mode = 0 then s.chg.dith else (dither on s.chg.dith).2 } }

/-- ACG in the start-up of reverse boost (R179). -/
def boostNear (m : ChgMeas) (s : State) : Bool := s.chg.rb = 1 && decide (50 * |m.vchg - rbGoal s| ≤ rbGoal s)

/-- The loops and their counts, and the port (R150, R151, R153, R179, R180). -/
def periodLoops (m : ChgMeas) (d : ChgDemand) (st : Nat) (handover : Bool) (s : State) : State :=
  let t := s.cht
  let big := decide (500 ≤ |(chargeTarget s).2 - t.target|)
  let bind := (bindLoop s m d).1
  { s with
    chp := { s.chp with acg := (s.chp.acg || boostNear m s) && st ≠ 0, attached := s.chp.attached && st ≠ 0, batg := st = 0 || !s.chp.isol
                        rbLim := if s.chg.rb ≠ 0 then rbLimit s else 0 }
    cht := { t with
      binding := bind, demand := (bindLoop s m d).2, target := (chargeTarget s).2
      zm := if handover || big then t.zm ++ [{ hc := t.hcPrev, ib := t.ibPrev, n := 0 }] else t.zm
      nPer := t.nPer + 1
      nIn := t.nIn + b2n (s.chg.mode ≠ 0 && (bind = 3 || bind = 4))
      nTj := t.nTj + b2n (s.chg.mode ≠ 0 && bind = 5)
      nV := t.nV + b2n (s.chg.mode ≠ 0 && (bind = 1 || bind = 2))
      ithAll := t.ithAll && ((st = 4 || st = 5) && decide (10 * (s.chp.ithlim : Int) < (chargeTarget s).1)) } }

/-- A period from its state on. -/
def periodFrom (m : ChgMeas) (d : ChgDemand) (on gatesWas : Nat) (v : State) : State :=
  let st := chgNextState v m
  let w := chgEnter st (expiryOver st v)
  let was := (expiryOver st v).chg.st
  let handover := st = 5 && was = 5 && !stepSelects st was w && w.chg.stepNext.isSome
  insertLog (periodLoops m d st handover (periodStage m (maxInt (cellsOf v m)) on was gatesWas st w))

/-- The stops of reverse boost that take effect at a period start (R181). -/
def stopsTaken (s : State) : State :=
  if s.chg.rb ≠ 0 && !s.chg.en then rbHalt 2 s else if s.chg.rbStop ≠ 0 then rbHalt s.chg.rbStop s else s

/-- No stop of reverse boost takes effect at this period start. -/
def BoostGoesOn (s : State) : Prop := s.chg.rbStop = 0 ∧ (s.chg.rb = 0 ∨ s.chg.en = true)

theorem stopsTaken_none (h : BoostGoesOn s) : stopsTaken s = s := by
  obtain ⟨hs, hr⟩ := h
  have hen : ¬ (s.chg.rb ≠ 0 && !s.chg.en) = true := by rcases hr with hr | hr <;> simp [hr]
  exact (if_neg hen).trans (if_neg (not_not.mpr hs))

theorem chgTakeSet_eq (s : State) : chgTakeSet s = { s with chg := { s.chg with cfg := (chgTakeSet s).chg.cfg } } := by
  unfold chgTakeSet
  split <;> rfl

/-- The margin registers and VIN at a period start, with its pending set taken before. -/
def marginsTaken (m : ChgMeas) (s : State) : State :=
  let vinOk := decide (m.vin ≤ 20 * (chgLive s 0x2E : Int)) && decide ((if s.chp.vinOk then 3300 else 3500) ≤ m.vin)
  { s with
    chp := { s.chp with mpLive := (s.chp.mpvdn, s.chp.mpdt, s.chp.mpilk), vinOk := if s.chg.rb = 0 then vinOk else s.chp.vinOk }
    cht := { s.cht with last := m } }

theorem marginsTaken_eq (m : ChgMeas) (s : State) : marginsTaken m (chgTakeSet s) = periodOpen m s := by
  have hchp : (chgTakeSet s).chp = s.chp := by rw [chgTakeSet_eq]
  have hcht : (chgTakeSet s).cht = s.cht := by rw [chgTakeSet_eq]
  have hrb : (chgTakeSet s).chg.rb = s.chg.rb := by rw [chgTakeSet_eq]
  simp only [marginsTaken, periodOpen, periodView, periodVinOk, hchp, hcht, hrb]

theorem periodOpen_goesOn (h : BoostGoesOn s) : BoostGoesOn (periodOpen m s) := by
  have hstop : (chgTakeSet s).chg.rbStop = s.chg.rbStop ∧ (chgTakeSet s).chg.rb = s.chg.rb ∧ (chgTakeSet s).chg.en = s.chg.en := by
    rw [chgTakeSet_eq]
    exact ⟨rfl, rfl, rfl⟩
  obtain ⟨hs, hr, he⟩ := hstop
  exact ⟨hs.trans h.1, h.2.imp hr.trans he.trans⟩

theorem chgPeriod_eq (hd : domOn s 1 = true) (h : BoostGoesOn s) :
    chgPeriod m d on s = periodFrom m d on (gatesEnd s) (periodOpen m s) := by
  have hp : chgPeriod m d on s = periodFrom m d on (gatesEnd s) (stopsTaken (marginsTaken m (chgTakeSet s))) := if_neg (by simp [hd])
  rw [hp, marginsTaken_eq, stopsTaken_none (periodOpen_goesOn h)]

/-! ### What the parts leave -/

theorem expiryOver_eq (st : Nat) (s : State) : expiryOver st s = { s with chg := { s.chg with
    expKind := (expiryOver st s).chg.expKind, timer := (expiryOver st s).chg.timer, pre := (expiryOver st s).chg.pre } } := by
  unfold expiryOver
  split <;> rfl

/-- From v to w the charger has entered state st, and its timers, CEND and CTIME may have followed. -/
structure Entered (st : Nat) (v w : State) : Prop where
  frame : w = { v with
    chg := { v.chg with st := st, expKind := w.chg.expKind, timer := w.chg.timer, pre := w.chg.pre, cis := w.chg.cis, cend := w.chg.cend, inProg := w.chg.inProg }
    cht := { v.cht with ctime := w.cht.ctime, ctimeRun := w.cht.ctimeRun, above := w.cht.above }
    hp := w.hp }
  moved : v.chg.st ≠ st → w.chg.cis = v.chg.cis ||| 1 ∧ (timerStops st → w.chg.timer = 0 ∧ w.chg.pre = 0)
  ends : v.chg.inProg = true → inCharge v.chg.st → w.chg.cend = (cendCode v st).getD v.chg.cend ∧ w.chg.inProg = (cendCode v st).isNone
  starts : v.chg.inProg = false → w.chg.cend = v.chg.cend ∧ (v.chg.st ≠ st → w.chg.inProg = decide (st = 4 ∨ st = 5))

/-- A state of a running charge has no code of an end (R154). -/
theorem cendCode_inCharge {st : Nat} (h : inCharge st) (s : State) : cendCode s st = none := by
  obtain ⟨hlo, hhi⟩ := h
  interval_cases st <;> rfl

theorem chgEnter_entered (st : Nat) (v : State) : Entered st v (chgEnter st (expiryOver st v)) := by
  have hx := expiryOver_eq st v
  generalize expiryOver st v = x at hx
  have hst : x.chg.st = v.chg.st := by rw [hx]
  have hcis : x.chg.cis = v.chg.cis := by rw [hx]
  have hcend : x.chg.cend = v.chg.cend := by rw [hx]
  have hprog : x.chg.inProg = v.chg.inProg := by rw [hx]
  have hcode : cendCode x st = cendCode v st := by rw [hx]; rfl
  refine ⟨?_, fun h => ?_, fun hp hc => ?_, fun hp => ?_⟩
  · rw [chgEnter_eq, hx]
  · rw [← hcis]
    exact chgEnter_moved (hst ▸ h)
  · rw [← hcend, ← hcode]
    by_cases hs : x.chg.st = st
    · rw [chgEnter_self hs, cendCode_inCharge (hs ▸ hst ▸ hc), hprog, hp]
      exact ⟨rfl, rfl⟩
    · exact chgEnter_ends hs (hprog.trans hp) (hst ▸ hc)
  · rw [← hcend, ← hst]
    exact chgEnter_starts (hprog.trans hp)

theorem insertLog_some {pack : Nat} (h : s.chp.insDue = some pack) :
    insertLog s = logRec 6 8 [pack] (cisSet 0x08 { s with chp := { s.chp with insDue := none } }) := by rw [insertLog, h]

theorem insertLog_none (h : s.chp.insDue = none) : insertLog s = s := by rw [insertLog, h]

/-- A due record concerns the record, CIS and that it is due no more. -/
theorem insertLog_eq (s : State) : insertLog s = { s with
    chg := { s.chg with cis := (insertLog s).chg.cis }, chp := { s.chp with insDue := none }
    hp := (insertLog s).hp, fbk := (insertLog s).fbk, svy := (insertLog s).svy } := by
  cases h : s.chp.insDue with
  | none =>
    rw [insertLog_none h, ← h]
  | some pack =>
    rw [insertLog_some h, logRec_eq]
    rfl

/-- CIS.STATE stays. -/
theorem insertLog_cis_zero (h : s.chg.cis.testBit 0 = true) : (insertLog s).chg.cis.testBit 0 = true := by
  cases hi : s.chp.insDue with
  | none => rwa [insertLog_none hi]
  | some pack =>
    rw [insertLog_some hi, logRec_chg, cisSet_chg, Nat.testBit_or, h, Bool.true_or]

theorem insertLog_logs {u : State} {pack : Nat} (hf : u.fbk = s.fbk) (hv : u.svy = s.svy) (hi : u.chp.insDue = s.chp.insDue)
    (h : s.chp.insDue = some pack) : ChgLogs s (insertLog u) 0x08 [pack] := by
  rw [insertLog_some (hi.trans h)]
  exact logRec_chgLogs _ _ (by simp [hf]) (by simp [hv])

/-! ### The period -/

/-- v in state st at step k. -/
def periodAt (st k : Nat) (v : State) : State := { v with chg := { v.chg with st := st, step := k } }

/-- What a period that starts from v leaves in t. -/
structure PeriodDone (m : ChgMeas) (d : ChgDemand) (on : Nat) (v t : State) : Prop where
  st : t.chg.st = chgNextState v m
  cfg : t.chg.cfg = v.chg.cfg
  rb : t.chg.rb = v.chg.rb
  zoneP : t.chg.zoneP = v.chg.zone
  stepNext : t.chg.stepNext = none
  step : t.chg.step = periodStep (maxInt (cellsOf v m)) (chgNextState v m) v.chg.st v
  mode : t.chg.mode = periodMode m (chgNextState v m) v
  modeNext : t.chg.modeNext = if t.chg.mode = 0 then 0 else stageMode t.chg.mode (stageRatio m v).1 (stageRatio m v).2
  gates : t.chg.gates = startGates (v.chg.rb ≠ 0) t.chg.mode
  onCk : t.chg.onCk = if t.chg.mode = 0 then 0 else (on + v.chg.dith) / 16
  dith : t.chg.dith = if t.chg.mode = 0 then v.chg.dith else (on + v.chg.dith) % 16
  last : t.cht.last = v.cht.last
  target : t.cht.target = (chargeTarget (periodAt t.chg.st t.chg.step v)).2
  binding : t.cht.binding = (bindLoop (periodAt t.chg.st t.chg.step v) m d).1
  demand : t.cht.demand = (bindLoop (periodAt t.chg.st t.chg.step v) m d).2
  nPer : t.cht.nPer = v.cht.nPer + 1
  nIn : t.cht.nIn = v.cht.nIn + b2n (t.chg.mode ≠ 0 && (t.cht.binding = 3 || t.cht.binding = 4))
  nTj : t.cht.nTj = v.cht.nTj + b2n (t.chg.mode ≠ 0 && t.cht.binding = 5)
  ithAll : t.cht.ithAll = (v.cht.ithAll && ((t.chg.st = 4 || t.chg.st = 5)
    && decide (10 * (v.chp.ithlim : Int) < (chargeTarget (periodAt t.chg.st t.chg.step v)).1)))
  chp : t.chp = { v.chp with
    acg := (v.chp.acg || boostNear m v) && t.chg.st ≠ 0, attached := v.chp.attached && t.chg.st ≠ 0, batg := t.chg.st = 0 || !v.chp.isol
    rbLim := if v.chg.rb ≠ 0 then rbLimit v else 0, insDue := none }
  eng : t.eng = v.eng
  dct : t.dct = v.dct
  moved : v.chg.st ≠ t.chg.st → t.chg.cis.testBit 0 = true ∧ (timerStops t.chg.st → t.chg.timer = 0 ∧ t.chg.pre = 0)
  ends : v.chg.inProg = true → inCharge v.chg.st → t.chg.cend = (cendCode v t.chg.st).getD v.chg.cend ∧ t.chg.inProg = (cendCode v t.chg.st).isNone
  starts : v.chg.inProg = false → t.chg.cend = v.chg.cend ∧ (v.chg.st ≠ t.chg.st → t.chg.inProg = decide (t.chg.st = 4 ∨ t.chg.st = 5))
  insertion : ∀ pack, v.chp.insDue = some pack → ChgLogs v t 0x08 [pack]

theorem periodFrom_done (m : ChgMeas) (d : ChgDemand) (on gatesWas : Nat) (v : State) :
    PeriodDone m d on v (periodFrom m d on gatesWas v) := by
  have hwas : (expiryOver (chgNextState v m) v).chg.st = v.chg.st := by rw [expiryOver_eq]
  have hw := chgEnter_entered (chgNextState v m) v
  unfold periodFrom
  dsimp only
  rw [hwas]
  generalize chgEnter (chgNextState v m) (expiryOver (chgNextState v m) v) = w at hw
  obtain ⟨hframe, hmoved, hends, hstarts⟩ := hw
  generalize (decide (chgNextState v m = 5) && _ && _ && _) = handover
  obtain ⟨u, hu⟩ : ∃ u, u = periodLoops m d (chgNextState v m) handover
    (periodStage m (maxInt (cellsOf v m)) on v.chg.st gatesWas (chgNextState v m) w) := ⟨_, rfl⟩
  rw [← hu]
  have hlog : ∀ pack, v.chp.insDue = some pack → ChgLogs v (insertLog u) 0x08 [pack] := by
    refine fun pack => insertLog_logs ?_ ?_ ?_ <;>
      · rw [hu, hframe]
        rfl
  have hcis : w.chg.cis.testBit 0 = true → (insertLog u).chg.cis.testBit 0 = true := fun h => insertLog_cis_zero (by rw [hu]; exact h)
  have ht := insertLog_eq u
  generalize insertLog u = t at ht hcis hlog ⊢
  rw [hu] at ht
  have hst : t.chg.st = chgNextState v m := by rw [ht, hframe]; rfl
  have htimer : t.chg.timer = w.chg.timer ∧ t.chg.pre = w.chg.pre := by rw [ht]; exact ⟨rfl, rfl⟩
  have hend : t.chg.cend = w.chg.cend ∧ t.chg.inProg = w.chg.inProg := by rw [ht]; exact ⟨rfl, rfl⟩
  constructor
  case moved =>
    rw [hst, htimer.1, htimer.2]
    exact fun h => ⟨hcis (by simp [(hmoved h).1]), (hmoved h).2⟩
  case ends =>
    rw [hst, hend.1, hend.2]
    exact hends
  case starts =>
    rw [hst, hend.1, hend.2]
    exact hstarts
  case insertion => exact hlog
  all_goals
    rw [ht, hframe]
    rfl

end Sys2Proof.Machine
end

section
/-! SUPPORT. What a finished period start says of the step, the stage, the loops and the port (04 R146 to R148, R150, R153, R157, R158, R170,
R180). -/

namespace Sys2Proof.Machine

variable {s v t : State} {m : ChgMeas} {d : ChgDemand} {on : Nat}

/-! ### The step (R156, R157) -/

theorem PeriodDone.step_kept (h : PeriodDone m d on v t) (hn : t.chg.st = 5) (h5 : v.chg.st = 5) (hz : v.chg.zoneP = v.chg.zone) :
    t.chg.step = v.chg.stepNext.getD v.chg.step := by
  rw [h.step, ← h.st, hn]
  simp [periodStep, stepSelects, h5, hz]

theorem PeriodDone.step_selected (h : PeriodDone m d on v t) (hn : t.chg.st = 5) (hs : v.chg.st ≠ 5 ∨ v.chg.zoneP ≠ v.chg.zone) :
    t.chg.step < zoneSteps v v.chg.zone ∧ maxInt (cellsOf v m) < veff v v.chg.zone t.chg.step
    ∧ ∀ j, j < t.chg.step → veff v v.chg.zone j ≤ maxInt (cellsOf v m) := by
  obtain ⟨hz, hbelow⟩ := chgNextState_charge (h.st.symm.trans hn)
  obtain ⟨k, hk, hspec⟩ := selectStep_spec hz (hbelow hs)
  have hsel : stepSelects 5 v.chg.st v = true := by simpa [stepSelects] using hs
  have hstep : t.chg.step = k := by
    rw [h.step, ← h.st, hn, periodStep, if_pos hsel, hk]
    rfl
  rwa [hstep]

/-! ### The stage (R146 to R148) -/

theorem periodRuns_iff {st : Nat} : periodRuns st v = true
    ↔ v.clk.prep = false ∧ (st = 3 ∨ (4 ≤ st ∧ st ≤ 0xB) ∨ st = 0xD ∨ (v.chg.rb ≠ 0 ∧ st ≠ 0xC)) := by
  simp only [periodRuns, switching, Bool.and_eq_true, Bool.or_eq_true, decide_eq_true_eq, Bool.not_eq_true', or_assoc, and_comm]

theorem stageRatio_eq (m : ChgMeas) (v : State) :
    stageRatio m v = (if v.chg.rb = 0 then m.vsys else m.vin, if v.chg.rb = 0 then m.vchg else m.vsys) := by
  unfold stageRatio
  by_cases h : v.chg.rb = 0 <;> simp [h]

/-- Where the stage does not run everything of it is off. -/
theorem PeriodDone.stage_off (h : PeriodDone m d on v t) (hr : ¬ periodRuns t.chg.st v = true) :
    t.chg.mode = 0 ∧ t.chg.modeNext = 0 ∧ t.chg.gates = 0 ∧ t.chg.onCk = 0 ∧ t.chg.dith = v.chg.dith := by
  have hm : t.chg.mode = 0 := by
    rw [h.mode, ← h.st, periodMode, if_pos (by simpa using hr)]
  rw [h.modeNext, h.gates, h.onCk, h.dith, hm]
  exact ⟨rfl, rfl, rfl, rfl, rfl⟩

/-- Where it runs, a stage that was idle takes its mode from the ratio, and another the mode that the period before has found. -/
theorem PeriodDone.stage_on (h : PeriodDone m d on v t) (hr : periodRuns t.chg.st v = true) :
    t.chg.mode = if v.chg.mode ≠ 0 then v.chg.modeNext else stageMode 0 (stageRatio m v).1 (stageRatio m v).2 := by
  rw [h.mode, ← h.st, periodMode, if_neg (by simp [hr]), ite_not]

/-- The next mode and the gates of a mode that runs. -/
theorem PeriodDone.stage_next (h : PeriodDone m d on v t) {k : Nat} (hm : t.chg.mode = k) (hk : k ≠ 0) :
    t.chg.modeNext = stageMode k (stageRatio m v).1 (stageRatio m v).2 ∧ t.chg.gates = startGates (v.chg.rb ≠ 0) k := by
  rw [h.modeNext, h.gates, hm, if_neg hk]
  exact ⟨rfl, rfl⟩

/-- The next mode of each mode, and its gates. -/
theorem PeriodDone.buck (h : PeriodDone m d on v t) (hm : t.chg.mode = 1) : t.chg.modeNext = stageMode 1 (stageRatio m v).1 (stageRatio m v).2
    ∧ t.chg.gates = 0b1001 := by
  obtain ⟨hnext, hgates⟩ := h.stage_next hm (by decide)
  refine ⟨hnext, hgates.trans ?_⟩
  by_cases hr : v.chg.rb = 0
  · exact startGates_normal hr (by decide)
  · exact startGates_boost hr (by decide)

theorem PeriodDone.other (h : PeriodDone m d on v t) {k : Nat} (hm : t.chg.mode = k) (hk : k ≠ 0) (h1 : k ≠ 1) :
    t.chg.modeNext = stageMode k (stageRatio m v).1 (stageRatio m v).2 ∧ t.chg.gates = if v.chg.rb = 0 then 0b1010 else 0b0101 := by
  obtain ⟨hnext, hgates⟩ := h.stage_next hm hk
  refine ⟨hnext, hgates.trans ?_⟩
  by_cases hr : v.chg.rb = 0
  · exact (startGates_normal hr hk).trans ((if_neg h1).trans (if_pos hr).symm)
  · exact (startGates_boost hr hk).trans ((if_neg h1).trans (if_neg hr).symm)

/-! ### The state and the loops (R150, R154) -/

theorem PeriodDone.row (h : PeriodDone m d on v t) : (stateRows v m ++ [(true, 0x5)]).find? Prod.fst = some (true, t.chg.st) := by
  rw [find?_pickRow, ← chgNextState_eq, h.st]

theorem PeriodDone.st_le (h : PeriodDone m d on v t) : t.chg.st ≤ 0xD := h.st ▸ chgNextState_le v m

theorem PeriodDone.loop (h : PeriodDone m d on v t) : loopNear (periodAt t.chg.st t.chg.step v) m t.cht.binding
    ∧ t.cht.demand = loopDemand d t.cht.binding ∧ ∀ j, loopNear (periodAt t.chg.st t.chg.step v) m j → t.cht.demand ≤ loopDemand d j := by
  rw [h.binding, h.demand]
  exact bindLoop_spec _ m d

/-! ### The charge current (R150, R158, R170) -/

/-- The charge current of a state in PRECHARGE or CHARGE before ITHLIM. -/
def chargeRaw (s : State) : Int :=
  min (if s.chg.st = 4 then min (10 * (chgLive s 0x1F : Int)) (ichg s s.chg.zone 0) else ichg s s.chg.zone s.chg.step) (10 * s.prt.ceili)

theorem chargeTarget_charging (h : s.chg.st = 4 ∨ s.chg.st = 5) : chargeTarget s = (chargeRaw s, min (chargeRaw s) (10 * s.chp.ithlim)) :=
  if_pos (by simpa using h)

theorem chargeTarget_else (h : ¬ (s.chg.st = 4 ∨ s.chg.st = 5)) : chargeTarget s = (0, 0) := if_neg (by simpa using h)

theorem PeriodDone.target_charging (h : PeriodDone m d on v t) (hc : t.chg.st = 4 ∨ t.chg.st = 5) :
    t.cht.target = min (chargeRaw (periodAt t.chg.st t.chg.step v)) (10 * v.chp.ithlim) :=
  h.target.trans (congrArg Prod.snd (chargeTarget_charging (s := periodAt t.chg.st t.chg.step v) hc))

theorem PeriodDone.target_else (h : PeriodDone m d on v t) (hc : ¬ (t.chg.st = 4 ∨ t.chg.st = 5)) : t.cht.target = 0 :=
  h.target.trans (congrArg Prod.snd (chargeTarget_else (s := periodAt t.chg.st t.chg.step v) hc))

theorem PeriodDone.ithAll_iff (h : PeriodDone m d on v t) : t.cht.ithAll = true
    ↔ v.cht.ithAll = true ∧ (t.chg.st = 4 ∨ t.chg.st = 5) ∧ 10 * (v.chp.ithlim : Int) < chargeRaw (periodAt t.chg.st t.chg.step v) := by
  rw [h.ithAll]
  by_cases hc : t.chg.st = 4 ∨ t.chg.st = 5
  · rw [chargeTarget_charging (s := periodAt t.chg.st t.chg.step v) hc]
    simp [hc]
  · simp [hc]

/-! ### The counts and the port (R151, R153, R179, R180) -/

theorem PeriodDone.nIn_eq (h : PeriodDone m d on v t) :
    t.cht.nIn = v.cht.nIn + if t.chg.mode ≠ 0 ∧ (t.cht.binding = 3 ∨ t.cht.binding = 4) then 1 else 0 := by
  rw [h.nIn]
  simp [b2n]

theorem PeriodDone.nTj_eq (h : PeriodDone m d on v t) : t.cht.nTj = v.cht.nTj + if t.chg.mode ≠ 0 ∧ t.cht.binding = 5 then 1 else 0 := by
  rw [h.nTj]
  simp [b2n]

theorem rbLimit_eq (s : State) : rbLimit s
    = min ((50 * min (chgLive s 0x47) s.prt.ceilrbi : Nat) : Rat) (65000000 / (20 * (chgLive s 0x45 : Rat))) := by
  rw [rbLimit]
  push_cast
  rfl

/-! ### A period that enters a state without switching (R153, R154) -/

theorem periodOpen_eq (m : ChgMeas) (s : State) : periodOpen m s = { s with
    chg := { s.chg with cfg := (chgTakeSet s).chg.cfg }
    chp := { s.chp with mpLive := (s.chp.mpvdn, s.chp.mpdt, s.chp.mpilk), vinOk := periodVinOk m s }
    cht := { s.cht with last := m } } := by
  unfold periodOpen periodView
  rw [chgTakeSet_eq]

theorem periodStart_idle {n : Nat} (hd : domOn s 1 = true) (hs : s.chg.rbStop = 0) (hr : s.chg.rb = 0)
    (hn : chgNextState (periodOpen m s) m = n) (hidle : switching n = false) :
    let t := chgPeriod m d on s
    t.chg.st = n ∧ t.chg.gates = 0 ∧ t.chg.mode = 0 ∧ t.chg.onCk = 0 ∧ t.chp.mpLive = (s.chp.mpvdn, s.chp.mpdt, s.chp.mpilk)
    ∧ t.cht.nPer = s.cht.nPer + 1 ∧ t.cht.last = m ∧ t.eng = s.eng ∧ t.dct = s.dct := by
  have h := periodFrom_done m d on (gatesEnd s) (periodOpen m s)
  rw [← chgPeriod_eq hd ⟨hs, .inl hr⟩] at h
  have hst := h.st.trans hn
  have hoff : ¬ periodRuns (chgPeriod m d on s).chg.st (periodOpen m s) = true := by
    rw [hst, periodOpen_eq]
    simp [periodRuns, hidle, hr]
  obtain ⟨hmode, -, hgates, hon, -⟩ := h.stage_off hoff
  refine ⟨hst, hgates, hmode, hon, ?_, ?_, ?_, ?_, ?_⟩
  · rw [h.chp, periodOpen_eq]
  · rw [h.nPer, periodOpen_eq]
  · rw [h.last, periodOpen_eq]
  · rw [h.eng, periodOpen_eq]
  · rw [h.dct, periodOpen_eq]

end Sys2Proof.Machine
end

section
/-! CERTIFICATE. The switching period, the telemetry interval, the battery temperature and the safety timer (04 R146 to R155, R161, R179, R180,
R182, R183). -/

namespace Sys2Proof.Machine

/-- Settles O47: `PeriodDone` says what a period start leaves, and each clause about it reads one of its fields. -/
theorem chargerPeriods : Obligations.ChargerPeriods := by
  unfold Obligations.ChargerPeriods
  refine fun m d on tel y e en s hd => ⟨?enters, ?period, ?peak, ?peakBoost, ?peakLate, ?peakEnded, ?interval, ?enable, ?tick, ?badCode, ?goodCode⟩
  case enters =>
    intro hr hs
    have hen : (periodOpen m s).chg.en = s.chg.en := by rw [periodOpen_eq]
    have hflt : (periodOpen m s).chg.flt = s.chg.flt := by rw [periodOpen_eq]
    have htrip : (periodOpen m s).tha.chgTrip = s.tha.chgTrip := by rw [periodOpen_eq]
    have hrb : (periodOpen m s).chg.rb = 0 := by rw [periodOpen_eq]; exact hr
    refine ⟨fun he => ⟨_, rfl, periodStart_idle hd hs hr (chgNextState_off (hen.trans he)) rfl⟩,
      fun he hp => ⟨_, rfl, periodStart_idle hd hs hr (chgNextState_protect (hen.trans he) (by rwa [hflt, htrip])) rfl⟩,
      fun he hf ht hi => ⟨_, rfl, periodStart_idle hd hs hr (chgNextState_noinput (hen.trans he) (by rw [hflt, hf]) (htrip.trans ht)
        (by rw [hrb]; decide) ?_) rfl⟩⟩
    rw [periodOpen_eq]
    rcases hi with hi | hi | hi
    · have hlo : ¬ (if s.chp.vinOk = true then 3300 else 3500) ≤ m.vin := by split_ifs <;> omega
      simp [inputValid, periodVinOk, hr, hlo]
    · simp [inputValid, periodVinOk, hr, not_le.mpr hi]
    · simp [inputValid, hi]
  case period =>
    intro hs hr
    obtain ⟨cfg, hcfg⟩ : ∃ cfg, chgTakeSet s = { s with chg := { s.chg with cfg := cfg } } := ⟨_, chgTakeSet_eq s⟩
    have h := periodFrom_done m d on.toNat (gatesEnd s) (periodOpen m s)
    rw [← chgPeriod_eq hd ⟨hs, hr⟩, periodOpen, periodView, periodVinOk, hcfg] at h
    rw [hcfg]
    intro u0 vin u z hc lc again pre hold rows lt goal
    refine ⟨chgPeriod m d on.toNat s, rfl, ?_⟩
    generalize chgPeriod m d on.toNat s = t at h
    intro n k a b runs charging raw ct dem near
    refine ⟨?row, h.cfg, h.rb, h.zoneP, h.stepNext, h.step_kept, h.step_selected, ?off, ?on, ?buck, ?buckBoost, ?boost, ?onTime, ?target, ?noTarget,
      ?near, ?demand, ?least, h.nPer, ?nIn, ?nTj, ?ithAll, ?batg, ?attached, ?acg, ?rbLim, ?moved, ?ends, ?starts, ?due, ?logs⟩
    case row => exact h.row
    case off => exact fun hn => h.stage_off (mt periodRuns_iff.mp hn)
    case on =>
      intro hn
      have hmode := h.stage_on (periodRuns_iff.mpr hn)
      rwa [stageRatio_eq, stageMode_other (by decide) (by decide)] at hmode
    case buck =>
      intro hm
      obtain ⟨hnext, hgates⟩ := h.buck hm
      rw [stageRatio_eq, stageMode_buck] at hnext
      exact ⟨hnext, hgates⟩
    case buckBoost =>
      intro hm
      obtain ⟨hnext, hgates⟩ := h.other hm (by decide) (by decide)
      rw [stageRatio_eq, stageMode_other (by decide) (by decide)] at hnext
      exact ⟨hnext, hgates⟩
    case boost =>
      intro hm
      obtain ⟨hnext, hgates⟩ := h.other hm (by decide) (by decide)
      rw [stageRatio_eq, stageMode_boost] at hnext
      exact ⟨hnext, hgates⟩
    case onTime => exact fun hm => ⟨h.onCk.trans (if_neg hm), h.dith.trans (if_neg hm)⟩
    case target => exact h.target_charging
    case noTarget => exact h.target_else
    case near => exact h.loop.1
    case demand => exact h.loop.2.1
    case least => exact fun j _ => h.loop.2.2 j
    case nIn => exact h.nIn_eq
    case nTj => exact h.nTj_eq
    case ithAll => exact h.ithAll_iff
    case batg => exact congrArg ChgPort.batg h.chp
    case attached => exact congrArg ChgPort.attached h.chp
    case acg => exact congrArg ChgPort.acg h.chp
    case rbLim => exact fun hb => (congrArg ChgPort.rbLim h.chp).trans ((if_pos hb).trans (rbLimit_eq _))
    case moved => exact fun hn => h.moved hn.symm
    case ends =>
      intro hp hlo hhi
      obtain ⟨hcend, hprog⟩ := h.ends hp ⟨hlo, hhi⟩
      exact ⟨hprog.trans (cendCode_isNone h.st_le _), hcend.trans (cendCode_getD h.st_le _ _)⟩
    case starts =>
      intro hp
      obtain ⟨hcend, hprog⟩ := h.starts hp
      exact ⟨hcend, fun hn => hprog hn.symm⟩
    case due => exact congrArg ChgPort.insDue h.chp
    case logs => exact h.insertion
  case peak =>
    intro hm hr hg
    have hx := chgPeak_runs hd hm (hg.trans (startGates_normal hr hm).symm)
    rw [endGates_normal hr hm] at hx
    exact congrArg Host.Outcome.next hx
  case peakBoost =>
    intro hm hr hg
    have hx := chgPeak_runs hd hm (hg.trans (startGates_boost hr hm).symm)
    rw [endGates_boost hr hm] at hx
    exact congrArg Host.Outcome.next hx
  case peakLate => exact fun h => congrArg Host.Outcome.next (chgPeak_none hd h)
  case peakEnded => exact congrArg Host.Outcome.next (chgPeak_ended hd)
  case interval =>
    have h := chgInterval_leaves (t := tel) hd
    have hrb := chgInterval_rbTgt (s := s) (t := tel) hd
    refine ⟨chgInterval tel s, rfl, ?_⟩
    generalize chgInterval tel s = t at h hrb
    refine ⟨?rcq, ?inreg, ?_, ?_, ?_, ?_, ?_, ?_, ?_, ?_, ?_, ?_, ?threg, ?stepNext, hrb⟩
    case rcq =>
      rw [h]
      exact clampI_zero (by positivity)
    case inreg =>
      rw [h]
      exact decide_eq_true_iff
    case threg =>
      rw [h]
      simp [intervalCounted]
    case stepNext =>
      rw [h]
      simp [intervalCounted, and_assoc]
    all_goals
      rw [h]
      rfl
  case enable =>
    intro h
    exact congrArg Host.Outcome.next ((engWrite_cctl h (by cases en <;> decide)).trans (chgCctl_en en s))
  case tick =>
    refine ⟨_, congrArg Host.Outcome.next (chgTick_eq hd), rfl, rfl, rfl, rfl, rfl⟩
  case badCode => exact fun h => congrArg Host.Outcome.next (chgTbat_code hd h)
  case goodCode => exact fun hlo hhi htlo hthi => congrArg Host.Outcome.next (chgTbat_valid hd hlo hhi htlo hthi)

end Sys2Proof.Machine
end

section
/-! SUPPORT. What the sequencer's operations leave of the state (05 R224, R227; 14 R450): a quiet change writes SEQ, hints and kept wake
events alone, and an action enters one record of SEQ besides. -/

namespace Sys2Proof.Machine

variable {r s t u : State} {q q' : Seq} {typ typ' : Nat} {pay pay' : List Nat}

/-! ### The frame -/

/-- From s to t only SEQ, the Field Book, the Survey, the ports and the wake events that DCT keeps change. -/
def SeqOnly (s t : State) : Prop :=
  t = { s with seq := t.seq, hp := t.hp, fbk := t.fbk, svy := t.svy, dct := { s.dct with wakes := t.dct.wakes } }

theorem SeqOnly.trans (h : SeqOnly r s) (k : SeqOnly s t) : SeqOnly r t :=
  Eq.trans k (congrArg (fun x : State => { x with
    seq := t.seq, hp := t.hp, fbk := t.fbk, svy := t.svy, dct := { x.dct with wakes := t.dct.wakes } }) (h : s = _))

theorem OnlyBook.seqOnly (h : OnlyBook s t) : SeqOnly s t := by
  rw [OnlyBook] at h
  rw [h]
  rfl

theorem SeqOnly.domOn (h : SeqOnly s t) (d : Nat) : domOn t d = domOn s d := by
  rw [SeqOnly] at h
  rw [h]
  rfl

/-! ### Quiet changes -/

/-- From s to t SEQ becomes q, and nothing but hints and kept wake events changes besides. -/
structure SeqQuiet (s t : State) (q : Seq) : Prop where
  seq : t.seq = q
  fbk : t.fbk = s.fbk
  svy : t.svy = s.svy
  rest : SeqOnly s t

theorem SeqQuiet.refl (s : State) : SeqQuiet s s s.seq := ⟨rfl, rfl, rfl, rfl⟩

theorem SeqQuiet.upd (s : State) (q : Seq) : SeqQuiet s { s with seq := q } q := ⟨rfl, rfl, rfl, rfl⟩

theorem SeqQuiet.trans (h : SeqQuiet r s q) (k : SeqQuiet s t q') : SeqQuiet r t q' :=
  ⟨k.seq, k.fbk.trans h.fbk, k.svy.trans h.svy, h.rest.trans k.rest⟩

theorem SeqQuiet.setHint (h : SeqQuiet s t q) (n : Nat) : SeqQuiet s (setHint n t) q := by
  refine h.trans ⟨?_, ?_, ?_, ?_⟩ <;> rw [setHint_eq]
  · exact h.seq
  · rfl

theorem SeqQuiet.raiseWake (h : SeqQuiet s t q) (c : Nat) : SeqQuiet s (raiseWake c t) q := by
  refine h.trans ⟨?_, ?_, ?_, ?_⟩ <;> rw [raiseWake_eq]
  · exact h.seq
  · rfl

theorem bufFree_quiet (p : Port) (s : State) : SeqQuiet s (bufFree p s) s.seq := ⟨rfl, rfl, rfl, rfl⟩

/-! ### Actions -/

/-- From s to t a record of SEQ enters the Field Book, where nothing is discarded and no class is selected for a snapshot. -/
def SeqLogs (s t : State) (typ : Nat) (pay : List Nat) : Prop := s.fbk.ring.length < 256 → s.fbk.drops = 0 → s.svy.svfsel = 0 →
  ∃ r : FbRec, t.fbk.ring = s.fbk.ring ++ [{ r := r, written := false }] ∧ r.src = 7 ∧ r.typ = typ ∧ r.p = pay

/-- From s to t SEQ becomes q and one record enters; a second one finds the Field Book as the first did. -/
structure SeqActs (s t : State) (q : Seq) (typ : Nat) (pay : List Nat) : Prop where
  seq : t.seq = q
  logs : SeqLogs s t typ pay
  rest : SeqOnly s t
  room : s.fbk.ring.length < 256 → s.fbk.drops = 0 → s.svy.svfsel = 0 → t.fbk.drops = 0 ∧ t.svy.svfsel = 0

@[simp] theorem logRec_seq (src typ : Nat) (p : List Nat) (s : State) : (logRec src typ p s).seq = s.seq := by rw [logRec_eq]

/-- With room in the ring and no class selected for a snapshot a record does nothing but enter. -/
theorem logRec_enters (src typ : Nat) (p : List Nat) (hr : s.fbk.ring.length < 256) (hd : s.fbk.drops = 0) (hv : s.svy.svfsel = 0) :
    logRec src typ p s = enterRec src typ p s := by
  have hp : pushRec src typ p s = enterRec src typ p s := by simp [pushRec, fbOverflow_none hd, ringFree, hr]
  simp only [logRec, hp, hv, Nat.zero_testBit]
  split <;> rfl

/-- After a quiet change a record is an action. -/
theorem SeqQuiet.logRec (h : SeqQuiet s u q) (typ : Nat) (pay : List Nat) : SeqActs s (logRec 7 typ pay u) q typ pay where
  seq := (logRec_seq ..).trans h.seq
  logs := by
    rw [SeqLogs, ← h.fbk, ← h.svy]
    exact logRec_ring 7 typ pay
  rest := h.rest.trans (logRec_onlyBook ..).seqOnly
  room := by
    rw [← h.fbk, ← h.svy]
    intro hr hd hv
    rw [logRec_enters _ _ _ hr hd hv, enterRec, setHint_eq]
    exact ⟨hd, hv⟩

theorem SeqQuiet.acts (h : SeqQuiet s u q) (k : SeqActs u t q' typ pay) : SeqActs s t q' typ pay where
  seq := k.seq
  logs := by
    rw [SeqLogs, ← h.fbk, ← h.svy]
    exact k.logs
  rest := h.rest.trans k.rest
  room := by
    rw [← h.fbk, ← h.svy]
    exact k.room

theorem SeqActs.quiet (h : SeqActs s u q typ pay) (k : SeqQuiet u t q') : SeqActs s t q' typ pay where
  seq := k.seq
  logs := by
    rw [SeqLogs, k.fbk]
    exact h.logs
  rest := h.rest.trans k.rest
  room := by
    rw [k.fbk, k.svy]
    exact h.room

theorem SeqActs.upd (h : SeqActs s u q typ pay) (f : Seq → Seq) : SeqActs s { u with seq := f u.seq } (f q) typ pay := by
  rw [← h.seq]
  exact h.quiet (.upd u _)

/-- From s to t two records of SEQ enter the Field Book, where nothing is discarded and no class is selected for a snapshot. -/
def SeqLogsTwo (s t : State) (typ : Nat) (pay : List Nat) (typ' : Nat) (pay' : List Nat) : Prop :=
  s.fbk.ring.length < 255 → s.fbk.drops = 0 → s.svy.svfsel = 0 →
  ∃ r1 r2 : FbRec, t.fbk.ring = s.fbk.ring ++ [{ r := r1, written := false }, { r := r2, written := false }]
    ∧ r1.src = 7 ∧ r1.typ = typ ∧ r1.p = pay ∧ r2.src = 7 ∧ r2.typ = typ' ∧ r2.p = pay'

/-- One action after another. -/
theorem SeqActs.logsTwo (h : SeqActs s u q typ pay) (k : SeqActs u t q' typ' pay') : SeqLogsTwo s t typ pay typ' pay' := by
  intro hr hd hv
  obtain ⟨r1, hring, h1⟩ := h.logs (by omega) hd hv
  obtain ⟨hd', hv'⟩ := h.room (by omega) hd hv
  have hlen : u.fbk.ring.length < 256 := by rw [hring, List.length_append, List.length_singleton]; omega
  obtain ⟨r2, hring', h2⟩ := k.logs hlen hd' hv'
  refine ⟨r1, r2, ?_, h1.1, h1.2.1, h1.2.2, h2⟩
  rw [hring', hring, List.append_assoc]
  rfl

end Sys2Proof.Machine
end

section
/-! SUPPORT. Platform requests (05 R205, R213 to R215): what a request does in each kind of traverse, and the refusals of SCTL.EN = 0. -/

namespace Sys2Proof.Machine

variable {s t u : State} {q : Seq} {r : SeqReq} {n : Nat}

/-! ### The live set -/

theorem seqLive_congr (h : t.seq.cfg = s.seq.cfg) : seqLive t = seqLive s := by
  funext k
  rw [seqLive, seqLive, h]

theorem findTraverse_congr (h : t.seq.cfg = s.seq.cfg) (c g : Nat) : findTraverse t c g = findTraverse s c g := by
  rw [findTraverse, findTraverse, seqLive_congr h]

theorem SeqActs.live {typ : Nat} {pay : List Nat} (h : SeqActs s t q typ pay) (hc : q.cfg = s.seq.cfg) : seqLive t = seqLive s :=
  seqLive_congr (h.seq ▸ hc)

theorem SeqQuiet.live (h : SeqQuiet s t q) (hc : q.cfg = s.seq.cfg) : seqLive t = seqLive s := seqLive_congr (h.seq ▸ hc)

/-! ### A request while nothing runs (R205) -/

/-- SEQ after the start of ordinary traverse n. -/
def seqStarted (n : Nat) (q : Seq) : Seq := { q with
  kind := .ordinary, trv := n, step := 0, waiting := false, pastcmt := false, undo := [], pend := none, sis := q.sis ||| 0x02 }

/-- SEQ after a refusal. -/
def seqRefused (q : Seq) : Seq := { q with sflt := q.sflt ||| 0x04, sis := q.sis ||| 0x08 }

theorem seqRefuse_acts (r : SeqReq) (s : State) : SeqActs s (seqRefuse r s) (seqRefused s.seq) 7 [r.src, r.tgt, s.seq.cur] :=
  (SeqQuiet.upd s _).logRec 7 _

theorem seqStart_same (h : r.tgt = s.seq.cur) : seqStart r s = s := if_pos h

theorem seqStart_refuses (h : r.tgt ≠ s.seq.cur) (hn : s.seq.en = false ∨ findTraverse s s.seq.cur r.tgt = none) :
    seqStart r s = seqRefuse r s := by
  rw [seqStart, if_neg h]
  rcases hn with hn | hn
  · rw [hn]
    rfl
  · rw [hn]
    exact ite_self _

theorem seqStart_acts (h : r.tgt ≠ s.seq.cur) (he : s.seq.en = true) (hf : findTraverse s s.seq.cur r.tgt = some n) :
    SeqActs s (seqStart r s) (seqStarted n s.seq) 1 [n, r.src, r.tgt] := by
  rw [seqStart, if_neg h, he, hf]
  exact (SeqQuiet.upd s _).logRec 1 _

/-! ### Refusals (R205) -/

/-- Every request that SEQ refuses does the same. -/
theorem seqRequest_refuses (h : seqRefuses r s = true) : seqRequest r s = seqRefuse r s := by
  unfold seqRefuses at h
  unfold seqRequest
  cases hk : s.seq.kind
  case idle =>
    simp only [hk, Bool.and_eq_true, decide_eq_true_eq, Bool.or_eq_true, Bool.not_eq_true', Option.isNone_iff_eq_none] at h ⊢
    obtain ⟨hd, hg, hn⟩ := h
    rw [hd]
    exact seqStart_refuses hg hn
  all_goals
    simp only [hk, Bool.and_eq_true, decide_eq_true_eq, Bool.not_eq_true'] at h ⊢
    obtain ⟨hd, he, hg⟩ := h
    simp [hd, he, hg]

section
variable (hd : domOn s 2 = true)
include hd

theorem seqRefuses_idle (hk : s.seq.kind = .idle) (hg : r.tgt ≠ s.seq.cur)
    (hn : s.seq.en = false ∨ findTraverse s s.seq.cur r.tgt = none) : seqRefuses r s = true := by
  simp only [seqRefuses, hk, hd]
  rcases hn with hn | hn <;> simp [hg, hn]

theorem seqRefuses_runs (hk : s.seq.kind = .ordinary ∨ s.seq.kind = .fault) (hg : r.tgt ≠ thTo (seqLive s) s.seq.trv)
    (he : s.seq.en = false) : seqRefuses r s = true := by
  rcases hk with hk | hk <;> simp [seqRefuses, hk, hd, he, hg]

theorem seqRefuses_unwind (hk : s.seq.kind = .unwind) (hg : s.seq.pend.map SeqReq.tgt ≠ some r.tgt) (he : s.seq.en = false) :
    seqRefuses r s = true := by
  simp only [seqRefuses, hk, hd, he]
  simpa using hg

end

theorem seqRefuses_idle_not (hk : s.seq.kind = .idle)
    (h : r.tgt = s.seq.cur ∨ s.seq.en = true ∧ findTraverse s s.seq.cur r.tgt = some n) : seqRefuses r s = false := by
  rcases h with h | ⟨he, hf⟩
  · simp [seqRefuses, hk, h]
  · simp [seqRefuses, hk, he, hf]

theorem seqRefuses_enabled (hk : s.seq.kind ≠ .idle) (he : s.seq.en = true) : seqRefuses r s = false := by
  cases h : s.seq.kind <;> simp_all [seqRefuses]

theorem seqRefuses_goal (hk : s.seq.kind = .ordinary ∨ s.seq.kind = .fault) (hg : r.tgt = thTo (seqLive s) s.seq.trv) :
    seqRefuses r s = false := by
  rcases hk with hk | hk <;> simp [seqRefuses, hk, hg]

theorem seqRefuses_pending (hk : s.seq.kind = .unwind) (hg : s.seq.pend.map SeqReq.tgt = some r.tgt) : seqRefuses r s = false := by
  simp [seqRefuses, hk, hg]

/-! ### Requests that are not refused (R205, R213, R214) -/

section
variable (hd : domOn s 2 = true)
include hd

theorem seqRequest_idle (hk : s.seq.kind = .idle) : seqRequest r s = seqStart r s := by simp only [seqRequest, hd, hk]; rfl

theorem seqRequest_unwinds (hk : s.seq.kind = .ordinary) (hp : s.seq.pastcmt = false) (hg : r.tgt ≠ thTo (seqLive s) s.seq.trv)
    (he : s.seq.en = true) : SeqActs s (seqRequest r s) { s.seq with kind := .unwind, waiting := false, pend := some r } 3
      [s.seq.trv, s.seq.step, r.src, r.tgt] := by
  have h : seqRequest r s = seqUnwind r s := by simp [seqRequest, hd, hk, hp, hg, he]
  rw [h]
  exact (SeqQuiet.upd s _).logRec 3 _

theorem seqRequest_ignored (hk : s.seq.kind = .ordinary) (hp : s.seq.pastcmt = false) (hg : r.tgt = thTo (seqLive s) s.seq.trv) :
    seqRequest r s = s := by simp [seqRequest, hd, hk, hp, hg]

/-- A request is queued: past the commit step, or in a fault traverse (R214). -/
theorem seqRequest_queued (hk : s.seq.kind = .fault ∨ s.seq.kind = .ordinary ∧ s.seq.pastcmt = true)
    (hg : r.tgt ≠ thTo (seqLive s) s.seq.trv) (he : s.seq.en = true) : seqRequest r s = { s with seq := { s.seq with queue := some r } } := by
  rcases hk with hk | ⟨hk, hp⟩
  · simp [seqRequest, hd, hk, hg, he]
  · simp [seqRequest, hd, hk, hp, hg, he]

theorem seqRequest_empties (hk : s.seq.kind = .fault ∨ s.seq.kind = .ordinary ∧ s.seq.pastcmt = true)
    (hg : r.tgt = thTo (seqLive s) s.seq.trv) : seqRequest r s = { s with seq := { s.seq with queue := none } } := by
  rcases hk with hk | ⟨hk, hp⟩
  · simp [seqRequest, hd, hk, hg]
  · simp [seqRequest, hd, hk, hp, hg]

theorem seqRequest_pends (hk : s.seq.kind = .unwind) (he : s.seq.en = true) :
    seqRequest r s = { s with seq := { s.seq with pend := some r } } := by simp [seqRequest, hd, hk, he]

theorem seqRequest_pending (hk : s.seq.kind = .unwind) (he : s.seq.en = false) (hg : s.seq.pend.map SeqReq.tgt = some r.tgt) :
    seqRequest r s = s := by simp [seqRequest, hd, hk, he, hg]

end

/-! ### A request and a newer one on its edge (R215) -/

theorem seqAsk_newer_none (h : seqRefuses r s = false) : seqAsk true r s = s := by
  rw [seqAsk, h]
  rfl

theorem seqAsk_newer_refused (h : seqRefuses r s = true) : SeqActs s (seqAsk true r s) s.seq 7 [r.src, r.tgt, s.seq.cur] := by
  rw [seqAsk, h]
  exact (SeqQuiet.refl s).logRec 7 _

/-- A request of an idle sequencer after a quiet change starts its traverse, or leaves no trace where it is the older one. -/
theorem seqAsk_idle_starts (h : SeqQuiet s u q) (hd : domOn s 2 = true) (hk : q.kind = .idle) (hc : q.cfg = s.seq.cfg) (hg : r.tgt ≠ q.cur)
    (he : q.en = true) (hf : findTraverse s q.cur r.tgt = some n) :
    seqAsk true r u = u ∧ SeqActs s (seqAsk false r u) (seqStarted n q) 1 [n, r.src, r.tgt] := by
  have hf' : findTraverse u u.seq.cur r.tgt = some n := by rw [h.seq, findTraverse_congr (h.seq ▸ hc), hf]
  obtain rfl := h.seq
  have hrun : seqAsk false r u = seqStart r u := seqRequest_idle ((h.rest.domOn 2).trans hd) hk
  rw [hrun]
  exact ⟨seqAsk_newer_none (seqRefuses_idle_not hk (.inr ⟨he, hf'⟩)), h.acts (seqStart_acts hg he hf')⟩

end Sys2Proof.Machine
end

section
/-! SUPPORT. Where platform requests come from (05 R205, R216 to R220): a master's write, the button, the lid and the wake inputs. -/

namespace Sys2Proof.Machine

variable {s u : State} {q : Seq} {r : SeqReq} {n : Nat} {tgt : BitVec 4} {src : PlatSrc}

/-! ### Masters (R205, R216) -/

/-- The source code of a request (R216). -/
def platCode (src : PlatSrc) : Nat :=
  match src with
  | .mst (.ce e) => e.val
  | .mst (.hp p _) => 6 + p.val
  | .wake => 8
  | .lid => 9
  | .press => 0xA
  | .long => 0xB
  | .key => 0xD

/-- A master that requests passes the checks of its access to SREQ or PLATREQ. -/
def platMay (src : PlatSrc) (s : State) : Prop :=
  match src with
  | .mst (.ce e) => EngMay s e 0x1007 true
  | .mst (.hp p priv) => PortMay s p priv 0x19 true
  | _ => True

/-- The state in which a request reaches SEQ: that of a port has left the port's write buffer. -/
def platFrom (src : PlatSrc) (s : State) : State :=
  match src with
  | .mst (.hp p _) => bufFree p s
  | _ => s

theorem platFrom_quiet (src : PlatSrc) (s : State) : SeqQuiet s (platFrom src s) s.seq := by
  rcases src with (e | ⟨p, priv⟩) | _ | _ | _ | _ | _
  case mst.hp => exact bufFree_quiet p s
  all_goals exact .refl s

/-- A request leaves the staged fields and BSTAT alone. -/
theorem seqRequest_cfg (r : SeqReq) (s : State) : (seqRequest r s).seq.cfg = s.seq.cfg := by
  have hstart : (seqStart r s).seq.cfg = s.seq.cfg := by
    unfold seqStart seqRefuse
    split
    · rfl
    split
    · simp
    split <;> simp
  unfold seqRequest seqRefuse seqUnwind
  dsimp only
  split
  · rfl
  split
  · exact hstart
  all_goals split_ifs <;> simp

theorem seqWrite_sreq (code : Nat) (hc : seqCode tgt.toNat = true) : seqWrite code 0x07 tgt.toNat s = seqRequest ⟨tgt.toNat, code⟩ s := by
  have ht : tgt.toNat % 16 = tgt.toNat := Nat.mod_eq_of_lt tgt.isLt
  simp [seqWrite, ht, hc]

theorem engWrite_sreq {e : Eng} (h : EngMay s e 0x1007 true) (hc : seqCode tgt.toNat = true) :
    engWrite e 0x1007 1 tgt.toNat s = seqRequest ⟨tgt.toNat, e.val⟩ s := by
  have ht : tgt.toNat % 256 = tgt.toNat := Nat.mod_eq_of_lt (by omega)
  rw [engWrite_byte (b := 0x1000) (r := 5) h rfl rfl rfl, ht, ← seqWrite_sreq e.val hc]
  rfl

theorem hostWrite_platreq {p : Port} {priv : Bool} (h : PortMay s p priv 0x19 true) (hc : seqCode tgt.toNat = true) :
    hostWrite p priv 0x19 tgt.toNat s = seqRequest ⟨tgt.toNat, 6 + p.val⟩ (bufFree p s) := by
  have ht : tgt.toNat % 16 = tgt.toNat := Nat.mod_eq_of_lt tgt.isLt
  refine hostWrite_ok h ?_
  change blkPut .seq (seqWrite (6 + p.val) 0x07 (tgt.toNat % 16)) (bufFree p s) = _
  have herr : ∀ t : State, (stgOf .seq (seqRequest ⟨tgt.toNat, 6 + p.val⟩ (putStg .seq { stgOf .seq t with err := false } t))).err = false :=
    fun t => congrArg Stg.err (seqRequest_cfg _ _)
  simp [blkPut, ht, seqWrite_sreq _ hc, herr]

/-- An access of an engine that passes its checks does what it is for. -/
theorem engAct_eq {e : Eng} {a v : Nat} (f : State → State) (h : EngMay s e a true) (hw : writeRefused s (.ce e) e a v = false) :
    engAct e a v f s = f s := by
  obtain ⟨hrun, hden, hoff, hbad, hgov⟩ := h
  simp only [engAct, hrun, govPast_none hgov, engTry, hden, hoff, hw]
  exact afterKick_none hbad

/-- A request that passes the checks of its access is asked of SEQ. -/
theorem platAsk_eq (newer : Bool) (hm : platMay src s) (hc : seqCode tgt.toNat = true) :
    platAsk src tgt.toNat newer s = seqAsk newer ⟨tgt.toNat, platCode src⟩ (platFrom src s) := by
  rcases src with (e | ⟨p, priv⟩) | _ | _ | _ | _ | _
  case mst.ce =>
    cases newer
    · exact engWrite_sreq hm hc
    · simp only [platAsk, hc, mstAct]
      exact engAct_eq _ hm rfl
  case mst.hp =>
    cases newer
    · exact hostWrite_platreq hm hc
    · simp only [platAsk, hc, mstAct]
      exact hostTry_ok (f := fun s => (seqAsk true ⟨tgt.toNat, 6 + p.val⟩ s, 0)) hm rfl
  all_goals rfl

/-! ### The button (R217, R218) -/

/-- SEQ after a press decision, before its request. -/
def seqPressed (q : Seq) : Seq := { q with pressed := true, longDone := false, hardDone := false, sis := q.sis ||| 0x10 }

/-- A press decision without its request. -/
def pressDecided (s : State) : State := raiseWake 7 (setHint 6 { s with seq := seqPressed s.seq })

theorem pressDecided_quiet (s : State) : SeqQuiet s (pressDecided s) (seqPressed s.seq) := ((SeqQuiet.upd s _).setHint 6).raiseWake 7

/-- A press decision with PBWAKE = 1 is a request for S0 (R217). -/
def pressWakes (s : State) : Bool :=
  let low (c : Nat) : Bool := c = 3 || c = 4 || c = 5
  match s.seq.kind with
  | .idle => low s.seq.cur
  | .unwind => low s.seq.cur
  | _ => low (thTo (seqLive s) s.seq.trv)

section
variable (newer : Bool) (hd : domOn s 2 = true) (hp : s.seq.pressed = false)
include hd hp

theorem seqPress_eq : seqPress newer s = if (seqLive s 0x30).testBit 3 && pressWakes (pressDecided s)
    then seqAsk newer ⟨0, 0xA⟩ (pressDecided s) else pressDecided s := by
  rw [← (pressDecided_quiet s).live rfl]
  exact if_neg (by simp [hd, hp])

/-- With PBWAKE = 0 a press is only reported. -/
theorem seqPress_reports (hb : (seqLive s 0x30).testBit 3 = false) : seqPress newer s = pressDecided s := by
  rw [seqPress_eq newer hd hp, hb]
  rfl

/-- With PBWAKE = 1 a press is a short-press request for S0 of an idle sequencer in S3, S4 or S5. -/
theorem seqPress_asks (hb : (seqLive s 0x30).testBit 3 = true) (hk : s.seq.kind = .idle) (hc : s.seq.cur = 3 ∨ s.seq.cur = 4 ∨ s.seq.cur = 5) :
    seqPress newer s = seqAsk newer ⟨0, 0xA⟩ (pressDecided s) := by
  rw [seqPress_eq newer hd hp, hb]
  refine if_pos ?_
  simp only [pressWakes, (pressDecided_quiet s).seq, seqPressed, hk]
  simpa [or_assoc] using hc

end

theorem seqLong_asks (hd : domOn s 2 = true) (hp : s.seq.pressed = true) (hl : s.seq.longDone = false)
    (hb : (seqLive s 0x30).testBit 4 = true) : seqLong s = seqAsk false ⟨5, 0xB⟩ { s with seq := { s.seq with longDone := true } } :=
  if_pos (by simp [hd, hp, hl, hb])

theorem seqLong_again (hl : s.seq.longDone = true) : seqLong s = s := if_neg (by simp [hl])

/-! ### The lid (R219) -/

/-- The level that the lid decision is about: open where LIDPOL names it. -/
def lidLevel (s : State) (high : Bool) : Bool := s.gpio.vios && (high != (seqLive s 0x31).testBit 1)

/-- SEQ after a lid decision, before its request. -/
def seqLidded (isOpen : Bool) (q : Seq) : Seq := { q with lidOpen := isOpen, sis := q.sis ||| 0x20 }

/-- A lid decision without its request. -/
def lidDecided (isOpen : Bool) (s : State) : State :=
  let s0 := setHint 6 { s with seq := seqLidded isOpen s.seq }
  if isOpen then raiseWake 8 s0 else s0

theorem lidDecided_quiet (isOpen : Bool) (s : State) : SeqQuiet s (lidDecided isOpen s) (seqLidded isOpen s.seq) := by
  have h : SeqQuiet s (setHint 6 { s with seq := seqLidded isOpen s.seq }) (seqLidded isOpen s.seq) := (SeqQuiet.upd s _).setHint 6
  cases isOpen
  · exact h
  · exact h.raiseWake 8

section
variable {high : Bool} (newer : Bool) (hd : domOn s 2 = true) (hn : lidLevel s high ≠ s.seq.lidOpen)
include hd hn

theorem seqLid_eq : seqLid high newer s = if lidLevel s high && (seqLive s 0x31).testBit 0 && s.seq.cur = 3 && s.seq.kind = .idle
    then seqAsk newer ⟨0, 9⟩ (lidDecided (lidLevel s high) s) else lidDecided (lidLevel s high) s := by
  have hq := lidDecided_quiet (lidLevel s high) s
  have hc : (lidDecided (lidLevel s high) s).seq.cur = s.seq.cur := by rw [hq.seq]; rfl
  have hk : (lidDecided (lidLevel s high) s).seq.kind = s.seq.kind := by rw [hq.seq]; rfl
  rw [← hq.live rfl, ← hc, ← hk]
  have hcond : ¬ (!domOn s 2 || decide (lidLevel s high = s.seq.lidOpen)) = true := by simp [hd, hn]
  exact if_neg hcond

/-- A lid decision is a request where it opens the lid, LIDWAKE is 1 and an idle sequencer is in S3. -/
theorem seqLid_asks (ho : lidLevel s high = true) (hb : (seqLive s 0x31).testBit 0 = true) (hc : s.seq.cur = 3) (hk : s.seq.kind = .idle) :
    seqLid high newer s = seqAsk newer ⟨0, 9⟩ (lidDecided true s) := by
  rw [seqLid_eq newer hd hn, ho]
  exact if_pos (by simp [hb, hc, hk])

theorem seqLid_reports (h : lidLevel s high = false ∨ (seqLive s 0x31).testBit 0 = false ∨ s.seq.cur ≠ 3 ∨ s.seq.kind ≠ .idle) :
    seqLid high newer s = lidDecided (lidLevel s high) s := by
  rw [seqLid_eq newer hd hn]
  refine if_neg ?_
  rcases h with h | h | h | h <;> simp [h]

end

theorem seqLid_same {high newer : Bool} (h : lidLevel s high = s.seq.lidOpen) : seqLid high newer s = s :=
  if_pos (by rw [Bool.or_eq_true]; exact .inr (decide_eq_true h))

/-! ### The wake inputs (R220) -/

/-- SEQ with WAKEi at a level. -/
def seqWk (i : Fin 4) (high : Bool) (q : Seq) : Seq :=
  { q with wk := if high then q.wk ||| (1#4 <<< i.val) else q.wk &&& ~~~(1#4 <<< i.val) }

/-- SEQ after the decision of a wake input, before its request. -/
def seqWoken (i : Fin 4) (high : Bool) (q : Seq) : Seq := { seqWk i high q with sis := q.sis ||| 0x40 }

/-- The decision of a wake input without its request. -/
def wakeDecided (i : Fin 4) (high : Bool) (s : State) : State := raiseWake 6 { s with seq := seqWoken i high s.seq }

variable {i : Fin 4} {high newer : Bool}

theorem wakeDecided_quiet : SeqQuiet s (wakeDecided i high s) (seqWoken i high s.seq) := (SeqQuiet.upd s _).raiseWake 6

/-- WAKEi first shows its wake level. -/
def wakeFirst (s : State) (i : Fin 4) (high : Bool) : Prop := wakeShown s i high = true ∧ wakeShown s i (s.seq.wk.getLsbD i.val) = false

/-- The decision of WAKEi is a request for S0. -/
def wakeAsks (s : State) (i : Fin 4) : Prop := s.seq.kind = .idle
  ∧ ((seqLive s 0x32).testBit i.val = true ∧ s.seq.cur = 3 ∨ (seqLive s 0x32).testBit (4 + i.val) = true ∧ (s.seq.cur = 4 ∨ s.seq.cur = 5))

theorem seqWake_unpowered (hv : s.gpio.vios = false) : seqWake i high newer s = s := if_pos (by simp [hv])

/-- A level that is no decision, or that comes while D2 is off (log entry 4), is followed alone. -/
theorem seqWake_follows (hv : s.gpio.vios = true) (h : domOn s 2 = false ∨ ¬ wakeFirst s i high) :
    seqWake i high newer s = { s with seq := seqWk i high s.seq } := by
  refine (if_neg (by simp [hv])).trans (if_pos ?_)
  rcases h with h | h
  · simp [h]
  · cases ha : wakeShown s i high
    · rw [Bool.not_false, Bool.or_true, Bool.true_or]
    · have hb : wakeShown s i (s.seq.wk.getLsbD i.val) = true := (Bool.not_eq_false _).mp (fun hb => h ⟨ha, hb⟩)
      rw [hb, Bool.or_true]

section
variable (hd : domOn s 2 = true) (hv : s.gpio.vios = true) (hf : wakeFirst s i high)
include hd hv hf

theorem seqWake_eq : seqWake i high newer s = if s.seq.kind = .idle && (((seqLive s 0x32).testBit i.val && s.seq.cur = 3)
      || ((seqLive s 0x32).testBit (4 + i.val) && (s.seq.cur = 4 || s.seq.cur = 5)))
    then seqAsk newer ⟨0, 8⟩ (wakeDecided i high s) else wakeDecided i high s := by
  have hq : SeqQuiet s (wakeDecided i high s) (seqWoken i high s.seq) := wakeDecided_quiet
  have hc : (wakeDecided i high s).seq.cur = s.seq.cur := by rw [hq.seq]; rfl
  have hk : (wakeDecided i high s).seq.kind = s.seq.kind := by rw [hq.seq]; rfl
  obtain ⟨ha, hb⟩ := hf
  rw [← hq.live rfl, ← hc, ← hk]
  exact (if_neg (by rw [hv]; decide)).trans (if_neg (by rw [hd, ha, hb]; decide))

/-- A wake decision that is a request for S0. -/
theorem seqWake_asks (h : wakeAsks s i) : seqWake i high newer s = seqAsk newer ⟨0, 8⟩ (wakeDecided i high s) := by
  rw [seqWake_eq hd hv hf]
  exact if_pos (by simpa [wakeAsks] using h)

theorem seqWake_reports (h : ¬ wakeAsks s i) : seqWake i high newer s = wakeDecided i high s := by
  rw [seqWake_eq hd hv hf]
  exact if_neg (by simpa [wakeAsks] using h)

end

end Sys2Proof.Machine
end

section
/-! SUPPORT. Fault traverses and staged sets (05 R207, R208, R211, R218; 01 R45): edge 1 of R211 with a valid fault traverse and without one. -/

namespace Sys2Proof.Machine

variable {s : State} {n : Nat}

/-- The staged fields after a pending set has become live (R45). -/
def stgApplied (c : Stg) : Stg := match c.pnd with | none => c | some x => { c with live := x, pnd := none }

theorem seqApplySet_eq (s : State) : seqApplySet s = { s with seq := { s.seq with cfg := stgApplied s.seq.cfg } } := by
  cases h : s.seq.cfg.pnd <;> simp only [seqApplySet, stgApplied, h]

theorem seqTakeQueue_none (h : s.seq.queue = none) : seqTakeQueue s = s := by rw [seqTakeQueue, h]

theorem seqTakeQueue_some {r : SeqReq} (h : s.seq.queue = some r) :
    seqTakeQueue s = seqStart r { s with seq := { s.seq with queue := none } } := by rw [seqTakeQueue, h]

/-- The queue behind a fault: the pending target of an abandoned unwind becomes the queued request (R211). -/
def faultQueue (q : Seq) : Option SeqReq := if q.kind = .unwind then (match q.pend with | some r => some r | none => q.queue) else q.queue

theorem faultQueue_of_ne {q : Seq} (h : q.kind ≠ .unwind) : faultQueue q = q.queue := if_neg h

theorem faultQueue_none {q : Seq} (hp : q.pend = none) (hq : q.queue = none) : faultQueue q = none := by
  rw [faultQueue, hp, hq]
  exact ite_self _

/-- SEQ after edge 1 of R211, with kind k and traverse n. -/
def seqFaulted (k : SeqKind) (n : Nat) (q : Seq) : Seq := { q with
  watch := [], queue := faultQueue q, pend := none, undo := [], waiting := false, pastcmt := false, step := 0
  sis := q.sis ||| 0x08, kind := k, trv := n }

theorem seqFault_runs (hv : thValid (seqLive s) n = true) (hf : thFault (seqLive s) n = true) :
    SeqQuiet s (seqFault n s) (seqFaulted .fault n s.seq) := by
  have h : seqFault n s = raiseWake 9 (setHint 7 { s with seq := seqFaulted .fault n s.seq }) := by
    unfold seqFault
    exact if_pos (by rw [hv, hf]; rfl)
  rw [h]
  exact ((SeqQuiet.upd s _).setHint 7).raiseWake 9

/-- Without a valid fault traverse no traverse runs, and a pending set applies. -/
theorem seqFault_idle (h : thValid (seqLive s) n = false ∨ thFault (seqLive s) n = false) (hq : faultQueue s.seq = none) :
    seqFault n s = { s with seq := { seqFaulted .idle s.seq.trv s.seq with cfg := stgApplied s.seq.cfg } } := by
  have hn : seqFault n s = seqTakeQueue (seqApplySet { s with seq := seqFaulted .idle s.seq.trv s.seq }) := by
    unfold seqFault
    refine if_neg ?_
    rcases h with h | h <;> simp [h]
  rw [hn, seqApplySet_eq]
  exact seqTakeQueue_none hq

section
variable {u : State} {q : Seq} {typ : Nat} {pay : List Nat} (h : SeqActs s u q typ pay) (hc : q.cfg = s.seq.cfg)
include h hc

/-- A fault that has left its record starts its fault traverse. -/
theorem SeqActs.faults (hv : thValid (seqLive s) n = true) (hf : thFault (seqLive s) n = true) :
    SeqActs s (seqFault n u) (seqFaulted .fault n q) typ pay := by
  rw [← h.live hc] at hv hf
  have hq := seqFault_runs hv hf
  rw [h.seq] at hq
  exact h.quiet hq

/-- One whose fault traverse is not valid leaves the sequencer idle. -/
theorem SeqActs.faults_idle (hv : thValid (seqLive s) n = false ∨ thFault (seqLive s) n = false) (hq : faultQueue q = none) :
    SeqActs s (seqFault n u) { seqFaulted .idle q.trv q with cfg := stgApplied q.cfg } typ pay := by
  rw [← h.live hc] at hv
  rw [← h.seq] at hq ⊢
  rw [seqFault_idle hv hq]
  exact h.quiet (.upd u _)

end

/-- HARD_OFF: everything is abandoned, the queue is emptied and HARDTRV starts (R218). -/
theorem seqHard_acts (hd : domOn s 2 = true) (hp : s.seq.pressed = true) (hn : s.seq.hardDone = false) (hh : seqLive s 0x2F ≠ 0)
    (hv : thValid (seqLive s) (fld (seqLive s 0x30) 2 0) = true) (hf : thFault (seqLive s) (fld (seqLive s 0x30) 2 0) = true) :
    SeqActs s (seqHard s) (seqFaulted .fault (fld (seqLive s 0x30) 2 0) { s.seq with
      hardDone := true, sflt := s.seq.sflt ||| 0x10, sis := s.seq.sis ||| 0x08, queue := none, pend := none })
      8 [fld (seqLive s 0x30) 2 0] := by
  have he : seqHard s = _ := if_pos (by simp [hd, hp, hn, hh])
  rw [he]
  have h := (SeqQuiet.upd s { s.seq with hardDone := true, sflt := s.seq.sflt ||| 0x10, sis := s.seq.sis ||| 0x08 }).logRec 8
    [fld (seqLive s 0x30) 2 0]
  exact (h.upd (fun q => { q with queue := none, pend := none })).faults rfl hv hf

end Sys2Proof.Machine
end

section
/-! SUPPORT. A platform request as a command (05 R205, R213 to R216): what each source's request leaves, from the state in which it reaches
SEQ. -/

namespace Sys2Proof.Machine

variable {s t u : State} {q : Seq} {r : SeqReq} {typ n : Nat} {pay : List Nat} {i : Instr}

theorem SeqActs.does (h : SeqActs s t q typ pay) (he : exec i s = .next t) :
    Does i s (fun t => t.seq = q ∧ SeqLogs s t typ pay ∧ SeqOnly s t) := ⟨t, he, h.seq, h.logs, h.rest⟩

theorem SeqQuiet.refuses (h : SeqQuiet s u s.seq) (r : SeqReq) : seqRefuses r u = seqRefuses r s := by
  rw [seqRefuses, seqRefuses, h.seq, h.rest.domOn, h.live rfl, findTraverse_congr (congrArg Seq.cfg h.seq)]

/-- A refused request that reaches SEQ in a state u, and the older one of two. -/
theorem SeqQuiet.turned (h : SeqQuiet s u s.seq) (hr : seqRefuses r s = true) :
    SeqActs s (seqAsk false r u) (seqRefused s.seq) 7 [r.src, r.tgt, s.seq.cur]
    ∧ SeqActs s (seqAsk true r u) s.seq 7 [r.src, r.tgt, s.seq.cur] := by
  rw [← h.refuses] at hr
  have hnow : seqAsk false r u = seqRefuse r u := seqRequest_refuses hr
  have hold := seqAsk_newer_refused hr
  rw [hnow, ← h.seq]
  exact ⟨h.acts (seqRefuse_acts r u), h.acts hold⟩

theorem SeqQuiet.older (h : SeqQuiet s u s.seq) (hr : seqRefuses r s = false) : seqAsk true r u = u :=
  seqAsk_newer_none (h.refuses r ▸ hr)

end Sys2Proof.Machine
end

section
/-! CERTIFICATE. Platform requests, the button, the lid and the wake inputs (05 R205, R207, R213, R214, R216 to R220). -/

namespace Sys2Proof.Machine

/-- Settles O51: every source asks SEQ in a state that differs from the command's by a quiet change, and `seqAsk` is a request, or for the
older of two its refusal alone. -/
theorem platformRequests : Obligations.PlatformRequests := by
  unfold Obligations.PlatformRequests
  refine ⟨fun k high newer s hd hv => congrArg Host.Outcome.next (seqWake_follows hv (.inl hd)), fun src tgt n high k s hd =>
    ⟨?requests, ?pressReports, ?pressAsks, ?release, ?long, ?longAgain, ?hard, ?lidReports, ?lidAsks, ?lidSame, ?wake⟩⟩
  case requests =>
    intro hm hc
    have hask : ∀ newer, exec (.platformRequest tgt src newer) s
        = .next (seqAsk newer ⟨tgt.toNat, platCode src⟩ (platFrom src s)) :=
      fun newer => congrArg Host.Outcome.next (platAsk_eq newer hm hc)
    have hq := platFrom_quiet src s
    have hu : domOn (platFrom src s) 2 = true := (hq.rest.domOn 2).trans hd
    have hlive : seqLive (platFrom src s) = seqLive s := hq.live rfl
    refine ⟨?idleOld, ?idleOldNone, ?runsOld, ?same, ?starts, ?refused, ?unwinds, ?ignored, ?queues, ?pends, ?disabled⟩
    case idleOld => exact fun hk hg hn => (hq.turned (seqRefuses_idle hd hk hg hn)).2.does (hask true)
    case idleOldNone => exact fun hk h => (hask true).trans (congrArg _ (hq.older (seqRefuses_idle_not hk h)))
    case runsOld => exact fun hk he => (hask true).trans (congrArg _ (hq.older (seqRefuses_enabled hk he)))
    case same =>
      intro hk hg
      have h := seqRequest_idle (r := ⟨tgt.toNat, platCode src⟩) hu
      have h' := seqStart_same (r := ⟨tgt.toNat, platCode src⟩) (s := platFrom src s)
      rw [hq.seq] at h h'
      exact (hask false).trans (congrArg _ ((h hk).trans (h' hg)))
    case starts => exact fun hk hg he hf => (seqAsk_idle_starts hq hd hk rfl hg he hf).2.does (hask false)
    case refused => exact fun hk hg hn => (hq.turned (seqRefuses_idle hd hk hg hn)).1.does (hask false)
    case unwinds =>
      intro hk hp hg he
      have h := seqRequest_unwinds (r := ⟨tgt.toNat, platCode src⟩) hu
      rw [hq.seq, hlive] at h
      exact (hq.acts (h hk hp hg he)).does (hask false)
    case ignored =>
      intro hk hp hg
      have h := seqRequest_ignored (r := ⟨tgt.toNat, platCode src⟩) hu
      rw [hq.seq, hlive] at h
      exact (hask false).trans (congrArg _ (h hk hp hg))
    case queues =>
      intro hk
      have hnone := seqRequest_empties (r := ⟨tgt.toNat, platCode src⟩) hu
      have hsome := seqRequest_queued (r := ⟨tgt.toNat, platCode src⟩) hu
      rw [hq.seq, hlive] at hnone hsome
      exact ⟨fun hg => (hask false).trans (congrArg _ (hnone hk hg)), fun hg he => (hask false).trans (congrArg _ (hsome hk hg he))⟩
    case pends =>
      intro hk he
      have h := seqRequest_pends (r := ⟨tgt.toNat, platCode src⟩) hu
      rw [hq.seq] at h
      exact (hask false).trans (congrArg _ (h hk he))
    case disabled =>
      intro he
      have hpend := seqRequest_pending (r := ⟨tgt.toNat, platCode src⟩) hu
      rw [hq.seq] at hpend
      refine ⟨fun hk hg => ?_, fun hk hg => ?_, fun hk hg => ?_, fun hk hg => ⟨?_, ?_⟩⟩
      · exact (hq.turned (seqRefuses_runs hd hk hg he)).imp (·.does (hask false)) (·.does (hask true))
      · exact (hq.turned (seqRefuses_unwind hd hk hg he)).imp (·.does (hask false)) (·.does (hask true))
      · exact (hask true).trans (congrArg _ (hq.older (seqRefuses_goal hk hg)))
      · exact (hask false).trans (congrArg _ (hpend hk he hg))
      · exact (hask true).trans (congrArg _ (hq.older (seqRefuses_pending hk hg)))
  case pressReports =>
    intro hp hb
    have hq := pressDecided_quiet s
    exact ⟨_, congrArg Host.Outcome.next (seqPress_reports false hd hp hb), hq.seq, hq.rest⟩
  case pressAsks =>
    intro hp hb hk hc he hf
    have hq := pressDecided_quiet s
    have hcur : (0 : Nat) ≠ s.seq.cur := by omega
    obtain ⟨hold, hnow⟩ := seqAsk_idle_starts (r := ⟨0, 0xA⟩) hq hd hk rfl hcur he hf
    refine ⟨⟨_, congrArg Host.Outcome.next ((seqPress_asks true hd hp hb hk hc).trans hold), hq.seq, hq.fbk, hq.rest⟩, ?_⟩
    exact hnow.does (congrArg Host.Outcome.next (seqPress_asks false hd hp hb hk hc))
  case release => exact congrArg Host.Outcome.next (if_pos hd)
  case long =>
    intro hp hl hb hk hc he hf
    have h := (seqAsk_idle_starts (r := ⟨5, 0xB⟩) (SeqQuiet.upd s { s.seq with longDone := true }) hd hk rfl hc.symm he hf).2
    exact h.does (congrArg Host.Outcome.next (seqLong_asks hd hp hl hb))
  case longAgain => exact fun _ hl => congrArg Host.Outcome.next (seqLong_again hl)
  case hard =>
    intro hp hn hh hv hf
    have h := seqHard_acts hd hp hn hh hv hf
    refine ⟨_, rfl, h.seq.trans ?_, h.logs, h.rest⟩
    simp [seqFaulted, faultQueue]
  case lidReports =>
    intro hn h
    have hq := lidDecided_quiet (lidLevel s high) s
    exact ⟨_, congrArg Host.Outcome.next (seqLid_reports false hd hn h), hq.seq, hq.rest, hq.fbk⟩
  case lidAsks =>
    intro ho hl hb hc hk he hf
    have hq := lidDecided_quiet true s
    have hn : lidLevel s high ≠ s.seq.lidOpen := by
      rw [hl]
      exact fun h => absurd (ho.symm.trans h) (by decide)
    have hf' : findTraverse s s.seq.cur 0 = some n := hc ▸ hf
    obtain ⟨hold, hnow⟩ := seqAsk_idle_starts (r := ⟨0, 9⟩) hq hd hk rfl (hc ▸ (by decide)) he hf'
    refine ⟨⟨_, congrArg Host.Outcome.next ((seqLid_asks true hd hn ho hb hc hk).trans hold), hq.seq, hq.fbk, hq.rest⟩, ?_⟩
    exact hnow.does (congrArg Host.Outcome.next (seqLid_asks false hd hn ho hb hc hk))
  case lidSame => exact fun h => congrArg Host.Outcome.next (seqLid_same h)
  case wake =>
    have hq : SeqQuiet s (wakeDecided k high s) (seqWoken k high s.seq) := wakeDecided_quiet
    refine ⟨?later, ?reports, ?asks, ?unpowered⟩
    case later => exact fun hv hf => congrArg Host.Outcome.next (seqWake_follows hv (.inr hf))
    case reports => exact fun hv hf ha => ⟨_, congrArg Host.Outcome.next (seqWake_reports hd hv hf ha), hq.seq, hq.rest, hq.fbk⟩
    case asks =>
      intro hv hf ha he ht
      obtain ⟨hk, hcur⟩ := id ha
      have hc : (0 : Nat) ≠ s.seq.cur := by omega
      obtain ⟨hold, hnow⟩ := seqAsk_idle_starts (r := ⟨0, 8⟩) hq hd hk rfl hc he ht
      refine ⟨⟨_, congrArg Host.Outcome.next ((seqWake_asks hd hv hf ha).trans hold), hq.seq, hq.fbk, hq.rest⟩, ?_⟩
      exact hnow.does (congrArg Host.Outcome.next (seqWake_asks hd hv hf ha))
    case unpowered => exact fun hv => congrArg Host.Outcome.next (seqWake_unpowered hv)

end Sys2Proof.Machine
end

section
/-! SUPPORT. Registers of four bytes in the I/O space (00 R13, R38; 05 R224, R225): a whole write by an engine, and the reads of two engines
on one edge of one whose top byte advances an index, of which the first alone advances it. -/

namespace Sys2Proof.Machine

/-- The I/O addresses a to a + 3 hold a register of region r at base b, of kind kd: shared by the engines and refused to none. -/
structure QuadReg (a b r : Nat) (kd : SpanKind) : Prop where
  above : b ≤ a
  region : ∀ k < 4, ioRegion (a + k) = (b, r)
  shared : perEng r (a - b) = false
  span : ∀ k < 4, ∀ s, spanAt r (a + k - b) s = { lo := a - b, len := 4, kind := kd }
  free : ∀ k < 4, ∀ s e v, readRefused s e (a + k) = false ∧ writeRefused s (.ce e) e (a + k) v = false

namespace QuadReg

variable {e n : Eng} {m : Mst} {a b r k v x x0 x1 x2 : Nat} {kd : SpanKind} {s t : State} {again : Bool}

theorem byte_index (i : QuadReg a b r kd) (k : Nat) : a + k - b - (a - b) = k := by have := i.above; omega

theorem byte_address (i : QuadReg a b r kd) (k : Nat) : b + (a - b) + k = a + k := by have := i.above; omega

theorem base_address (i : QuadReg a b r kd) : b + (a - b) = a := i.byte_address 0

/-! ### The write (R13) -/

/-- The fabric with byte w held for the shared register byte at address c. -/
def hold (m : Mst) (c w : Nat) (y : IoBuf) : IoBuf := { y with held := spSet none y.held (ioKey m 0 c) (some (w % 256)) }

theorem held_hold (c d w : Nat) (y : IoBuf) : spGet none (hold m c w y).held (ioKey m 0 d)
    = if c = d then some (w % 256) else spGet none y.held (ioKey m 0 d) := by
  rw [hold, spGet_spSet (fun _ => none)]
  exact if_congr (by simp [ioKey]) rfl rfl

/-- The lower three bytes are held. -/
theorem ioPut_held (i : QuadReg a b r kd) (hw : kd ≠ .ro) (hk : k < 3) : ioPut m e (a + k) v s = withIo (hold m (a + k) v s.io) s := by
  have hlow : k + 1 < 4 := by omega
  simp [ioPut, i.region k (by omega), i.span k (by omega), i.shared, i.byte_index, i.byte_address, hw, hlow, withIo, hold]

theorem outBytes_held {l : List Nat} {y : IoBuf} (i : QuadReg a b r kd) (hw : kd ≠ .ro) (h : ∀ k < 4, EngMay s e (a + k) true) (hk : k < 3) :
    outBytes e false (a + k) (v :: l) (withIo y s) = outBytes e false (a + k + 1) l (withIo (hold (.ce e) (a + k) v y) s) := by
  rw [IndexedPair.outBytes_cons ((h k (by omega)).withIo y) (i.free k (by omega) _ e v).2, i.ioPut_held hw hk]
  rfl

/-- The top byte writes the register, with the lower bytes as they are held. -/
theorem ioPut_top (i : QuadReg a b r kd) (hw : kd ≠ .ro) (h0 : spGet none s.io.held (ioKey m 0 a) = some x0)
    (h1 : spGet none s.io.held (ioKey m 0 (a + 1)) = some x1) (h2 : spGet none s.io.held (ioKey m 0 (a + 2)) = some x2) :
    ∃ y, ioPut m e (a + 3) v s = regWrite m e r (a - b) (leNat [x0, x1, x2, v]) (withIo y s) := by
  refine ⟨{ s.io with held := [0, 1, 2].foldl (fun h j => spErase h (ioKey m 0 (a + j))) s.io.held }, ?_⟩
  simp [ioPut, i.region 3 (by omega), i.span 3 (by omega), i.shared, i.byte_index, i.byte_address, hw, withIo, List.range_succ, h0, h1, h2]

/-- The bytes of a value of 32 bits, written and read. -/
theorem leNat_quad (v : Nat) : leNat [v % 256, v / 256 % 256, v / 256 / 256 % 256, v / 256 / 256 / 256 % 256] = v % 2 ^ 32 := by
  simp only [leNat]
  omega

theorem leNat_byteOf (v : Nat) : leNat [v % 256, byteOf v 1, byteOf v 2, byteOf v 3] = v % 2 ^ 32 := by
  rw [← leNat_quad]
  simp only [byteOf, Nat.shiftRight_eq_div_pow, Nat.div_div_eq_div_mul]

/-- An engine writes the register whole; the fabric's held bytes apart. -/
theorem engWrite_whole (i : QuadReg a b r kd) (hw : kd ≠ .ro) (h : ∀ k < 4, EngMay s e (a + k) true) :
    ∃ y, engWrite e a 4 v s = regWrite (.ce e) e r (a - b) (v % 2 ^ 32) (withIo y s) := by
  have hlast : ∀ w y, outBytes e false (a + 3) [w] (withIo y s) = ioPut (.ce e) e (a + 3) w (withIo y s) := fun w y =>
    IndexedPair.outBytes_cons ((h 3 (by decide)).withIo y) (i.free 3 (by decide) _ e w).2
  have hall : engWrite e a 4 v s = ioPut (.ce e) e (a + 3) (v / 256 / 256 / 256 % 256) (withIo (hold (.ce e) (a + 2) (v / 256 / 256 % 256)
      (hold (.ce e) (a + 1) (v / 256 % 256) (hold (.ce e) a (v % 256) s.io))) s) :=
    calc engWrite e a 4 v s
      _ = outBytes e false a (leBytes 4 v) s := engWrite_eq (h 0 (by decide))
      _ = _ := i.outBytes_held (k := 0) hw h (by decide)
      _ = _ := i.outBytes_held (k := 1) hw h (by decide)
      _ = _ := i.outBytes_held (k := 2) hw h (by decide)
      _ = _ := hlast _ _
  obtain ⟨y, hy⟩ := i.ioPut_top (e := e) (m := .ce e) (v := v / 256 / 256 / 256 % 256) hw
    (s := withIo (hold (.ce e) (a + 2) (v / 256 / 256 % 256) (hold (.ce e) (a + 1) (v / 256 % 256) (hold (.ce e) a (v % 256) s.io))) s)
    (x0 := v % 256) (x1 := v / 256 % 256) (x2 := v / 256 / 256 % 256) (by simp [held_hold]) (by simp [held_hold]) (by simp [held_hold])
  exact ⟨y, by rw [hall, hy, leNat_quad, withIo_withIo]⟩

/-! ### The reads (R13, R38) -/

/-- The register is an indirect data register, and a read of its top byte advances its index. -/
structure Indexed (a : Nat) : Prop where
  acts : readActs a = true
  topActs : topActs (a + 3) = true
  rest : ∀ k, 1 ≤ k → k < 3 → ∀ s, topRead (a + k) s = s

/-- The upper three bytes of v stand in the latches. -/
def Latched (m : Mst) (a v : Nat) (y : IoBuf) : Prop := ∀ k, 1 ≤ k → k < 4 → spGet none y.latch (ioKey m 0 (a + k)) = some (byteOf v k)

/-- The latches after a read of the lowest byte. -/
def latch (m : Mst) (a v : Nat) (l : Sparse (Option Nat)) : Sparse (Option Nat) :=
  [0, 1, 2].foldl (fun l j => spSet none l (ioKey m 0 (a + (j + 1))) (some (byteOf v (j + 1)))) l

theorem spGet_latch (l : Sparse (Option Nat)) (h1 : 1 ≤ k) (h4 : k < 4) : spGet none (latch m a v l) (ioKey m 0 (a + k)) = some (byteOf v k) := by
  have hk : k = 1 ∨ k = 2 ∨ k = 3 := by omega
  simp only [latch, List.foldl, spGet_spSet (fun _ => none)]
  rcases hk with rfl | rfl | rfl <;> simp [ioKey]

section
variable (i : QuadReg a b r .pair)
include i

/-- The lowest byte is read from the register, which latches the others. -/
theorem ioGet_low (j : Indexed a) (hv : regRead e r (a - b) s = (s, v)) : ∃ y, ioGet m e a s = (withIo y s, v % 256) ∧ Latched m a v y := by
  refine ⟨{ s.io with latch := latch m a v s.io.latch, was := spSet none (spErase s.io.was (a + 3)) a (some v) }, ?_, fun k => spGet_latch _⟩
  have hr := i.region 0 (by decide)
  have hs := i.span 0 (by decide)
  simp only [Nat.add_zero] at hr hs
  simp [ioGet, hr, hs, i.shared, hv, i.base_address, readNote, j.acts, withIo, List.range_succ, latch]

/-- The bytes between come from the latches, whether or not their reads are noted. -/
theorem ioGet_mid (j : Indexed a) (h1 : 1 ≤ k) (h3 : k < 3) (hl : Latched m a v s.io) : ioGet m e (a + k) s again = (s, byteOf v k) := by
  have h0 : k ≠ 0 := by omega
  have h4 : k + 1 ≠ 4 := by omega
  have hk := hl k h1 (by omega)
  have hnote : ∀ w, readNote 0 a 4 k w s = s := fun w => by simp [readNote, h0, h4]
  simp only [ioGet, i.region k (by omega), i.span k (by omega), i.shared, i.byte_index, i.base_address, if_neg h0]
  cases (if again = true then readWas (if false = true then e.val else 0) (a + k) s else none) with
  | none => simp [hk, hnote, j.rest k h1 h3]
  | some w => simp [hk]

/-- The top byte is read from its latch; that read is noted for the lowest byte and the top byte, and advances the index. -/
theorem ioGet_top (j : Indexed a) (hl : Latched m a v s.io) (hv : (regRead e r (a - b) s).2 = v) :
    ∃ z, ioGet m e (a + 3) s = (topRead (a + 3) (withIo z s), byteOf v 3)
      ∧ spGet none z.was a = some v ∧ spGet none z.was (a + 3) = some v := by
  refine ⟨{ s.io with was := spSet none (spSet none s.io.was a (some v)) (a + 3) (some v) }, ?_, ?_, spGet_spSet_some _ _ _⟩
  · simp [ioGet, i.region 3 (by omega), i.span 3 (by omega), i.shared, hv, i.byte_index, i.base_address, hl 3 (by omega) (by omega), readNote,
      j.acts, j.topActs, withIo]
  · rw [spGet_spSet (fun _ => none), if_neg (by omega)]
    exact spGet_spSet_some _ _ _

/-- A read of the lowest byte on the edge of a read that is noted gives what that one gave. -/
theorem ioGet_low_again (hw : spGet none s.io.was a = some v) :
    ∃ y, ioGet m e a s true = (withIo y s, v % 256) ∧ Latched m a v y ∧ y.was = s.io.was := by
  refine ⟨{ s.io with latch := latch m a v s.io.latch }, ?_, fun k => spGet_latch _, rfl⟩
  have hr := i.region 0 (by decide)
  have hs := i.span 0 (by decide)
  simp only [Nat.add_zero] at hr hs
  simp [ioGet, hr, hs, i.shared, i.base_address, readWas, hw, withIo, List.range_succ, latch]

/-- So does one of the top byte, and it advances nothing. -/
theorem ioGet_top_again (hl : Latched m a v s.io) (hw : spGet none s.io.was (a + 3) = some v) : ioGet m e (a + 3) s true = (s, byteOf v 3) := by
  simp [ioGet, i.region 3 (by omega), i.span 3 (by omega), i.shared, i.byte_index, i.byte_address, readWas, hw, hl 3 (by omega) (by omega)]

theorem inBytes_read {l : List Nat} {c : Nat} {y : IoBuf} (h : ∀ k < 4, EngMay s e (a + k) false) (hk : k < 4)
    (hg : ioGet (.ce e) e (a + k) (withIo y s) again = (t, x)) :
    inBytes e again (a + k) (c + 1) l (withIo y s) = inBytes e again (a + k + 1) c (l ++ [x]) t := by
  rw [IndexedPair.inBytes_succ ((h k hk).withIo y) (i.free k hk _ e 0).1, hg]

/-- An engine reads the four bytes, where its read of the first leaves the state but for the I/O fabric. -/
theorem engRead_whole {y z : IoBuf} (j : Indexed a) (h : ∀ k < 4, EngMay s e (a + k) false)
    (hlow : ioGet (.ce e) e a s again = (withIo y s, v % 256)) (hl : Latched (.ce e) a v y)
    (htop : ioGet (.ce e) e (a + 3) (withIo y s) again = (withIo z t, byteOf v 3)) :
    engRead e a 4 s again = withIo { z with rd := z.rd.set e (v % 2 ^ 32) } t := by
  have hmid : ∀ k, 1 ≤ k → k < 3 → ioGet (.ce e) e (a + k) (withIo y s) again = (withIo y s, byteOf v k) :=
    fun k h1 h3 => i.ioGet_mid j h1 h3 hl
  calc engRead e a 4 s again
    _ = inBytes e again a 4 [] s := by
      obtain ⟨hrun, -, -, hbad, -⟩ := h 0 (by decide)
      rw [engRead, if_pos hrun, engCount_eq hbad, afterKick_none hbad]
    _ = inBytes e again (a + 1) 3 [v % 256] (withIo y s) := i.inBytes_read (k := 0) (y := s.io) h (by decide) hlow
    _ = inBytes e again (a + 2) 2 [v % 256, byteOf v 1] (withIo y s) := i.inBytes_read h (by decide) (hmid 1 (by decide) (by decide))
    _ = inBytes e again (a + 3) 1 [v % 256, byteOf v 1, byteOf v 2] (withIo y s) := i.inBytes_read h (by decide) (hmid 2 (by decide) (by decide))
    _ = inBytes e again (a + 4) 0 [v % 256, byteOf v 1, byteOf v 2, byteOf v 3] (withIo z t) := i.inBytes_read h (by decide) htop
    _ = withIo { z with rd := z.rd.set e (v % 2 ^ 32) } t := by
      rw [← leNat_byteOf]
      rfl

/-- The first read on an edge gives the register's value, advances its index and is noted. -/
theorem engRead_noted (j : Indexed a) (hv : ∀ y, regRead e r (a - b) (withIo y s) = (withIo y s, v))
    (ht : ∀ y, topRead (a + 3) (withIo y s) = withIo y t) (h : ∀ k < 4, EngMay s e (a + k) false) :
    ∃ y, engRead e a 4 s = withIo y t ∧ y.rd[e] = v % 2 ^ 32 ∧ spGet none y.was a = some v ∧ spGet none y.was (a + 3) = some v := by
  obtain ⟨y, hlow, hl⟩ := i.ioGet_low (m := .ce e) j (hv s.io)
  obtain ⟨z, htop, hw⟩ := i.ioGet_top (e := e) (s := withIo y s) j hl (congrArg Prod.snd (hv y))
  rw [withIo_withIo, ht] at htop
  exact ⟨_, i.engRead_whole j h hlow hl htop, by simp, hw⟩

/-- A later read on that edge gives the same value and has no effect. -/
theorem engRead_again (j : Indexed a) (h : ∀ k < 4, EngMay s e (a + k) false) (hw : spGet none s.io.was a = some v)
    (hw' : spGet none s.io.was (a + 3) = some v) : ∃ z, engRead e a 4 s true = withIo z s ∧ z.rd[e] = v % 2 ^ 32 := by
  obtain ⟨y, hlow, hl, hy⟩ := i.ioGet_low_again (m := .ce e) (e := e) hw
  have htop := i.ioGet_top_again (e := e) (s := withIo y s) hl (hy ▸ hw')
  exact ⟨_, i.engRead_whole j h hlow hl htop, by simp⟩

/-- Two engines read the register on one edge: both get its value, and its index advances once. -/
theorem readBoth (j : Indexed a) (hv : ∀ y, regRead e r (a - b) (withIo y s) = (withIo y s, v))
    (ht : ∀ y, topRead (a + 3) (withIo y s) = withIo y t) (h : ∀ k < 4, EngMay s e (a + k) false) (hn : ∀ k < 4, EngMay t n (a + k) false) :
    ∃ y z, engRead e a 4 s = withIo y t ∧ y.rd[e] = v % 2 ^ 32 ∧ engRead n a 4 (withIo y t) true = withIo z t ∧ z.rd[n] = v % 2 ^ 32 := by
  obtain ⟨y, hread, hrd, hw, hw'⟩ := i.engRead_noted j hv ht h
  obtain ⟨z, hagain, hrdn⟩ := i.engRead_again j (fun k hk => (hn k hk).withIo y) hw hw'
  exact ⟨y, z, hread, hrd, hagain, hrdn⟩

end

end QuadReg

/-! ### PSOUT and SSTDAT (R224, R225) -/

theorem psout_quad : QuadReg 0x1010 0x1000 5 .rw where
  above := by decide
  region := by decide
  shared := rfl
  span := fun k hk s => by interval_cases k <;> rfl
  free := fun k hk s e v => by interval_cases k <;> exact ⟨rfl, rfl⟩

theorem sstdat_quad : QuadReg 0x1062 0x1000 5 .pair where
  above := by decide
  region := by decide
  shared := rfl
  span := fun k hk s => by interval_cases k <;> rfl
  free := fun k hk s e v => by interval_cases k <;> exact ⟨rfl, rfl⟩

theorem sstdat_indexed : QuadReg.Indexed 0x1062 where
  acts := by decide
  topActs := by decide
  rest := fun k h1 h3 s => by interval_cases k <;> rfl

variable {e n : Eng} {s : State}

/-- A whole write of PSOUT by an engine: BSTAT.ERR while a traverse runs. -/
theorem engWrite_psout (h : ∀ k < 4, EngMay s e (0x1010 + k) true) (v : BitVec 32) : ∃ y, engWrite e 0x1010 4 v.toNat s = withIo y { s with
    seq := if s.seq.kind = .idle then { s.seq with psout := v.toNat } else { s.seq with cfg := { s.seq.cfg with err := true } } } := by
  obtain ⟨y, hy⟩ := psout_quad.engWrite_whole (v := v.toNat) (by decide) h
  rw [Nat.mod_eq_of_lt v.isLt] at hy
  refine ⟨y, hy.trans ?_⟩
  change seqWrite e.val 0x10 v.toNat (withIo y s) = _
  have hv : v.toNat % 2 ^ 32 = v.toNat := Nat.mod_eq_of_lt v.isLt
  by_cases hk : s.seq.kind = .idle
  · simp only [seqWrite, seqRun, withIo, hk, hv]
    rfl
  · simp [seqWrite, seqRun, withIo, hk]

/-- A whole write of SSTDAT by an engine stages the entry and advances SSTSEL. -/
theorem engWrite_sstdat (h : ∀ k < 4, EngMay s e (0x1062 + k) true) (v : BitVec 32) : ∃ y, engWrite e 0x1062 4 v.toNat s = withIo y { s with
    seq := { s.seq with
      cfg := { s.seq.cfg with stg := spSet 0 s.seq.cfg.stg (0x10000 + s.seq.sstsel) v.toNat, dirty := true }
      sstsel := (s.seq.sstsel + 1) % 512 } } := by
  obtain ⟨y, hy⟩ := sstdat_quad.engWrite_whole (v := v.toNat) (by decide) h
  rw [Nat.mod_eq_of_lt v.isLt] at hy
  refine ⟨y, hy.trans ?_⟩
  change seqWrite e.val 0x62 v.toNat (withIo y s) = _
  have hv : v.toNat % 4294967296 = v.toNat := Nat.mod_eq_of_lt v.isLt
  simp [seqWrite, hv, withIo]

/-- Two engines read SSTDAT on one edge (R38, log entry 2). -/
theorem sstdat_readBoth (h : ∀ k < 4, EngMay s e (0x1062 + k) false) (hn : ∀ k < 4, EngMay s n (0x1062 + k) false) :
    ReadBoth (.sstdatAccess · none ·) e n
      (spGet 0 (if s.seq.viewlive then s.seq.cfg.live else s.seq.cfg.stg) (0x10000 + s.seq.sstsel) % 2 ^ 32) s
      { s with seq := { s.seq with sstsel := (s.seq.sstsel + 1) % 512 } } := by
  obtain ⟨y, z, h1, h2, h3, h4⟩ := sstdat_quad.readBoth (e := e) (n := n)
    (v := spGet 0 (if s.seq.viewlive then s.seq.cfg.live else s.seq.cfg.stg) (0x10000 + s.seq.sstsel))
    (t := { s with seq := { s.seq with sstsel := (s.seq.sstsel + 1) % 512 } }) sstdat_indexed (fun _ => rfl) (fun _ => rfl) h hn
  exact ⟨y, z, congrArg Host.Outcome.next h1, h2, congrArg Host.Outcome.next h3, h4⟩

end Sys2Proof.Machine
end

section
/-! SUPPORT. The steps of a traverse (05 R203, R204, R206 to R208, R210 to R212): what each step word does, the END with a queued target,
a timeout and a lost power-good. -/

namespace Sys2Proof.Machine

variable {s t u : State} {q : Seq} {r : SeqReq} {op n i : Nat} {pins : BitVec 32}

/-! ### Steps that are due -/

/-- A step with operation op is due in a running traverse or fault traverse. -/
def DueStep (op : Nat) (s : State) : Prop :=
  (s.seq.kind = .ordinary ∨ s.seq.kind = .fault) ∧ s.seq.waiting = false ∧ seqWord s / 2 ^ 28 = op

theorem DueStep.due (h : DueStep op s) (hd : domOn s 2 = true) : stepDue op s = true := by
  obtain ⟨hk, hw, ho⟩ := h
  simp only [stepDue, hd, hw, ho]
  simpa using hk

/-- SEQ after a step that completes. -/
def seqDone (x : Undo) (q : Seq) : Seq := { q with step := q.step + 1, waiting := false, undo := x :: q.undo }

/-! ### SET and SETG (R203) -/

theorem testBit_fld {v hi lo : Nat} : (fld v hi lo).testBit i = (decide (i < hi - lo + 1) && v.testBit (lo + i)) := by
  rw [fld, Nat.testBit_mod_two_pow, Nat.testBit_shiftRight]

/-- A write of PSOUT changes the bits of its mask alone. -/
theorem psWrite_testBit (mask v : Nat) (s : State) (hi : i < 32) : (psWrite mask v s).seq.psout.testBit i
    = if mask.testBit i then v.testBit i else s.seq.psout.testBit i := by
  rw [psWrite, BitVec.testBit_toNat]
  cases hm : mask.testBit i <;>
    simp only [BitVec.getLsbD_or, BitVec.getLsbD_and, BitVec.getLsbD_not, BitVec.getLsbD_ofNat, hi, hm, decide_true] <;> simp

theorem psWrite_set (w : Nat) (s : State) (hi : i < 32) :
    (psWrite (2 ^ (w % 32)) (if w.testBit 8 then 2 ^ (w % 32) else 0) s).seq.psout.testBit i
      = if i = w % 32 then w.testBit 8 else s.seq.psout.testBit i := by
  rw [psWrite_testBit _ _ _ hi, Nat.testBit_two_pow]
  by_cases h : i = w % 32
  · cases hw : w.testBit 8 <;> simp [h]
  · simp [h, Ne.symm h]

theorem psWrite_setg (w : Nat) (s : State) (hi : i < 32) :
    (psWrite (fld w 15 8 * 2 ^ (8 * fld w 17 16)) (fld w 7 0 * 2 ^ (8 * fld w 17 16)) s).seq.psout.testBit i
      = if i / 8 = fld w 17 16 ∧ w.testBit (8 + i % 8) = true then w.testBit (i % 8) else s.seq.psout.testBit i := by
  rw [psWrite_testBit _ _ _ hi, Nat.testBit_mul_two_pow, Nat.testBit_mul_two_pow, testBit_fld, testBit_fld]
  by_cases h : i / 8 = fld w 17 16
  · have hlo : 8 * fld w 17 16 ≤ i := by omega
    have hsub : i - 8 * fld w 17 16 = i % 8 := by omega
    have hlt : i % 8 < 8 := Nat.mod_lt _ (by decide)
    simp [h, hlo, hsub, hlt]
  · have hout : ¬ (8 * fld w 17 16 ≤ i ∧ i - 8 * fld w 17 16 < 8) := by omega
    rw [if_neg, if_neg (fun k => h k.1)]
    simp only [Bool.and_eq_true, decide_eq_true_eq]
    exact fun k => hout ⟨k.1, k.2.1⟩

/-! ### WAITPG (R206) -/

theorem waitMet_iff {w : Nat} : waitMet s w = true ↔ (pgin s).testBit (fld w 20 16) = w.testBit 25 := decide_eq_true_iff

theorem seqWait_due (h : stepDue 4 s = true) : seqWait pins s = { s with
    seq := if (pgin (pgPins pins s)).testBit (fld (seqWord s) 20 16) = (seqWord s).testBit 25
      then seqDone { step := s.seq.step } { s.seq with pg := pins }
      else { s.seq with pg := pins, waiting := true } } := by
  refine (if_neg (by simp [h])).trans ?_
  by_cases hw : (pgin (pgPins pins s)).testBit (fld (seqWord s) 20 16) = (seqWord s).testBit 25
  · rw [if_pos hw]
    exact if_pos (waitMet_iff.mpr hw)
  · rw [if_neg hw]
    exact if_neg (mt waitMet_iff.mp hw)

theorem seqWaitDone_completes (hd : domOn s 2 = true) (hk : s.seq.kind = .ordinary ∨ s.seq.kind = .fault) (hw : s.seq.waiting = true)
    (hm : (pgin (pgPins pins s)).testBit (fld (seqWord s) 20 16) = (seqWord s).testBit 25) :
    seqWaitDone pins s = { s with seq := seqDone { step := s.seq.step } { s.seq with pg := pins } } := by
  have hmet : waitMet (pgPins pins s) (seqWord (pgPins pins s)) = true := waitMet_iff.mpr hm
  exact if_pos (by rw [hmet, hd, hw]; simpa using hk)

/-- With nothing waiting, or not at LEVEL, PGIN follows alone (log entry 46). -/
theorem seqWaitDone_follows (h : s.seq.kind = .idle ∨ s.seq.kind = .unwind ∨ s.seq.waiting = false
      ∨ (pgin (pgPins pins s)).testBit (fld (seqWord s) 20 16) ≠ (seqWord s).testBit 25) :
    seqWaitDone pins s = { s with seq := { s.seq with pg := pins } } := by
  refine if_neg ?_
  rcases h with h | h | h | h
  · simp [h]
  · simp [h]
  · simp [h]
  · have hmet : waitMet (pgPins pins s) (seqWord (pgPins pins s)) = false := by
      rw [← Bool.not_eq_true]
      exact mt waitMet_iff.mp h
    simp [hmet]

/-! ### MARK and END (R203, R207) -/

theorem seqMark_acts (h : stepDue 7 s = true) : SeqActs s (seqMark s)
    (seqDone { step := s.seq.step } { s.seq with smark := seqWord s % 256, sis := s.seq.sis ||| 0x80 }) 4 [s.seq.trv, seqWord s % 256] := by
  have he : seqMark s = _ := if_pos h
  rw [he]
  exact (SeqQuiet.upd s (seqDone { step := s.seq.step } { s.seq with smark := seqWord s % 256, sis := s.seq.sis ||| 0x80 })).logRec 4 _

/-- A target that is taken in a state whose SEQ is q starts its traverse (R205). -/
theorem seqStart_starts (hu : u.seq = q) (hg : r.tgt ≠ q.cur) (he : q.en = true) (hf : findTraverse { s with seq := q } q.cur r.tgt = some n) :
    SeqActs u (seqStart r u) (seqStarted n q) 1 [n, r.src, r.tgt] := by
  subst hu
  rw [findTraverse_congr (t := { s with seq := u.seq }) (s := u) rfl] at hf
  exact seqStart_acts hg he hf

/-- One that is refused when it is taken. -/
theorem seqStart_turned (hu : u.seq = q) (hg : r.tgt ≠ q.cur) (h : q.en = false ∨ findTraverse { s with seq := q } q.cur r.tgt = none) :
    SeqActs u (seqStart r u) (seqRefused q) 7 [r.src, r.tgt, q.cur] := by
  subst hu
  rw [findTraverse_congr (t := { s with seq := u.seq }) (s := u) rfl] at h
  rw [seqStart_refuses hg h]
  exact seqRefuse_acts r u

/-- SEQ after an END before a queued target is taken. -/
def seqEnded (goal : Nat) (q : Seq) : Seq :=
  { q with cur := goal, kind := .idle, pastcmt := false, undo := [], sis := q.sis ||| 0x01, cfg := stgApplied q.cfg }

/-- An END leaves its record and a state whose queue is then taken. -/
theorem seqEnd_acts (h : stepDue 0 s = true) : ∃ u,
    SeqActs s u (seqEnded (thTo (seqLive s) s.seq.trv) s.seq) 2 [s.seq.trv, thTo (seqLive s) s.seq.trv]
    ∧ seqEnd s = seqTakeQueue u := by
  have hq := (SeqQuiet.upd s { s.seq with
    cur := thTo (seqLive s) s.seq.trv, kind := .idle, pastcmt := false, undo := [], sis := s.seq.sis ||| 0x01 }).logRec 2
    [s.seq.trv, thTo (seqLive s) s.seq.trv]
  have hh := (hq.quiet (((SeqQuiet.refl _).setHint 7).raiseWake 9)).upd (fun q => { q with cfg := stgApplied q.cfg })
  rw [hq.seq] at hh
  exact ⟨_, hh, (if_pos h).trans (congrArg seqTakeQueue (seqApplySet_eq _))⟩

/-- A queued target for the state that the traverse has reached only leaves the queue. -/
theorem seqTakeQueue_goal (h : u.seq.queue = none ∨ u.seq.queue.map SeqReq.tgt = some u.seq.cur) :
    seqTakeQueue u = { u with seq := { u.seq with queue := none } } := by
  rcases h with h | h
  · rw [seqTakeQueue_none h, ← h]
  · obtain ⟨r, hr, hg⟩ := Option.map_eq_some_iff.mp h
    rw [seqTakeQueue_some hr]
    exact seqStart_same hg

/-! ### Timeouts and lost power-good (R206, R208, R210, R211) -/

/-- SEQ at a timeout, before what it leads to. -/
def seqTimedOut (pg : Nat) (q : Seq) : Seq := { q with
  sflt := q.sflt ||| (if q.kind = .unwind then 0x08 else 0x01), sis := q.sis ||| 0x08, fltTrv := q.trv, fltStep := q.step, fltPg := pg }

/-- A timeout leaves its record; then the step completes in a fault traverse, and the fault traverse follows elsewhere. -/
theorem seqTimeout_acts (hd : domOn s 2 = true) (hw : s.seq.waiting = true) (hk : s.seq.kind ≠ .idle) :
    ∃ u, SeqActs s u (seqTimedOut (fld (seqWord s) 20 16) s.seq) 5 [s.seq.trv, s.seq.step, fld (seqWord s) 20 16]
      ∧ seqTimeout s = if s.seq.kind = .fault then stepDone { step := s.seq.step } u else seqFault (thFlt (seqLive s) s.seq.trv) u := by
  refine ⟨_, (SeqQuiet.upd s _).logRec 5 _, ?_⟩
  exact if_pos (by simp [hd, hw, hk])

/-- A decision of an armed watch leaves its record, and its fault traverse follows. -/
theorem seqPgLost_acts {m : Fin 32} (hd : domOn s 2 = true) (hw : spGet 0 s.seq.watch m.val = n + 1) (hk : s.seq.kind ≠ .fault)
    (hm : (pgin (pgPins pins s)).testBit m.val = false) :
    ∃ u, SeqActs s u { s.seq with pg := pins, sflt := s.seq.sflt ||| 0x02, sis := s.seq.sis ||| 0x08, fltPg := m.val } 6 [m.val, n]
      ∧ seqPgLost m pins s = seqFault n u := by
  have he : seqPgLost m pins s = _ := if_pos (by simp [hd, hw, hk, hm])
  rw [hw, Nat.add_sub_cancel] at he
  exact ⟨_, (SeqQuiet.upd s _).logRec 6 _, he⟩

end Sys2Proof.Machine
end

section
/-! SUPPORT. The unwinding of a traverse (05 R213): the reverse of each step, the steps that are skipped, and the end. -/

namespace Sys2Proof.Machine

variable {s u : State} {r : SeqReq} {x : Undo} {pre l : List Undo} {pins : BitVec 32}

theorem undoSkip_iff : undoSkip s x = true
    ↔ undoWord s x / 2 ^ 28 = 7 ∨ (undoWord s x / 2 ^ 28 = 4 ∧ (undoWord s x).testBit 26 = false) := by
  simp [undoSkip]

theorem undoSkip_not (h7 : undoWord s x / 2 ^ 28 ≠ 7) (h4 : undoWord s x / 2 ^ 28 = 4 → (undoWord s x).testBit 26 = true) :
    undoSkip s x = false := by
  rw [← Bool.not_eq_true, undoSkip_iff]
  rintro (h | ⟨h, hb⟩)
  · exact h7 h
  · exact absurd ((h4 h).symm.trans hb) (by decide)

/-- SEQ after the reverse of a step, with l left to reverse. -/
def seqPopped (x : Undo) (l : List Undo) (q : Seq) : Seq := { q with undo := l, step := x.step, waiting := false }

section
variable (hd : domOn s 2 = true) (hk : s.seq.kind = .unwind)
include hd hk

theorem unwinding_not : ¬ (!(domOn (pgPins pins s) 2 && decide ((pgPins pins s).seq.kind = .unwind))) = true := by
  change ¬ (!(domOn s 2 && decide (s.seq.kind = .unwind))) = true
  simp [hd, hk]

/-- Only steps that are skipped are left. -/
theorem seqReverse_skips (h : ∀ y ∈ s.seq.undo, undoSkip s y = true) :
    seqReverse pins s = { s with seq := { s.seq with pg := pins, undo := [], waiting := false } } := by
  have hdrop : (pgPins pins s).seq.undo.dropWhile (undoSkip (pgPins pins s)) = [] := List.dropWhile_eq_nil_iff.mpr h
  refine (if_neg (unwinding_not hd hk)).trans ?_
  simp only [hdrop]
  rfl

variable (hu : s.seq.undo = pre ++ x :: l) (hpre : ∀ y ∈ pre, undoSkip s y = true) (hx : undoSkip s x = false)
include hu hpre hx

/-- The step that is reversed is the last completed one that is not skipped. -/
theorem seqReverse_step : seqReverse pins s = (let t := pgPins pins s; let w := undoWord s x
    if w / 2 ^ 28 = 1 ∨ w / 2 ^ 28 = 2 then { t with seq := seqPopped x l (psWrite x.mask x.old t).seq }
    else if w / 2 ^ 28 = 4 then (if waitMet t w = true then { t with seq := { t.seq with undo := x :: l, step := x.step, waiting := true } }
      else { t with seq := seqPopped x l t.seq })
    else if w / 2 ^ 28 = 5 then { t with seq := seqPopped x l { t.seq with watch := spSet 0 t.seq.watch x.pg x.oldWatch } }
    else { t with seq := seqPopped x l t.seq }) := by
  have hdrop : (pgPins pins s).seq.undo.dropWhile (undoSkip (pgPins pins s)) = x :: l := by
    change s.seq.undo.dropWhile (undoSkip s) = _
    rw [hu, List.dropWhile_append_of_pos hpre, List.dropWhile_cons, hx]
    rfl
  refine (if_neg (unwinding_not hd hk)).trans ?_
  simp only [hdrop, Bool.or_eq_true, decide_eq_true_eq]
  rfl

omit hx

/-- SET and SETG restore the PSOUT bits that they wrote. -/
theorem seqReverse_ps (ho : undoWord s x / 2 ^ 28 = 1 ∨ undoWord s x / 2 ^ 28 = 2) : seqReverse pins s
    = { s with seq := seqPopped x l { s.seq with pg := pins, psout := (psWrite x.mask x.old (pgPins pins s)).seq.psout } } :=
  (seqReverse_step hd hk hu hpre (undoSkip_not (by omega) (fun _ => by omega))).trans (if_pos ho)

theorem seqReverse_delay (ho : undoWord s x / 2 ^ 28 = 3) :
    seqReverse pins s = { s with seq := seqPopped x l { s.seq with pg := pins } } :=
  (seqReverse_step hd hk hu hpre (undoSkip_not (by omega) (fun _ => by omega))).trans
    ((if_neg (by omega)).trans ((if_neg (by omega)).trans (if_neg (by omega))))

/-- A WAITPG with UW = 1 whose PG is no longer at LEVEL is reversed. -/
theorem seqReverse_wait_over (ho : undoWord s x / 2 ^ 28 = 4) (hb : (undoWord s x).testBit 26 = true)
    (hl : waitMet (pgPins pins s) (undoWord s x) = false) : seqReverse pins s = { s with seq := seqPopped x l { s.seq with pg := pins } } :=
  (seqReverse_step hd hk hu hpre (undoSkip_not (by omega) (fun _ => hb))).trans
    ((if_neg (by omega)).trans ((if_pos ho).trans (if_neg (by simp [hl]))))

/-- One whose PG is still at LEVEL waits. -/
theorem seqReverse_wait (ho : undoWord s x / 2 ^ 28 = 4) (hb : (undoWord s x).testBit 26 = true)
    (hl : waitMet (pgPins pins s) (undoWord s x) = true) :
    seqReverse pins s = { s with seq := { s.seq with pg := pins, undo := x :: l, step := x.step, waiting := true } } :=
  (seqReverse_step hd hk hu hpre (undoSkip_not (by omega) (fun _ => hb))).trans ((if_neg (by omega)).trans ((if_pos ho).trans (if_pos hl)))

theorem seqReverse_watch (ho : undoWord s x / 2 ^ 28 = 5) : seqReverse pins s
    = { s with seq := seqPopped x l { s.seq with pg := pins, watch := spSet 0 s.seq.watch x.pg x.oldWatch } } :=
  (seqReverse_step hd hk hu hpre (undoSkip_not (by omega) (fun _ => by omega))).trans
    ((if_neg (by omega)).trans ((if_neg (by omega)).trans (if_pos ho)))

end

/-- SEQ after an unwind, before its pending target is taken. -/
def seqUnwound (q : Seq) : Seq := { q with kind := .idle, undo := [], pend := none, cfg := stgApplied q.cfg }

/-- The end of an unwind: the pending target is taken as a new request. -/
theorem seqUnwindEnd_eq (hd : domOn s 2 = true) (hk : s.seq.kind = .unwind) (h : ∀ y ∈ s.seq.undo, undoSkip s y = true)
    (hw : s.seq.waiting = false) : ∃ u, SeqQuiet s u (seqUnwound s.seq) ∧ seqUnwindEnd s = s.seq.pend.elim u (seqStart · u) := by
  refine ⟨_, (SeqQuiet.upd s (seqUnwound s.seq)).setHint 7, ?_⟩
  have hall : s.seq.undo.all (undoSkip s) = true := List.all_eq_true.mpr h
  refine (if_pos (by simp [hd, hk, hw, hall])).trans ?_
  rw [seqApplySet_eq]
  cases s.seq.pend <;> rfl

/-! ### SCUR (R201, R224) -/

theorem engWrite_scur {e : Eng} (v : Byte) (h : EngMay s e 0x1006 true) : engWrite e 0x1006 1 v.toNat s = { s with
    seq := if s.seq.kind = .idle ∧ seqCode (v.toNat % 16) = true then { s.seq with cur := v.toNat % 16 }
      else { s.seq with cfg := { s.seq.cfg with err := true } } } := by
  have hv : v.toNat % 256 = v.toNat := Nat.mod_eq_of_lt v.isLt
  rw [engWrite_byte (b := 0x1000) (r := 5) h rfl rfl rfl, hv]
  change seqWrite e.val 0x06 v.toNat s = _
  by_cases hk : s.seq.kind = .idle
  · cases hc : seqCode (v.toNat % 16) <;> simp [seqWrite, seqRun, hk, hc]
  · simp [seqWrite, seqRun, hk]

end Sys2Proof.Machine
end

section
/-! CERTIFICATE. The steps of a traverse, its timeouts, its unwinding and the registers of SEQ (05 R203, R204, R206 to R208, R211 to R213, R224,
R225). -/

namespace Sys2Proof.Machine

/-- Settles O52: a step is a change of SEQ with at most one record, END and the end of an unwind take their target by `seqStart`, and a
timeout or a lost power-good is a record with `seqFault` after it. -/
theorem traverseSteps : Obligations.TraverseSteps := by
  unfold Obligations.TraverseSteps
  refine fun pins m e v v4 s hd => ⟨?set, ?setg, ?delay, ?wait, ?follows, ?completes, ?watch, ?commit, ?mark, ?ends, ?endQueue, ?timeoutUnwind,
    ?timeoutNone, ?timeout, ?timeoutFault, ?lost, ?lostNone, ?reverse, ?skips, ?unwound, ?scur, ?scurRejected, ?psout, ?sstdat, ?sstdatReads⟩
  case set =>
    intro h
    exact ⟨_, congrArg Host.Outcome.next (if_pos (DueStep.due h hd)), rfl, fun i hi => psWrite_set (seqWord s) s hi⟩
  case setg =>
    intro h
    exact ⟨_, congrArg Host.Outcome.next (if_pos (DueStep.due h hd)), rfl, fun i hi => psWrite_setg (seqWord s) s hi⟩
  case delay => exact fun h => congrArg Host.Outcome.next (if_pos (DueStep.due h hd))
  case wait => exact fun h => congrArg Host.Outcome.next (seqWait_due (DueStep.due h hd))
  case follows => exact fun h => congrArg Host.Outcome.next (seqWaitDone_follows h)
  case completes => exact fun hk hw hm => congrArg Host.Outcome.next (seqWaitDone_completes hd hk hw hm)
  case watch =>
    intro h
    refine ⟨_, congrArg Host.Outcome.next (if_pos (DueStep.due h hd)), rfl, fun i => ?_⟩
    exact (spGet_spSet (fun _ => 0) _ _ _ _).trans (if_congr eq_comm rfl rfl)
  case commit => exact fun h => congrArg Host.Outcome.next (if_pos (DueStep.due h hd))
  case mark => exact fun h => (seqMark_acts (DueStep.due h hd)).does rfl
  case ends =>
    intro h hg
    obtain ⟨u, hu, he⟩ := seqEnd_acts (DueStep.due h hd)
    have ht := hu.upd (fun q => { q with queue := none })
    refine ht.does (congrArg Host.Outcome.next (he.trans (seqTakeQueue_goal ?_)))
    rw [hu.seq]
    exact hg
  case endQueue =>
    intro r h hr hg
    obtain ⟨u, hu, he⟩ := seqEnd_acts (DueStep.due h hd)
    have ht := hu.upd (fun q => { q with queue := none })
    have hx : exec .stepEnd s = .next (seqStart r { u with seq := { u.seq with queue := none } }) :=
      congrArg Host.Outcome.next (he.trans (seqTakeQueue_some (by rw [hu.seq]; exact hr)))
    refine ⟨fun hn => ?_, fun n hen hf => ?_⟩
    · have hs := seqStart_turned (s := s) ht.seq hg hn
      exact ⟨_, hx, hs.seq, ht.logsTwo hs, ht.rest.trans hs.rest⟩
    · have hs := seqStart_starts (s := s) ht.seq hg hen hf
      exact ⟨_, hx, hs.seq, ht.logsTwo hs, ht.rest.trans hs.rest⟩
  case timeoutUnwind =>
    intro hw hk hv hf
    obtain ⟨u, hu, he⟩ := seqTimeout_acts hd hw (by rw [hk]; decide)
    have ht := hu.faults rfl hv hf
    refine ⟨_, congrArg Host.Outcome.next (he.trans (if_neg (by rw [hk]; decide))), ht.seq.trans ?_, ht.logs, ht.rest⟩
    cases hp : s.seq.pend <;> simp [seqFaulted, seqTimedOut, faultQueue, hk, hp]
  case timeoutNone =>
    intro hw hk hp hq hv
    have hne : s.seq.kind ≠ .idle ∧ s.seq.kind ≠ .fault := by rcases hk with hk | hk <;> simp [hk]
    obtain ⟨u, hu, he⟩ := seqTimeout_acts hd hw hne.1
    have hnone : faultQueue (seqTimedOut (fld (seqWord s) 20 16) s.seq) = none := faultQueue_none hp hq
    have ht := hu.faults_idle rfl hv hnone
    refine ⟨_, congrArg Host.Outcome.next (he.trans (if_neg hne.2)), ht.seq.trans ?_, ht.logs, ht.rest⟩
    cases hx : s.seq.cfg.pnd <;> simp only [seqFaulted, hnone] <;> simp [seqTimedOut, hq, stgApplied, hx]
  case timeout =>
    intro hw hk hv hf
    obtain ⟨u, hu, he⟩ := seqTimeout_acts hd hw (by rw [hk]; decide)
    have ht := hu.faults rfl hv hf
    refine ⟨_, congrArg Host.Outcome.next (he.trans (if_neg (by rw [hk]; decide))), ht.seq.trans ?_, ht.logs, ht.rest⟩
    simp [seqFaulted, seqTimedOut, faultQueue, hk]
  case timeoutFault =>
    intro hw hk
    obtain ⟨u, hu, he⟩ := seqTimeout_acts hd hw (by rw [hk]; decide)
    have ht := hu.upd (seqDone { step := s.seq.step })
    refine ⟨_, congrArg Host.Outcome.next (he.trans (if_pos hk)), ht.seq.trans ?_, ht.logs, ht.rest⟩
    simp [seqDone, seqTimedOut, hk]
  case lost =>
    intro n hw hk hm hv hf
    obtain ⟨u, hu, he⟩ := seqPgLost_acts hd hw (by rcases hk with hk | hk <;> simp [hk]) hm
    have ht := hu.faults rfl hv hf
    refine ⟨_, congrArg Host.Outcome.next he, ht.seq.trans ?_, ht.logs, ht.rest⟩
    rcases hk with hk | hk <;> simp [seqFaulted, faultQueue, hk]
  case lostNone =>
    intro n x hw hk hm hv hq hx
    obtain ⟨u, hu, he⟩ := seqPgLost_acts hd hw (by rcases hk with hk | hk <;> simp [hk]) hm
    have ht := hu.faults_idle rfl hv ((faultQueue_of_ne (by rcases hk with hk | hk <;> simp [hk])).trans hq)
    refine ⟨_, congrArg Host.Outcome.next he, congrArg Seq.kind ht.seq, (congrArg Seq.cfg ht.seq).trans ?_, congrArg Seq.watch ht.seq,
      congrArg Seq.sflt ht.seq, (congrArg Seq.cur ht.seq).trans rfl, ht.rest⟩
    simp [stgApplied, hx]
  case reverse =>
    intro pre x l hk hu hpre
    have hskip : ∀ y ∈ pre, undoSkip s y = true := fun y hy => undoSkip_iff.mpr (hpre y hy)
    refine ⟨fun ho => ?_, fun ho => ?_, fun ho hb => ⟨fun hl => ?_, fun hl => ?_⟩, fun ho => ?_⟩
    · exact ⟨_, congrArg Host.Outcome.next (seqReverse_ps hd hk hu hskip ho), rfl, fun i hi => psWrite_testBit _ _ (pgPins pins s) hi⟩
    · exact congrArg Host.Outcome.next (seqReverse_delay hd hk hu hskip ho)
    · exact congrArg Host.Outcome.next (seqReverse_wait_over hd hk hu hskip ho hb (decide_eq_false hl))
    · exact congrArg Host.Outcome.next (seqReverse_wait hd hk hu hskip ho hb (decide_eq_true hl))
    · refine ⟨_, congrArg Host.Outcome.next (seqReverse_watch hd hk hu hskip ho), rfl, fun i => ?_⟩
      exact (spGet_spSet (fun _ => 0) _ _ _ _).trans (if_congr eq_comm rfl rfl)
  case skips => exact fun hk h => congrArg Host.Outcome.next (seqReverse_skips hd hk (fun y hy => undoSkip_iff.mpr (h y hy)))
  case unwound =>
    intro hk h hw
    obtain ⟨u, hu, he⟩ := seqUnwindEnd_eq hd hk (fun y hy => undoSkip_iff.mpr (h y hy)) hw
    refine ⟨fun hp => ?_, fun r hp hg => ?_⟩
    · have hx : seqUnwindEnd s = u := by
        rw [he]
        rcases hp with hp | hp
        · rw [hp]
          rfl
        · obtain ⟨r, hr, hg⟩ := Option.map_eq_some_iff.mp hp
          rw [hr]
          exact seqStart_same (by rw [hu.seq]; exact hg)
      exact ⟨u, congrArg Host.Outcome.next hx, hu.seq, hu.rest, hu.fbk⟩
    · have hx : exec .unwindEnd s = .next (seqStart r u) := congrArg Host.Outcome.next (by rw [he, hp]; rfl)
      refine ⟨fun hn => ?_, fun n hen hf => ?_⟩
      · exact (hu.acts (seqStart_turned (s := s) hu.seq hg hn)).does hx
      · exact (hu.acts (seqStart_starts (s := s) hu.seq hg hen hf)).does hx
  case scur =>
    intro h hk hc
    exact congrArg Host.Outcome.next ((engWrite_scur v h).trans (by rw [if_pos ⟨hk, hc⟩]))
  case scurRejected =>
    intro h hn
    exact congrArg Host.Outcome.next ((engWrite_scur v h).trans (by rw [if_neg (by rcases hn with hn | hn <;> simp [hn])]))
  case psout => exact fun h => (engWrite_psout h v4).imp fun _ => congrArg Host.Outcome.next
  case sstdat => exact fun h => (engWrite_sstdat h v4).imp fun _ => congrArg Host.Outcome.next
  case sstdatReads => exact fun n h => sstdat_readBoth (fun k hk => (h k hk).1) (fun k hk => (h k hk).2)

end Sys2Proof.Machine
end

section
/-! SUPPORT. Registers of one byte whose read acts: the reads of two engines on one edge (00 R38), of which the first alone acts. -/

namespace Sys2Proof.Machine

/-- The I/O address a holds a register of one byte of region r at base b: shared by the engines, refused to none, and its read acts. -/
structure ActingByte (a b r : Nat) : Prop where
  above : b ≤ a
  region : ioRegion a = (b, r)
  shared : perEng r (a - b) = false
  span : ∀ s, spanAt r (a - b) s = { lo := a - b, len := 1 }
  free : ∀ s e, readRefused s e a = false
  acts : readActs a = true

namespace ActingByte

variable {e n : Eng} {a b r v x : Nat} {s t : State} {again : Bool}

/-- An engine reads the byte, whatever its read leaves. -/
theorem engRead_whole (i : ActingByte a b r) (h : EngMay s e a false) (hg : ioGet (.ce e) e a s again = (t, x)) :
    engRead e a 1 s again = withIo { t.io with rd := t.io.rd.set e (x % 256) } t := by
  have hr : engRead e a 1 s again = inBytes e again a 1 [] s := by
    obtain ⟨hrun, -, -, hbad, -⟩ := h
    rw [engRead, if_pos hrun, engCount_eq hbad, afterKick_none hbad]
  rw [hr, IndexedPair.inBytes_succ h (i.free s e), hg]
  rfl

/-- The first read on an edge gives the register's value, takes its effect and is noted. -/
theorem ioGet_noted (i : ActingByte a b r) (hv : regRead e r (a - b) s = (t, v)) :
    ioGet (.ce e) e a s = (withIo { t.io with was := spSet none t.io.was a (some v) } t, v) := by
  rw [ioGet_byte i.above i.region (i.span s), hv, i.shared]
  simp [readNote, i.acts, withIo]

/-- Two engines read the register on one edge: both get its value, and its read acts once. -/
theorem readBoth (i : ActingByte a b r) (hv : regRead e r (a - b) s = (t, v)) (h : EngMay s e a false) (hn : ∀ y, EngMay (withIo y t) n a false) :
    ∃ y z, engRead e a 1 s = withIo y t ∧ y.rd[e] = v % 256 ∧ engRead n a 1 (withIo y t) true = withIo z t ∧ z.rd[n] = v % 256 := by
  have hfirst := i.engRead_whole h (i.ioGet_noted (e := e) hv)
  have hagain : ∀ y : IoBuf, spGet none y.was a = some v → ioGet (.ce n) n a (withIo y t) true = (withIo y t, v) := fun y hy =>
    ioGet_again i.region (i.span _) (by rw [i.shared]; simpa [readWas] using hy)
  have hsecond := fun y hy => i.engRead_whole (hn y) (hagain y hy)
  exact ⟨_, _, hfirst, by simp, hsecond _ (spGet_spSet_some ..), by simp⟩

end ActingByte

end Sys2Proof.Machine
end

section
/-! SUPPORT. The SMBus controllers (06 R256 to R259): the accesses of their registers, and how each end of a transaction leaves its
controller. -/

namespace Sys2Proof.Machine

variable {e n : Eng} {c : Fin 4} {s : State} {q : Smb}

/-! ### Registers (R259) -/

/-- A write of SMCMD, SMDAT or SMABORT by an engine. -/
theorem engWrite_smb {off : Nat} (ho : off = 2 ∨ off = 7 ∨ off = 0xE) (h : EngMay s e (0x2400 + off + 0x40 * c.val) true) {v : Nat} (hv : v < 256) :
    engWrite e (0x2400 + off + 0x40 * c.val) 1 v s = smbWrite c off v s := by
  have hm : v % 256 = v := Nat.mod_eq_of_lt hv
  have hw : engWrite e (0x2400 + off + 0x40 * c.val) 1 v s = smbWrite c off (v % 256) s := by
    rcases ho with rfl | rfl | rfl <;> fin_cases c <;> exact engWrite_byte (b := 0x2400) (r := 11) h rfl rfl rfl
  rw [hw, hm]

/-- SMDAT (R259). -/
theorem smdat_acting (c : Fin 4) : ActingByte (0x2407 + 0x40 * c.val) 0x2400 11 := by
  fin_cases c <;> exact ⟨by decide, rfl, rfl, fun _ => rfl, fun _ _ => rfl, by decide⟩

/-- Two engines read SMDAT on one edge (R38, log entry 2). -/
theorem smdat_readBoth (h : EngMay s e (0x2407 + 0x40 * c.val) false) (hn : EngMay s n (0x2407 + 0x40 * c.val) false) :
    ReadBoth (.smdatAccess · c none ·) e n (spGet 0 s.smb[c].buf s.smb[c].ptr % 256) s
      (putSmb c { s.smb[c] with ptr := (s.smb[c].ptr + 1) % 256 } s) := by
  have hv : regRead e 11 (0x2407 + 0x40 * c.val - 0x2400) s
      = (putSmb c { s.smb[c] with ptr := (s.smb[c].ptr + 1) % 256 } s, spGet 0 s.smb[c].buf s.smb[c].ptr) := by
    fin_cases c <;> rfl
  obtain ⟨y, z, h1, h2, h3, h4⟩ := (smdat_acting c).readBoth hv h (fun y => hn.withIo y)
  exact ⟨y, z, congrArg Host.Outcome.next h1, h2, congrArg Host.Outcome.next h3, h4⟩

/-- GO with PROT p (R256). -/
theorem smbWrite_go {p : Nat} (hp : p < 16) : smbWrite c 2 (16 * p + 1) s = smbGo c p s := by
  interval_cases p <;> rfl

theorem smbGo_starts {p : Nat} (hp : p ≠ 0) (hb : s.smb[c].busy = false) (hl : p = 9 ∨ p = 0xB → s.smb[c].len ≠ 0) :
    smbGo c p s = putSmb c { s.smb[c] with busy := true, prot := p, lost := !s.gpio.viom } s := by
  refine if_neg ?_
  simp only [hb, hp, Bool.false_or, decide_false, Bool.and_eq_true, Bool.or_eq_true, decide_eq_true_eq, not_and]
  exact hl

theorem smbGo_rejected {p : Nat} (h : s.smb[c].busy = true ∨ (p = 9 ∨ p = 0xB) ∧ s.smb[c].len = 0) :
    smbGo c p s = putSmb c { s.smb[c] with err := true } s := by
  refine if_pos ?_
  simp only [Bool.and_eq_true, Bool.or_eq_true, decide_eq_true_eq]
  exact h.imp .inl id

/-- The command of a protocol, which writes SMCMD with GO (R256). -/
theorem smbStarts (p : Nat) {i : Instr} (hi : exec i s = .next (engWrite e (0x2402 + 0x40 * c.val) 1 (16 * p + 1) s)) (hp : 0 < p ∧ p < 16)
    (h : EngMay s e (0x2402 + 0x40 * c.val) true) :
    (s.smb[c].busy = false → (p = 9 ∨ p = 0xB → s.smb[c].len ≠ 0) →
      exec i s = .next (putSmb c { s.smb[c] with busy := true, prot := p, lost := !s.gpio.viom } s))
    ∧ (s.smb[c].busy = true ∨ (p = 9 ∨ p = 0xB) ∧ s.smb[c].len = 0 → exec i s = .next (putSmb c { s.smb[c] with err := true } s)) := by
  have hw : exec i s = .next (smbGo c p s) := by rw [hi, engWrite_smb (.inl rfl) h (by omega), smbWrite_go hp.2]
  exact ⟨fun hb hl => hw.trans (congrArg _ (smbGo_starts hp.1.ne' hb hl)), fun hr => hw.trans (congrArg _ (smbGo_rejected hr))⟩

theorem smbWrite_dat (v : Byte) : smbWrite c 7 v.toNat s = putSmb c
    (if s.smb[c].busy then { s.smb[c] with err := true }
     else { s.smb[c] with buf := spSet 0 s.smb[c].buf s.smb[c].ptr v.toNat, ptr := (s.smb[c].ptr + 1) % 256 }) s := by
  have hv : v.toNat % 256 = v.toNat := Nat.mod_eq_of_lt v.isLt
  simp only [smbWrite, hv]
  cases s.smb[c].busy <;> rfl

/-! ### Ends (R257) -/

/-- The bank of controller c has its supply, and has not lost it in the transaction (R257, R483). -/
def SmbLive (s : State) (c : Fin 4) : Prop := s.gpio.viom = true ∧ s.smb[c].lost = false

/-- Controller q after the end of a transaction with a result code and a count of data bytes. -/
def smbEnded (code bcnt : Nat) (q : Smb) : Smb :=
  { q with busy := false, res := q.prot * 16 + code, smis := q.smis ||| 1, bcnt := min 255 bcnt, busflt := code == 7 }

theorem smbLive_iff : (s.smb[c].lost || !bankM s) = false ↔ SmbLive s c := by
  simp [SmbLive, bankM, and_comm]

theorem SmbLive.runs (h : SmbLive s c) : (false || s.smb[c].lost || !bankM s) = false := smbLive_iff.mpr h

theorem smbEnd_eq (code bcnt : Nat) (s : State) :
    smbEnd c code bcnt s = putSmb c (smbEnded (if s.smb[c].lost || !bankM s then 7 else code) bcnt s.smb[c]) s := rfl

theorem smbEnd_live (h : SmbLive s c) (code bcnt : Nat) : smbEnd c code bcnt s = putSmb c (smbEnded code bcnt s.smb[c]) s := by
  rw [smbEnd_eq, smbLive_iff.mpr h]
  rfl

/-- The end of a transaction whose received bytes have changed the controller. -/
theorem smbEnd_putSmb (h : SmbLive s c) (hq : q.lost = s.smb[c].lost) (code bcnt : Nat) :
    smbEnd c code bcnt (putSmb c q s) = putSmb c (smbEnded code bcnt q) s := by
  have hl : SmbLive (putSmb c q s) c := ⟨h.1, by rw [putSmb_self, hq, h.2]⟩
  rw [smbEnd_live hl, putSmb_self]
  simp [putSmb]

theorem smbEnd_seven (code bcnt : Nat) (h : code = 7 ∨ ¬ SmbLive s c) : smbEnd c code bcnt s = putSmb c (smbEnded 7 bcnt s.smb[c]) s := by
  rw [smbEnd_eq]
  split
  · rfl
  · next hl => rw [h.resolve_right (fun k => k (smbLive_iff.mp (by simpa using hl)))]

/-- An early end with a code of its own, and BUS_FAULT where the bank is lost. -/
theorem smbEnd_early (code bcnt : Nat) (s : State) : smbEnd c code bcnt s
    = putSmb c (smbEnded (if s.gpio.viom = true ∧ s.smb[c].lost = false then code else 7) bcnt s.smb[c]) s := by
  by_cases h : SmbLive s c
  · rw [smbEnd_live h, if_pos (show s.gpio.viom = true ∧ s.smb[c].lost = false from h)]
  · rw [smbEnd_seven code bcnt (.inr h), if_neg (show ¬ (s.gpio.viom = true ∧ s.smb[c].lost = false) from h)]

theorem smbEarly_busy (hd : domOn s (smbDom c) = true) (hb : s.smb[c].busy = true) (code bcnt : Nat) :
    smbEarly c code bcnt s = smbEnd c code bcnt s := if_pos (by rw [hd, hb]; rfl)

theorem smbEarly_free (hb : s.smb[c].busy = false) (code bcnt : Nat) : smbEarly c code bcnt s = s := if_neg (by rw [hb, Bool.and_false]; decide)

/-! ### The bytes of a transaction (R256) -/

/-- Byte i that the target sends; one that it does not send reads 0xFF. -/
def smbByte (rx : List Byte) (i : Nat) : Nat := match rx[i]? with | some b => b.toNat | none => 0xFF

/-- The written bytes that a transaction waits for to be acknowledged after its address. -/
def smbWritten (q : Smb) : Nat := (smbSent q).length - 1

/-- A transaction that only writes sends its PEC after its bytes. -/
theorem smbSent_writes (hp : q.prot ∈ [2, 4, 5, 9, 0xC, 0xE]) :
    smbSent q = q.addr / 2 * 2 :: smbTx q ++ (if q.pec then [smbPec (q.addr / 2 * 2 :: smbTx q)] else []) := by
  have h1 : q.prot ≠ 1 ∧ q.prot ≠ 3 ∧ smbRx q.prot = none := by
    simp only [List.mem_cons, List.not_mem_nil, or_false] at hp
    rcases hp with h | h | h | h | h | h <;> simp [h, smbRx]
  obtain ⟨h1, h3, hr⟩ := h1
  cases hq : q.pec <;> simp [smbSent, h1, h3, hr, hq]

theorem smbSent_quick (hp : q.prot = 1) : smbSent q = [q.addr] := by
  simp only [smbSent, hp, if_true, List.cons.injEq, and_true]
  omega

theorem smbWritten_writes (hp : q.prot ∈ [1, 2, 4, 5, 9, 0xC, 0xE]) :
    smbWritten q = (smbTx q).length + (if q.pec = true ∧ q.prot ≠ 1 then 1 else 0) := by
  rcases List.mem_cons.mp hp with h1 | hp
  · simp [smbWritten, smbSent_quick h1, smbTx, h1]
  · have h1 : q.prot ≠ 1 := by rintro h; simp [h] at hp
    cases hq : q.pec <;> simp [smbWritten, smbSent_writes hp, hq, h1]

theorem smbRx_writes (hp : q.prot ∈ [1, 2, 4, 5, 9, 0xC, 0xE]) : smbRx q.prot = none := by
  simp only [List.mem_cons, List.not_mem_nil, or_false] at hp
  rcases hp with h | h | h | h | h | h | h <;> simp [h, smbRx]

/-- A transaction with a read phase sends no PEC of its own. -/
theorem smbWritten_reads (hr : (smbRx q.prot).isSome = true) : smbWritten q = (smbTx q).length := by
  have h1 : q.prot ≠ 1 := by rintro h; simp [h, smbRx] at hr
  have hn : (smbRx q.prot).isNone = false := by simpa using hr
  by_cases h3 : q.prot = 3
  · simp [smbWritten, smbSent, smbTx, h3]
  · simp [smbWritten, smbSent, h1, h3, hn]

/-- The bytes that the PEC of a read covers before the read ones. -/
def smbLead (q : Smb) : List Nat := (if q.prot = 3 then [] else q.addr / 2 * 2 :: smbTx q) ++ [q.addr / 2 * 2 + 1]

/-- Controller q after a read phase of k data bytes, or of a block where k is none. -/
def smbReceived (k : Option Nat) (rx : List Byte) (q : Smb) : Smb :=
  let cnt := k.getD (smbByte rx 0)
  let base := if k.isNone then 1 else 0
  let dat := (upTo cnt).map (fun i => smbByte rx (base + i))
  let wrote := (smbTx q).length - smbHead q.prot
  let lead := smbLead q ++ if k.isNone then [cnt] else []
  if k.isNone && cnt = 0 then smbEnded 8 wrote { q with len := 0 }
  else smbEnded (if !q.pec || smbPec (lead ++ dat) = smbByte rx (base + cnt) then 0 else 4)
    ((if q.prot = 8 || q.prot = 0xB then wrote else 0) + cnt)
    { q with buf := smbFill dat q.buf, len := if k.isNone then cnt else q.len }

/-! ### The end of a transaction that has run to its STOP (R256, R257) -/

section
variable (hd : domOn s (smbDom c) = true) (hb : s.smb[c].busy = true)
include hd hb

variable {ackA ackB : Bool} {acked : Nat} {rx : List Byte}

theorem smbFinish_lost {stuck : Bool} (h : stuck = true ∨ ¬ SmbLive s c) : smbFinish c ackA ackB acked rx stuck s
    = putSmb c (smbEnded 7 (min acked (smbTx s.smb[c]).length - smbHead s.smb[c].prot) s.smb[c]) s := by
  have hc : (stuck || s.smb[c].lost || !bankM s) = true := by
    rw [Bool.or_assoc, Bool.or_eq_true, ← Bool.not_eq_false (s.smb[c].lost || !bankM s), smbLive_iff]
    exact h
  rw [← smbEnd_seven 7 _ (.inl rfl)]
  simp only [smbFinish, hd, hb, hc]
  rfl

variable (hl : SmbLive s c)
include hl

theorem smbFinish_address_nack (ha : ackA = false) : smbFinish c ackA ackB acked rx false s = putSmb c (smbEnded 1 0 s.smb[c]) s := by
  rw [← smbEnd_live hl]
  simp only [smbFinish, hd, hb, hl.runs, ha]
  rfl

variable (ha : ackA = true)
include ha

theorem smbFinish_data_nack (hn : acked < smbWritten s.smb[c]) : smbFinish c ackA ackB acked rx false s
    = putSmb c (smbEnded 2 (min acked (smbTx s.smb[c]).length - smbHead s.smb[c].prot) s.smb[c]) s := by
  rw [smbWritten] at hn
  rw [← smbEnd_live hl]
  simp only [smbFinish, hd, hb, hl.runs, ha, hn, if_true]
  rfl

theorem smbFinish_written (hn : smbWritten s.smb[c] ≤ acked) (hr : smbRx s.smb[c].prot = none) : smbFinish c ackA ackB acked rx false s
    = putSmb c (smbEnded 0 ((smbTx s.smb[c]).length - smbHead s.smb[c].prot) s.smb[c]) s := by
  have hn' : ¬ acked < (smbSent s.smb[c]).length - 1 := not_lt.mpr hn
  rw [← smbEnd_live hl]
  simp only [smbFinish, hd, hb, hl.runs, ha, hn', hr, if_false]
  rfl

variable (hn : (smbTx s.smb[c]).length ≤ acked)
include hn

theorem smbFinish_restart_nack (hr : (smbRx s.smb[c].prot).isSome = true) (h3 : s.smb[c].prot ≠ 3) (hB : ackB = false) :
    smbFinish c ackA ackB acked rx false s
      = putSmb c (smbEnded 1 ((smbTx s.smb[c]).length - smbHead s.smb[c].prot) s.smb[c]) s := by
  have hn' : ¬ acked < (smbSent s.smb[c]).length - 1 := not_lt.mpr (by rwa [← smbWritten, smbWritten_reads hr])
  obtain ⟨w, hw⟩ := Option.isSome_iff_exists.mp hr
  have h3' : (decide (s.smb[c].prot ≠ 3) && !ackB) = true := by rw [hB, decide_eq_true h3]; rfl
  rw [← smbEnd_live hl]
  simp only [smbFinish, hd, hb, hl.runs, ha, hn', hw, h3', Nat.min_eq_right hn, if_false]
  rfl

/-- The read phase, of a fixed count or of a block. -/
theorem smbFinish_reads {k : Option Nat} (hr : smbRx s.smb[c].prot = some k) (hB : ackB = true ∨ s.smb[c].prot = 3) :
    smbFinish c ackA ackB acked rx false s = putSmb c (smbReceived k rx s.smb[c]) s := by
  have hr' : (smbRx s.smb[c].prot).isSome = true := by rw [hr]; rfl
  have hn' : ¬ acked < (smbSent s.smb[c]).length - 1 := not_lt.mpr (by rwa [← smbWritten, smbWritten_reads hr'])
  have hB' : ¬ (decide (s.smb[c].prot ≠ 3) && !ackB) = true := by
    rw [Bool.and_eq_true, decide_eq_true_eq, Bool.not_eq_true']
    rintro ⟨h3, hA⟩
    rcases hB with h | h
    · rw [hA] at h; cases h
    · exact h3 h
  unfold smbFinish
  dsimp only
  rw [if_neg (by rw [hd, hb]; decide), if_neg (Bool.eq_false_iff.mp hl.runs), if_neg (by rw [ha]; decide), if_neg hn', hr]
  dsimp only
  rw [if_neg hB', smbEnd_putSmb hl, smbEnd_putSmb hl, Nat.min_eq_right hn, smbReceived, apply_ite (fun q => putSmb c q s)]
  · cases k <;> rfl
  · rfl
  · rfl

end

/-! ### What a read phase leaves (R256, R257) -/

theorem pecCode_eq (pec : Bool) (x y : Nat) : (if !pec || decide (x = y) then 0 else 4) = if pec = true ∧ x ≠ y then 4 else 0 := by
  cases pec <;> by_cases h : x = y <;> simp [h]

theorem pecCode_off {pec : Bool} {x y : Nat} (h : pec = false) : (if pec = true ∧ x ≠ y then 4 else 0) = 0 :=
  if_neg fun k => Bool.eq_false_iff.mp h k.1

theorem pecCode_on {pec : Bool} {x y : Nat} (h : pec = true) : (if pec = true ∧ x ≠ y then 4 else 0) = if x = y then 0 else 4 := by
  rw [← pecCode_eq, h]
  simp

theorem smbReceived_fixed {k : Nat} {rx : List Byte} (hr : smbRx q.prot = some (some k)) : smbReceived (some k) rx q = smbEnded
    (if q.pec = true ∧ smbPec (smbLead q ++ (upTo k).map (smbByte rx)) ≠ smbByte rx k then 4 else 0)
    ((if q.prot = 8 then (smbTx q).length - smbHead q.prot else 0) + k)
    { q with buf := smbFill ((upTo k).map (smbByte rx)) q.buf } := by
  have hB : q.prot ≠ 0xB := by rintro h; simp [h, smbRx] at hr
  rw [← pecCode_eq]
  simp [smbReceived, hB]

/-- Read Word. -/
theorem smbReceived_word (hp : q.prot = 7) (a b : Byte) (l : List Byte) : smbReceived (some 2) (a :: b :: l) q = smbEnded
    (if q.pec = true ∧ smbPec [q.addr / 2 * 2, q.code, q.addr / 2 * 2 + 1, a.toNat, b.toNat] ≠ smbByte (a :: b :: l) 2 then 4 else 0) 2
    { q with buf := spSet 0 (spSet 0 q.buf 0 a.toNat) 1 b.toNat } := by
  have hr : smbRx q.prot = some (some 2) := by rw [hp]; rfl
  have hlead : smbLead q = [q.addr / 2 * 2, q.code, q.addr / 2 * 2 + 1] := by rw [smbLead, smbTx, hp]; rfl
  have hdat : (upTo 2).map (smbByte (a :: b :: l)) = [a.toNat, b.toNat] := rfl
  have hfill : smbFill [a.toNat, b.toNat] q.buf = spSet 0 (spSet 0 q.buf 0 (a.toNat % 256)) 1 (b.toNat % 256) := rfl
  have h8 : q.prot ≠ 8 := by omega
  rw [smbReceived_fixed hr, hdat, hfill, Nat.mod_eq_of_lt a.isLt, Nat.mod_eq_of_lt b.isLt, hlead, if_neg h8]
  rfl

theorem smbReceived_empty {rx : List Byte} (h0 : smbByte rx 0 = 0) :
    smbReceived none rx q = smbEnded 8 ((smbTx q).length - smbHead q.prot) { q with len := 0 } := by
  simp [smbReceived, h0]

theorem smbReceived_block {rx : List Byte} (hp : q.prot = 0xA ∨ q.prot = 0xB) (h0 : smbByte rx 0 ≠ 0) : smbReceived none rx q = smbEnded
    (if q.pec = true ∧ smbPec (smbLead q ++ [smbByte rx 0] ++ (upTo (smbByte rx 0)).map (fun i => smbByte rx (1 + i)))
      ≠ smbByte rx (1 + smbByte rx 0) then 4 else 0)
    ((if q.prot = 0xB then (smbTx q).length - smbHead q.prot else 0) + smbByte rx 0)
    { q with buf := smbFill ((upTo (smbByte rx 0)).map (fun i => smbByte rx (1 + i))) q.buf, len := smbByte rx 0 } := by
  have h8 : q.prot ≠ 8 := by omega
  rw [← pecCode_eq]
  simp [smbReceived, h0, h8]

/-! ### Other events (R257 to R259) -/

theorem smbFinish_free {ackA ackB stuck : Bool} {acked : Nat} {rx : List Byte} (hb : s.smb[c].busy = false) :
    smbFinish c ackA ackB acked rx stuck s = s := if_pos (by rw [hb, Bool.not_false, Bool.or_true])

/-- The write of SMABORT (R257, log entry 13). -/
theorem smbWrite_abort (hb : s.smb[c].busy = true) : ∃ n, smbWrite c 0xE 1 s = { putSmb c (smbEnded
    (if s.gpio.viom = true ∧ s.smb[c].lost = false then 6 else 7) n s.smb[c]) s with free := s.free + 1 } :=
  ⟨_, (if_pos hb).trans (smbEnd_early 6 _ _)⟩

theorem smbWrite_abort_free (hb : s.smb[c].busy = false) : smbWrite c 0xE 1 s = s := if_neg (Bool.eq_false_iff.mp hb)

/-- A controller takes a notification (R258). -/
def SmbTakes (s : State) (c : Fin 4) : Prop :=
  s.gpio.viom = true ∧ s.smb[c].en = true ∧ s.smb[c].hnen = true ∧ (s.smb[c].busy = false ∨ s.smb[c].busbusy = true) ∧ s.smb[c].smis.testBit 1 = false

theorem smbNotify_iff (hd : domOn s (smbDom c) = true) : (domOn s (smbDom c) && bankM s && s.smb[c].en && s.smb[c].hnen
    && (!s.smb[c].busy || s.smb[c].busbusy) && !s.smb[c].smis.testBit 1) = true ↔ SmbTakes s c := by
  simp only [hd, bankM, SmbTakes, Bool.true_and, Bool.and_eq_true, Bool.or_eq_true, Bool.not_eq_true', and_assoc]

theorem smbBus_eq (hd : domOn s (smbDom c) = true) (start : Bool) :
    smbBus c start s = if s.gpio.viom = true then putSmb c { s.smb[c] with busbusy := start } s else s := by
  rw [smbBus, hd, Bool.true_and]
  rfl

end Sys2Proof.Machine
end

section
/-! CERTIFICATE. The SMBus controllers (06 R256 to R259). -/

namespace Sys2Proof.Machine

/-- Settles O55: each protocol is a write of SMCMD, an end of a transaction is `smbEnded` of the controller as its received bytes have left
it, and the registers are read and written by byte. -/
theorem smbusControllers : Obligations.SmbusControllers := by
  unfold Obligations.SmbusControllers
  intro e c ackA ackB acked a b x rx dat start s hd
  refine ⟨?go, fun hb => ⟨?stuck, ?lost, fun hl => ⟨?ackA, ?writes, ?readWord, ?dataNack, ?restartNack, ?fixed, ?block⟩⟩, ?sent, ?quick, ?early,
    ?free, ?abort, ?notify, ?write, fun n => smdat_readBoth, ?bus⟩
  case go =>
    exact ⟨smbStarts 1 rfl (by decide), smbStarts 2 rfl (by decide), smbStarts 3 rfl (by decide),
      smbStarts 4 rfl (by decide), smbStarts 5 rfl (by decide), smbStarts 6 rfl (by decide),
      smbStarts 7 rfl (by decide), smbStarts 8 rfl (by decide), smbStarts 9 rfl (by decide),
      smbStarts 0xA rfl (by decide), smbStarts 0xB rfl (by decide), smbStarts 0xC rfl (by decide),
      smbStarts 0xD rfl (by decide), smbStarts 0xE rfl (by decide), smbStarts 0xF rfl (by decide)⟩
  case stuck => exact congrArg Host.Outcome.next (smbFinish_lost hd hb (.inl rfl))
  case lost => exact fun hl w st => congrArg Host.Outcome.next (smbFinish_lost hd hb (.inr hl))
  case ackA => exact fun ha => congrArg Host.Outcome.next (smbFinish_address_nack hd hb hl ha)
  case writes =>
    intro ha hp
    rw [← smbWritten_writes hp]
    exact ⟨fun hn => congrArg Host.Outcome.next (smbFinish_written hd hb hl ha hn (smbRx_writes hp)),
      fun hn => congrArg Host.Outcome.next (smbFinish_data_nack hd hb hl ha hn)⟩
  case readWord =>
    intro ha hB hp hn
    have hr : smbRx s.smb[c].prot = some (some 2) := by rw [hp]; rfl
    have htx : (smbTx s.smb[c]).length ≤ acked := by rwa [smbTx, hp]
    have hread := fun l => (smbFinish_reads (rx := a :: b :: l) hd hb hl ha htx hr (.inl hB)).trans (by rw [smbReceived_word hp])
    exact ⟨fun hq => congrArg Host.Outcome.next ((hread []).trans (by rw [pecCode_off hq]; rfl)),
      fun hq => congrArg Host.Outcome.next ((hread [x]).trans (by rw [pecCode_on hq]; rfl))⟩
  case dataNack =>
    intro ha hr hn
    have h := smbFinish_data_nack (ackB := ackB) (rx := rx) hd hb hl ha (by rwa [smbWritten_reads hr])
    rw [Nat.min_eq_left hn.le] at h
    exact congrArg Host.Outcome.next h
  case restartNack =>
    exact fun ha hr h3 hn hB => congrArg Host.Outcome.next (smbFinish_restart_nack hd hb hl ha hn hr h3 hB)
  case fixed =>
    intro k ha hB hr hn
    exact congrArg Host.Outcome.next ((smbFinish_reads hd hb hl ha hn hr hB).trans (by rw [smbReceived_fixed hr]; rfl))
  case block =>
    intro ha hB hp hn
    have hr : smbRx s.smb[c].prot = some none := by rcases hp with h | h <;> rw [h] <;> rfl
    have hread := smbFinish_reads (rx := rx) hd hb hl ha hn hr (.inl hB)
    exact ⟨fun h0 => congrArg Host.Outcome.next (hread.trans (by rw [smbReceived_empty h0]; rfl)),
      fun h0 => congrArg Host.Outcome.next (hread.trans (by rw [smbReceived_block hp h0]; rfl))⟩
  case sent =>
    intro hp hm
    rw [smbSent_writes hm, if_pos hp]
  case quick => exact smbSent_quick
  case early =>
    intro hb
    have ha : min 255 a.toNat = a.toNat := by omega
    have hend : ∀ code, smbEarly c code a.toNat s = putSmb c { smbEnded
        (if s.gpio.viom = true ∧ s.smb[c].lost = false then code else 7) a.toNat s.smb[c] with bcnt := a.toNat } s := by
      intro code
      rw [smbEarly_busy hd hb, smbEnd_early, smbEnded, ha]
    exact ⟨congrArg Host.Outcome.next (hend 3), congrArg Host.Outcome.next (hend 5)⟩
  case free =>
    exact fun hb => ⟨congrArg Host.Outcome.next (smbEarly_free hb 3 _), congrArg Host.Outcome.next (smbEarly_free hb 5 _),
      congrArg Host.Outcome.next (smbFinish_free hb)⟩
  case abort =>
    intro h
    have hw : exec (.smabort e c) s = .next (smbWrite c 0xE 1 s) := congrArg Host.Outcome.next (engWrite_smb (.inr (.inr rfl)) h (v := 1) (by decide))
    refine ⟨fun hb => ?_, fun hb => hw.trans (congrArg _ (smbWrite_abort_free hb))⟩
    obtain ⟨n, hn⟩ := smbWrite_abort hb
    exact ⟨min 255 n, by omega, hw.trans (congrArg _ hn)⟩
  case notify => exact congrArg Host.Outcome.next (if_congr (smbNotify_iff hd) rfl rfl)
  case write => exact fun h => congrArg Host.Outcome.next ((engWrite_smb (.inr (.inl rfl)) h a.isLt).trans (smbWrite_dat a))
  case bus => exact congrArg Host.Outcome.next (smbBus_eq hd start)

end Sys2Proof.Machine
end

section
/-! SUPPORT. What hints, wake requests and records leave of THA and of the charger (06 R251; 14 R450, R461), and the records of THA. -/

namespace Sys2Proof.Machine

variable (n c src typ : Nat) (p : List Nat) (s : State)

@[simp] theorem setHint_tha : (setHint n s).tha = s.tha := by rw [setHint_eq]
@[simp] theorem setHint_thd : (setHint n s).thd = s.thd := by rw [setHint_eq]
@[simp] theorem setHint_chg : (setHint n s).chg = s.chg := by rw [setHint_eq]
@[simp] theorem setHint_chp : (setHint n s).chp = s.chp := by rw [setHint_eq]
@[simp] theorem setHint_svy : (setHint n s).svy = s.svy := by rw [setHint_eq]
@[simp] theorem setHint_domOn (d : Nat) : domOn (setHint n s) d = domOn s d := by rw [setHint_eq]; rfl

@[simp] theorem raiseWake_tha : (raiseWake c s).tha = s.tha := by rw [raiseWake_eq]
@[simp] theorem raiseWake_thd : (raiseWake c s).thd = s.thd := by rw [raiseWake_eq]
@[simp] theorem raiseWake_chg : (raiseWake c s).chg = s.chg := by rw [raiseWake_eq]
@[simp] theorem raiseWake_chp : (raiseWake c s).chp = s.chp := by rw [raiseWake_eq]
@[simp] theorem raiseWake_hp : (raiseWake c s).hp = s.hp := by rw [raiseWake_eq]
@[simp] theorem raiseWake_fbk : (raiseWake c s).fbk = s.fbk := by rw [raiseWake_eq]
@[simp] theorem raiseWake_svy : (raiseWake c s).svy = s.svy := by rw [raiseWake_eq]
@[simp] theorem raiseWake_domOn (d : Nat) : domOn (raiseWake c s) d = domOn s d := by rw [raiseWake_eq]; rfl

@[simp] theorem logRec_tha : (logRec src typ p s).tha = s.tha := by rw [logRec_eq]
@[simp] theorem logRec_thd : (logRec src typ p s).thd = s.thd := by rw [logRec_eq]
@[simp] theorem logRec_domOn (d : Nat) : domOn (logRec src typ p s) d = domOn s d := by rw [logRec_eq]; rfl

/-- From s to t a record of THA enters the Field Book, where nothing is discarded and no class is selected for a snapshot. -/
def ThaLogs (s t : State) (typ : Nat) (pay : List Nat) : Prop := s.fbk.ring.length < 256 → s.fbk.drops = 0 → s.svy.svfsel = 0 →
  ∃ r : FbRec, t.fbk.ring = s.fbk.ring ++ [{ r := r, written := false }] ∧ r.src = 8 ∧ r.typ = typ ∧ r.p = pay

variable {s} in
theorem logRec_thaLogs {u : State} (hf : u.fbk = s.fbk) (hv : u.svy = s.svy) : ThaLogs s (logRec 8 typ p u) typ p := by
  rw [ThaLogs, ← hf, ← hv]
  exact logRec_ring 8 typ p

end Sys2Proof.Machine
end

section
/-! SUPPORT. Conversion rounds, analog readings, sensors and virtual sensors (06 R229 to R236). -/

namespace Sys2Proof.Machine

variable {e : Eng} {s : State}

/-! ### Rounds (R232, R236) -/

/-- TCTL.EN set, with VIEWLIVE as it was (R251). -/
theorem engWrite_thaEnable (h : EngMay s e 0x1404 true) :
    engWrite e 0x1404 1 (1 + bAt s.tha.viewlive 1) s = { s with tha := { s.tha with en := true } } := by
  rw [engWrite_byte (b := 0x1400) (r := 6) h rfl rfl rfl]
  have hw : ∀ v, regWrite (.ce e) e 6 (0x1404 - 0x1400) v s = { s with tha := { s.tha with viewlive := v.testBit 1, en := v.testBit 0 } } :=
    fun _ => rfl
  have hb : ∀ b : Bool, ((1 + bAt b 1) % 256).testBit 1 = b ∧ ((1 + bAt b 1) % 256).testBit 0 = true := by decide
  rw [hw, (hb _).1, (hb _).2]

/-- Among rising numbers the first with a property is the least with it. -/
theorem find?_le {l : List Nat} (hl : l.Pairwise (· < ·)) {f : Nat → Bool} {i : Nat} (h : l.find? f = some i) :
    ∀ j ∈ l, f j = true → i ≤ j := by
  obtain ⟨-, as, bs, rfl, has⟩ := List.find?_eq_some_iff_append.mp h
  intro j hj hf
  rcases List.mem_append.mp hj with hj | hj
  · have hn := has j hj
    rw [hf] at hn
    cases hn
  rcases List.mem_cons.mp hj with rfl | hj
  · exact le_rfl
  · exact ((List.pairwise_cons.mp (List.pairwise_append.mp hl).2.1).1 j hj).le

theorem bitsOf_pairwise (n v : Nat) : (bitsOf n v).Pairwise (· < ·) := List.pairwise_lt_range.filter _

/-- The sensor of the round: the next one of the rotation, which wraps from the highest to the lowest (R232). -/
def nextSensor (s : State) : Option Nat :=
  match (rotation s).find? (fun i => decide (s.tha.rot < i)) with | some i => some i | none => (rotation s).head?

theorem nextSensor_some {i : Nat} (h : nextSensor s = some i) : i ∈ rotation s ∧ (∀ j ∈ rotation s, s.tha.rot < j → s.tha.rot < i ∧ i ≤ j)
    ∧ ((∀ j ∈ rotation s, j ≤ s.tha.rot) → ∀ j ∈ rotation s, i ≤ j) := by
  have hl : (rotation s).Pairwise (· < ·) := bitsOf_pairwise _ _
  unfold nextSensor at h
  split at h
  next k hk =>
    obtain rfl := Option.some.inj h
    have hm := List.mem_of_find?_eq_some hk
    have hr : s.tha.rot < k := by simpa using List.find?_some hk
    exact ⟨hm, fun j hj hlt => ⟨hr, find?_le hl hk j hj (by simpa using hlt)⟩, fun hall => absurd (hall k hm) (by omega)⟩
  next hk =>
    have hall : ∀ j ∈ rotation s, j ≤ s.tha.rot := by simpa using hk
    obtain ⟨l, hc⟩ := List.head?_eq_some_iff.mp h
    rw [hc] at hl hall ⊢
    refine ⟨List.mem_cons_self, fun j hj hlt => absurd (hall j hj) (by omega), fun _ j hj => ?_⟩
    rcases List.mem_cons.mp hj with rfl | hj
    · exact le_rfl
    · exact ((List.pairwise_cons.mp hl).1 j hj).le

theorem nextSensor_none (h : nextSensor s = none) : rotation s = [] := by
  unfold nextSensor at h
  split at h
  · cases h
  · exact List.head?_eq_none_iff.mp h

/-- The channels that convert in the mode of the device (R232). -/
def roundChannels (s : State) : Nat := thaLive s (if s.dct.mode = .watch then 0x46 else 0x42)

theorem thaRoundStart_eq (hd : domOn s 2 = true) (he : s.tha.en = true) (hp : s.tha.cfg.pnd = none) : thaRoundStart s = { s with
    tha := { s.tha with
      rcfg := s.tha.cfg.live, sensor := nextSensor s, rot := (nextSensor s).getD s.tha.rot, anOn := roundChannels s, tis := s.tha.tis ||| 1
      rcount := if roundChannels s = 0 then s.tha.rcount + 1 else s.tha.rcount } } := by
  have hload : thaLoad s = s := by rw [thaLoad, hp]
  rw [thaRoundStart, if_neg (by rw [hd, he]; decide), hload]
  rfl

theorem thaRoundStart_off (he : s.tha.en = false) : thaRoundStart s = s := if_pos (by rw [he, Bool.and_false]; rfl)

/-! ### Trip counts (R239) -/

/-- From s to t only the counts of the digital trip entries change. -/
def OnlyTrips (s t : State) : Prop := t = { s with thd := { s.thd with trips := t.thd.trips } }

namespace OnlyTrips

variable {r t : State}

theorem refl (s : State) : OnlyTrips s s := rfl

theorem trans (h : OnlyTrips r s) (k : OnlyTrips s t) : OnlyTrips r t :=
  Eq.trans k (congrArg (fun x : State => { x with thd := { x.thd with trips := t.thd.trips } }) (h : s = _))

theorem foldl {f : State → Nat → State} (hf : ∀ s m, OnlyTrips s (f s m)) (l : List Nat) (s : State) : OnlyTrips s (l.foldl f s) := by
  induction l generalizing s with
  | nil => exact refl s
  | cons m l ih => exact (hf s m).trans (ih _)

variable (h : OnlyTrips s t)
include h

theorem tha : t.tha = s.tha := by rw [OnlyTrips] at h; rw [h]
theorem thd : t.thd = { s.thd with trips := t.thd.trips } := congrArg State.thd h
theorem chg : t.chg = s.chg := by rw [OnlyTrips] at h; rw [h]
theorem fbk : t.fbk = s.fbk := by rw [OnlyTrips] at h; rw [h]
theorem svy : t.svy = s.svy := by rw [OnlyTrips] at h; rw [h]
theorem sens : t.thd.sens = s.thd.sens := by rw [h.thd]
theorem vt : t.thd.vt = s.thd.vt := by rw [h.thd]

end OnlyTrips

theorem tripReading_onlyTrips (g : Nat → Nat) (i : Nat) (r : Option Int) (s : State) : OnlyTrips s (tripReading g i r s) := by
  unfold tripReading
  split <;> rfl

/-! ### Analog channels (R231, R233, R235) -/

theorem thaAnResolve_off (uv : Vector Nat 16) (he : s.tha.en = false) : thaAnResolve uv s = s := if_pos (by rw [he, Bool.and_false]; rfl)

theorem thaAnResolve_none (uv : Vector Nat 16) (h : bitsOf 16 s.tha.anOn = []) : thaAnResolve uv s = s := by
  unfold thaAnResolve
  dsimp only
  rw [if_pos h, ite_self]

/-- The channels of the round read, the others as they were. -/
def anResolved (uv : Vector Nat 16) (s : State) : Vector AnCh 16 := Vector.ofFn (fun m =>
  if (bitsOf 16 s.tha.anOn).contains m.val then anConvert (thaRound s) m.val (anCode uv[m]) s.thd.an[m] else s.thd.an[m])

/-- A resolve writes the channels, RCOUNT and the trip counts; LTIN and a wake request concern neither THA nor the charger. -/
theorem thaAnResolve_eq (uv : Vector Nat 16) (hd : domOn s 2 = true) (he : s.tha.en = true) (hc : bitsOf 16 s.tha.anOn ≠ []) :
    let t := thaAnResolve uv s
    t.tha = { s.tha with rcount := s.tha.rcount + 1, anOn := 0 } ∧ t.thd = { s.thd with an := anResolved uv s, trips := t.thd.trips }
    ∧ t.chg = s.chg ∧ t.fbk = s.fbk := by
  unfold thaAnResolve
  dsimp only
  rw [if_neg (by rw [hd, he]; decide), if_neg hc]
  generalize hu : List.foldl _ _ _ = u
  have h : OnlyTrips { s with
      thd := { s.thd with an := anResolved uv s }, tha := { s.tha with rcount := s.tha.rcount + 1, anOn := 0 } } u := by
    rw [← hu]
    refine OnlyTrips.foldl (fun s m => ?_) _ _
    split
    · exact tripReading_onlyTrips ..
    · exact .refl s
  have hw : ∀ w : State, w.tha = u.tha → w.thd = u.thd → w.chg = u.chg → w.fbk = u.fbk → w.tha = { s.tha with rcount := s.tha.rcount + 1, anOn := 0 }
      ∧ w.thd = { s.thd with an := anResolved uv s, trips := w.thd.trips } ∧ w.chg = s.chg ∧ w.fbk = s.fbk :=
    fun w h1 h2 h3 h4 => ⟨h1.trans h.tha, by rw [h2]; exact h.thd, h3.trans h.chg, h4.trans h.fbk⟩
  apply hw <;> split <;> split <;> simp [ltinSet]

/-- An unfiltered channel reads its code, and the temperature that the code stands for. -/
theorem anConvert_unfiltered {g : Nat → Nat} {m : Nat} (c : Nat) (x : AnCh) (hf : fld (g (0x50 + m)) 5 3 = 0) :
    let b := if anMode g m = 2 then 0x68 else 0x62
    let y := anConvert g m c x
    anRaw y = c ∧ y.t = ntcTemp (g b) (g (b + 2)) (g (b + 4)) c
    ∧ (y.valid = true ↔ (anMode g m = 1 ∨ anMode g m = 2) ∧ 256 ≤ c ∧ c ≤ 16128 ∧ -640 ≤ y.t ∧ y.t ≤ 2400) := by
  have hy : (16 * c + 8) / 16 = c := by omega
  simp only [anRaw, anConvert, hf, if_true, hy, Bool.and_eq_true, Bool.or_eq_true, decide_eq_true_eq, and_assoc, and_self]

theorem anResolved_off {uv : Vector Nat 16} {m : Fin 16} (h : s.tha.anOn.testBit m.val = false) : (anResolved uv s)[m] = s.thd.an[m] := by
  simp [anResolved, mem_bitsOf, h]

theorem anResolved_on {uv : Vector Nat 16} {m : Fin 16} (h : s.tha.anOn.testBit m.val = true) :
    (anResolved uv s)[m] = anConvert (thaRound s) m.val (anCode uv[m]) s.thd.an[m] := by
  simp [anResolved, mem_bitsOf, h]

/-! ### Sensors (R229, R230) -/

theorem getElem_set_fin_self {α : Type} {n : Nat} (l : Vector α n) (i : Fin n) (x : α) : (l.set i x)[i] = x := by simp

theorem getElem_set_fin_ne {α : Type} {n : Nat} {l : Vector α n} {i k : Fin n} {x : α} (h : k ≠ i) : (l.set i x)[k] = l[k] := by
  have : i.val ≠ k.val := fun e => h (Fin.ext e.symm)
  simp [this]

/-- The round's sensor read as x. -/
def sensorTaken (src : Fin 9) (x : Sensor) (s : State) : State :=
  { s with tha := { s.tha with sensor := none }, thd := { s.thd with sens := s.thd.sens.set src x } }

/-- The temperature of a good reading (R229). -/
def sensorTemp (src : Fin 9) (v1 v2 v3 : Nat) (die : Int) (s : State) : Int :=
  if src.val = 8 then die
  else diodeTemp v1 v2 v3 (toSigned 8 (thaRound s (0x70 + 2 * src.val))) (toSigned 8 (thaRound s (0x71 + 2 * src.val)))

section
variable {src : Fin 9} {v1 v2 v3 : Nat} {die : Int} (hd : domOn s 2 = true) (he : s.tha.en = true) (hs : s.tha.sensor = some src.val)
include hd he hs

theorem sensorDue : ¬ (!(domOn s 2 && s.tha.en && decide (s.tha.sensor = some src.val))) = true := by
  rw [hd, he, decide_eq_true hs]
  decide

/-- A faulted reading, of which only the second in a row concerns the trip entries (R230, R239). -/
theorem thaSensor_faulted (hb : src.val < 8 ∧ (1000000000 < v1 ∨ v1 < 150000000)) : OnlyTrips (sensorTaken src
    { s.thd.sens[src] with faults := s.thd.sens[src].faults + 1, verdict := if 1000000000 < v1 then 1 else 2 } s) (thaSensor src v1 v2 v3 die s) := by
  have hb' : (decide (src.val < 8) && (decide (1000000000 < v1) || decide (v1 < 150000000))) = true := by simpa using hb
  unfold thaSensor
  dsimp only
  rw [if_neg (sensorDue hd he hs), if_pos hb']
  by_cases hx : s.thd.sens[src].faults = 0
  · rw [if_pos hx]
    exact .refl _
  · rw [if_neg hx]
    exact tripReading_onlyTrips ..

theorem thaSensor_read (hb : ¬ (src.val < 8 ∧ (1000000000 < v1 ∨ v1 < 150000000))) : OnlyTrips (sensorTaken src
    { t := sensorTemp src v1 v2 v3 die s, valid := true } s) (thaSensor src v1 v2 v3 die s) := by
  have hb' : ¬ (decide (src.val < 8) && (decide (1000000000 < v1) || decide (v1 < 150000000))) = true := by simpa using hb
  unfold thaSensor
  dsimp only
  rw [if_neg (sensorDue hd he hs), if_neg hb']
  exact tripReading_onlyTrips ..

end

theorem sensorTaken_only {src : Fin 9} {x : Sensor} {t : State} (h : OnlyTrips (sensorTaken src x s) t) :
    t = { s with tha := { s.tha with sensor := none }, thd := { s.thd with sens := t.thd.sens, trips := t.thd.trips } }
    ∧ (∀ k : Fin 9, k ≠ src → t.thd.sens[k] = s.thd.sens[k]) ∧ t.thd.sens[src] = x := by
  have hsens : t.thd.sens = s.thd.sens.set src x := h.sens
  refine ⟨?_, fun k hk => ?_, ?_⟩ <;> rw [hsens]
  · exact h
  · exact getElem_set_fin_ne hk
  · exact getElem_set_fin_self ..

theorem thaSensorFault_eq {src : Fin 9} (hd : domOn s 2 = true) (h2 : 2 ≤ s.thd.sens[src].faults) (hf : s.thd.sens[src].fault = false) :
    thaSensorFault src s = logRec 8 3 [src.val, s.thd.sens[src].verdict] (tisSet 8 (tfltSet 2 { s with
      thd := { s.thd with sens := s.thd.sens.set src { s.thd.sens[src] with valid := false, fault := true } } })) :=
  if_pos (by rw [hd, hf, decide_eq_true h2]; rfl)

/-! ### Virtual sensors (R234) -/

theorem vtSet_reading (n : Fin 4) {v : Half} (hv : v ≠ 0x8000) (s : State) :
    OnlyTrips { s with thd := { s.thd with vt := s.thd.vt.set n { t := v.toNat, valid := true } } } (vtSet n v.toNat s) := by
  have hm : v.toNat % 65536 = v.toNat := Nat.mod_eq_of_lt v.isLt
  have hn : v.toNat ≠ 0x8000 := fun h => hv (BitVec.eq_of_toNat_eq h)
  rw [vtSet, hm, if_neg hn]
  exact tripReading_onlyTrips ..

/-- A write of TVTn by an engine. -/
theorem engWrite_tvt {n : Fin 4} {v : Half} (h : EngMay s e (0x1414 + 2 * n.val) true) (h' : EngMay s e (0x1415 + 2 * n.val) true) :
    ∃ y, engWrite e (0x1414 + 2 * n.val) 2 v.toNat s = vtSet n v.toNat (withIo y s) := by
  have hm : v.toNat % 65536 = v.toNat := Nat.mod_eq_of_lt v.isLt
  have hw : ∃ y, engWrite e (0x1414 + 2 * n.val) 2 v.toNat s = vtSet n (v.toNat % 65536) (withIo y s) := by
    fin_cases n <;> exact engWrite_two (b := 0x1400) (r := 6) h h' (by decide) rfl rfl rfl (fun _ => rfl) rfl (fun _ => rfl)
  rwa [hm] at hw

/-- A write of THERMVAL by a port that has selected VTn. -/
theorem hostWrite_thermval {p : Port} {priv : Bool} {n : Fin 4} {v : Half} (h : PortMay s p priv 0x1F true)
    (ht : s.hp[p].sel.thermsel = 25 + n.val) : hostWrite p priv 0x1F v.toNat s = vtSet n v.toNat (bufFree p s) := by
  refine hostWrite_ok h ?_
  change thermvalWrite p v.toNat (bufFree p s) = _
  rw [thermvalWrite, bufFree_sel, ht]
  fin_cases n <;> rfl

/-- A master may write the virtual sensor n. -/
def VtMay (m : Mst) (n : Fin 4) (s : State) : Prop :=
  match m with
  | .ce e => EngMay s e (0x1414 + 2 * n.val) true ∧ EngMay s e (0x1415 + 2 * n.val) true
  | .hp p priv => PortMay s p priv 0x1F true ∧ s.hp[p].sel.thermsel = 25 + n.val

/-- Its write acts in a state that differs in the I/O fabric or the port alone. -/
theorem vtPut_eq {m : Mst} {n : Fin 4} {v : Half} (h : VtMay m n s) :
    ∃ u, vtPut m n v.toNat s = vtSet n v.toNat u ∧ u.tha = s.tha ∧ u.thd = s.thd ∧ u.fbk = s.fbk := by
  cases m with
  | ce e =>
    obtain ⟨y, hy⟩ := engWrite_tvt (v := v) h.1 h.2
    exact ⟨withIo y s, hy, rfl, rfl, rfl⟩
  | hp p priv => exact ⟨bufFree p s, (if_pos h.2).trans (hostWrite_thermval h.1 h.2), rfl, rfl, rfl⟩

theorem vtStale_eq {n : Fin 4} (hd : domOn s 2 = true) (hs : thaLive s 0x4C ≠ 0) (hv : s.thd.vt[n].valid = true) : vtStale n s
    = logRec 8 5 [n.val] (tisSet 0x20 (tfltSet 8 (tripReading (thaLive s) (25 + n.val) none
      { s with thd := { s.thd with vt := s.thd.vt.set n { s.thd.vt[n] with valid := false, stale := true } } }))) :=
  if_pos (by rw [hd, hv, decide_eq_true hs]; rfl)

end Sys2Proof.Machine
end

section
/-! CERTIFICATE. Conversion rounds, analog readings, sensors and virtual sensors (06 R229 to R236). -/

namespace Sys2Proof.Machine

/-- Settles O53: a round takes `nextSensor` and `roundChannels`, and every reading leaves its own register and the trip counts changed. -/
theorem thermalReadings : Obligations.ThermalReadings := by
  unfold Obligations.ThermalReadings
  intro e src v1 v2 v3 die uv m n v s hd
  refine ⟨?enable, ?round, ?off, ?analog, ?noAnalog, ?sensor, ?fault, ?vt, ?stale⟩
  case enable => exact fun h => congrArg Host.Outcome.next (engWrite_thaEnable h)
  case round =>
    intro he hp
    refine ⟨_, congrArg Host.Outcome.next (thaRoundStart_eq hd he hp), rfl, rfl, fun i hi => ?_, fun hn => ?_⟩
    · obtain ⟨hm, hnext, hwrap⟩ := nextSensor_some hi
      exact ⟨hm, congrArg (Option.getD · s.tha.rot) hi, hnext, hwrap⟩
    · exact ⟨nextSensor_none hn, congrArg (Option.getD · s.tha.rot) hn⟩
  case off =>
    exact fun he => ⟨congrArg Host.Outcome.next (thaRoundStart_off he), congrArg Host.Outcome.next (thaAnResolve_off uv he)⟩
  case analog =>
    intro he hc
    obtain ⟨htha, hthd, hchg, hfbk⟩ := thaAnResolve_eq uv hd he hc
    have han : (thaAnResolve uv s).thd.an = anResolved uv s := by rw [hthd]
    refine ⟨_, rfl, htha, by rw [han]; exact hthd, hchg, hfbk, fun k => ⟨fun hk => ?_, fun hk hf => ?_⟩⟩ <;> rw [han]
    · exact anResolved_off hk
    · rw [anResolved_on hk]
      exact anConvert_unfiltered _ _ hf
  case noAnalog => exact fun _ hc => congrArg Host.Outcome.next (thaAnResolve_none uv hc)
  case sensor =>
    intro he hs
    by_cases hb : src.val < 8 ∧ (1000000000 < v1 ∨ v1 < 150000000)
    · obtain ⟨hrest, hne, hself⟩ := sensorTaken_only (thaSensor_faulted (v2 := v2) (v3 := v3) (die := die) hd he hs hb)
      exact ⟨_, rfl, hrest, hne, fun _ => hself, fun h => absurd hb h⟩
    · obtain ⟨hrest, hne, hself⟩ := sensorTaken_only (thaSensor_read (v2 := v2) (v3 := v3) (die := die) hd he hs hb)
      refine ⟨_, rfl, hrest, hne, fun h => absurd h hb, fun _ => ⟨?_, fun h8 => ?_, fun h8 => ?_⟩⟩
      · rw [hself]
      · rw [hself]; exact if_pos h8
      · rw [hself]; exact if_neg h8
  case fault =>
    intro h2 hf
    refine ⟨_, congrArg Host.Outcome.next (thaSensorFault_eq hd h2 hf), ?_, ?_, logRec_thaLogs _ _ rfl rfl⟩
    · rw [logRec_thd]; rfl
    · rw [logRec_tha]; rfl
  case vt =>
    intro h
    obtain ⟨u, hu, htha, hthd, hfbk⟩ := vtPut_eq (v := v) (show VtMay m n s from h)
    refine ⟨_, congrArg Host.Outcome.next hu, ?_⟩
    rw [← htha, ← hthd, ← hfbk]
    by_cases hv : v = 0x8000
    · subst hv
      refine ⟨rfl, rfl, rfl, fun k hk => ?_, fun _ => ⟨?_, rfl⟩, fun h => absurd rfl h⟩
      · exact getElem_set_fin_ne hk
      · exact getElem_set_fin_self ..
    · have ht := vtSet_reading n hv u
      refine ⟨ht.tha, ?_, ht.fbk, fun k hk => ?_, fun h => absurd h hv, fun _ => ?_⟩ <;> rw [ht.vt]
      · exact ht.thd
      · exact getElem_set_fin_ne hk
      · exact getElem_set_fin_self ..
  case stale =>
    intro hs hv
    have ht := tripReading_onlyTrips (thaLive s) (25 + n.val) none
      { s with thd := { s.thd with vt := s.thd.vt.set n { s.thd.vt[n] with valid := false, stale := true } } }
    refine ⟨_, congrArg Host.Outcome.next (vtStale_eq hd hs hv), ?_, ?_, logRec_thaLogs _ _ ?_ ?_⟩
    · rw [logRec_thd, tisSet_thd, tfltSet_thd]
      exact ht.thd
    · rw [logRec_tha, tisSet_tha, tfltSet_tha, ht.tha]
    · rw [tisSet_fbk, tfltSet_fbk, ht.fbk]
    · rw [tisSet_svy, tfltSet_svy, ht.svy]

end Sys2Proof.Machine
end

section
/-! SUPPORT. Trip entries: when one acts and when it releases, what a trip and a clear leave, and the trip lines (06 R238 to R242). -/

namespace Sys2Proof.Machine

variable {n : Fin 8} {x : Int} {s t u : State}

/-! ### The live set -/

theorem thaLive_congr (h : t.tha.cfg = s.tha.cfg) : thaLive t = thaLive s := by
  funext k
  rw [thaLive, h, thaLive]

theorem tripAna_congr (h : t.tha.cfg = s.tha.cfg) (n : Fin 8) : tripAna t n = tripAna s n := by rw [tripAna, thaLive_congr h, tripAna]

theorem tripTrn_congr (h : t.tha.cfg = s.tha.cfg) (n : Fin 8) : tripTrn t n = tripTrn s n := by rw [tripTrn, thaLive_congr h, tripTrn]

theorem anaActs_congr (h : t.tha.cfg = s.tha.cfg) (n : Fin 8) : anaActs t n = anaActs s n := by
  funext hys y
  simp only [anaActs, thaLive_congr h]

/-! ### Decisions and releases (R238 to R240) -/

/-- The comparator of entry n is on its acting side by hys units. -/
def AnaActs (s : State) (n : Fin 8) (hys : Nat) (y : Int) : Prop :=
  let th : Int := fld (thaLive s (0x82 + 6 * n.val)) 9 0
  let die : Bool := fld (thaLive s (0x80 + 6 * n.val)) 4 0 = 8
  if (thaLive s (0x80 + 6 * n.val)).testBit 6 then (if die then y < 16 * (th + hys) else 1024 * y < 1800000 * (th + hys))
  else (if die then 16 * (th - hys) < y else 1800000 * (th - hys) < 1024 * y)

theorem anaActs_iff (hys : Nat) (y : Int) : anaActs s n hys y = true ↔ AnaActs s n hys y := by
  have h2 : 0x80 + 6 * n.val + 2 = 0x82 + 6 * n.val := by omega
  unfold anaActs AnaActs
  dsimp only
  rw [h2]
  by_cases hb : (thaLive s (0x80 + 6 * n.val)).testBit 6 = true <;>
    by_cases hd : fld (thaLive s (0x80 + 6 * n.val)) 4 0 = 8 <;> simp [hb, hd] <;> omega

/-- THA with x at the comparator of entry n, where it has one. -/
def anaSeen (n : Fin 8) (x : Int) (q : Tha) : Tha := if 4 ≤ n.val then { q with anaIn := q.anaIn.set (anaCmp n) x } else q

theorem anaPut_eq (n : Fin 8) (x : Int) (s : State) : anaPut n x s = { s with tha := anaSeen n x s.tha } := by
  unfold anaPut anaSeen
  split <;> rfl

theorem anaSeen_eq (n : Fin 8) (x : Int) (q : Tha) : anaSeen n x q = { q with anaIn := (anaSeen n x q).anaIn } := by
  unfold anaSeen
  split <;> rfl

theorem anaSeen_at (h : 4 ≤ n.val) (q : Tha) : (anaSeen n x q).anaIn[anaCmp n] = x := by
  rw [anaSeen, if_pos h]
  exact getElem_set_fin_self ..

/-- Entry n meets its release condition, with y at its comparator. -/
def Releases (s : State) (n : Fin 8) (y : Int) : Prop :=
  if tripAna s n then ¬ AnaActs s n (thaLive s (0x84 + 6 * n.val)) y else tripTrn s n ≤ s.thd.trips[n].rels

theorem tripReleased_iff : tripReleased s n = true ↔ Releases s n s.tha.anaIn[anaCmp n] := by
  unfold tripReleased Releases
  split
  · rw [← anaActs_iff, Bool.not_eq_true', Bool.not_eq_true]
  · rw [decide_eq_true_eq]

theorem tripReleased_congr (hc : t.tha.cfg = s.tha.cfg) (ha : t.tha.anaIn = s.tha.anaIn) (hr : t.thd.trips[n] = s.thd.trips[n]) :
    tripReleased t n = tripReleased s n := by
  simp only [tripReleased, tripAna_congr hc, anaActs_congr hc, tripTrn_congr hc, thaLive_congr hc, ha, hr]

/-- Entry n meets its decision condition, with y at its comparator. -/
def Meets (s : State) (n : Fin 8) (y : Int) : Prop :=
  if tripAna s n then 4 ≤ n.val ∧ AnaActs s n 0 y else tripTrn s n ≤ s.thd.trips[n].acts

theorem anaPut_tha (n : Fin 8) (x : Int) (s : State) : (anaPut n x s).tha = { s.tha with anaIn := (anaSeen n x s.tha).anaIn } := by
  rw [anaPut_eq, anaSeen_eq]

theorem anaPut_cfg (n : Fin 8) (x : Int) (s : State) : (anaPut n x s).tha.cfg = s.tha.cfg := by rw [anaPut_tha]

theorem anaPut_in (h : 4 ≤ n.val) : (anaPut n x s).tha.anaIn[anaCmp n] = x := by
  rw [anaPut_eq]
  exact anaSeen_at h s.tha

@[simp] theorem anaPut_thd (n : Fin 8) (x : Int) (s : State) : (anaPut n x s).thd = s.thd := by rw [anaPut_eq]
@[simp] theorem anaPut_domOn (n : Fin 8) (x : Int) (s : State) (d : Nat) : domOn (anaPut n x s) d = domOn s d := by rw [anaPut_eq]; rfl

/-- The decision of an entry whose comparator, where it is analog, has just seen x. -/
theorem tripMet_anaPut (h : Meets s n x) : tripMet (anaPut n x s) n = true := by
  have hc := anaPut_cfg n x s
  unfold Meets at h
  rw [tripMet, tripAna_congr hc, tripTrn_congr hc, anaActs_congr hc, anaPut_thd]
  split at h
  · next ha =>
    rw [if_pos ha, anaPut_in h.1]
    exact (anaActs_iff 0 x).mpr h.2
  · next ha =>
    rw [if_neg ha]
    exact decide_eq_true h

theorem tripReleased_anaPut (h : Releases s n x) (ha : tripAna s n = true → 4 ≤ n.val) : tripReleased (anaPut n x s) n = true := by
  have hc := anaPut_cfg n x s
  unfold Releases at h
  rw [tripReleased, tripAna_congr hc, tripTrn_congr hc, anaActs_congr hc, thaLive_congr hc, anaPut_thd]
  split at h
  · next hn =>
    rw [if_pos hn, anaPut_in (ha hn), Bool.not_eq_true', Bool.eq_false_iff]
    exact fun k => h ((anaActs_iff _ x).mp k)
  · next hn =>
    rw [if_neg hn]
    exact decide_eq_true h

/-! ### The trip lines (R241, R242) -/

/-- The trip lines of t follow its TRACT under the live set of s. -/
def LinesFollow (s t : State) : Prop :=
  (t.tha.chgTrip = true ↔ ∃ j, j < 8 ∧ t.tha.tract.testBit j = true ∧ (thaLive s (0x81 + 6 * j)).testBit 0 = true)
  ∧ (t.tha.fanTrip = true ↔ ∃ j, j < 8 ∧ t.tha.tract.testBit j = true ∧ (thaLive s (0x81 + 6 * j)).testBit 1 = true)

theorem tripLines_follow (hc : u.tha.cfg = s.tha.cfg) (ht : t.tha = (tripLines u).tha) : LinesFollow s t := by
  rw [LinesFollow, ht, ← thaLive_congr hc]
  constructor <;> simp [tripLines, upTo]

/-! ### Hints at a trip (R241, R271) -/

/-- Bit i of HINTS is in t as in s, at both ports. -/
def SameHint (i : Nat) (s t : State) : Prop := ∀ m : Port, t.hp[m].sel.hints.getLsbD i = s.hp[m].sel.hints.getLsbD i

namespace SameHint

variable {i : Nat} {r : State}

theorem refl (s : State) : SameHint i s s := fun _ => rfl

theorem trans (h : SameHint i r s) (k : SameHint i s t) : SameHint i r t := fun m => (k m).trans (h m)

theorem setHintP (p : Port) {n : Nat} (hn : n ≠ i) (s : State) : SameHint i s (setHintP p n s) := fun m => by
  rw [setHintP_hints]
  simp [hn]

theorem setHint {n : Nat} (hn : n ≠ i) (s : State) : SameHint i s (setHint n s) := by
  unfold Machine.setHint
  split
  · exact (SameHint.setHintP 0 hn s).trans (.setHintP 1 hn _)
  · exact .refl s

end SameHint

theorem joinRec_hp (s : State) : (joinRec s).hp = s.hp := rfl

theorem joinRec_sameHint (i : Nat) (s : State) : SameHint i s (joinRec s) := fun m => by rw [joinRec_hp]

section
variable {i : Nat} (h12 : 12 ≠ i) (src typ : Nat) (p : List Nat) (s : State)
include h12

theorem enterRec_sameHint : SameHint i s (enterRec src typ p s) := SameHint.setHint h12 _

theorem fbOverflow_sameHint : SameHint i s (fbOverflow s) := by
  unfold fbOverflow
  split
  · exact fun m => enterRec_sameHint h12 _ _ _ _ m
  · exact .refl s

theorem pushRec_sameHint : SameHint i s (pushRec src typ p s) := by
  have ho := fbOverflow_sameHint h12 s
  unfold pushRec
  dsimp only
  split
  · exact ho.trans (enterRec_sameHint h12 _ _ _ _)
  · exact ho

variable (h13 : 13 ≠ i)
include h13

theorem takeSnap_sameHint (trig : Nat) : SameHint i s (takeSnap src trig s) := by
  unfold takeSnap
  dsimp only
  split
  · exact .refl s
  · exact fun m => (SameHint.setHint h13 _ m).trans (pushRec_sameHint h12 _ _ _ _ m)

/-- A record sets the hints of the Field Book and of the Survey alone. -/
theorem logRec_sameHint : SameHint i s (logRec src typ p s) := by
  have hp := pushRec_sameHint h12 src typ p s
  unfold logRec
  dsimp only
  split
  · split
    · split
      · exact hp.trans (joinRec_sameHint i _)
      · exact hp.trans (takeSnap_sameHint h12 _ _ h13 _)
    · exact hp
  · exact hp

end

/-! ### The charger at a trip (R169, R181) -/

@[simp] theorem rbHalt_tha (cause : Nat) (s : State) : (rbHalt cause s).tha = s.tha := by
  unfold rbHalt
  split
  · rfl
  · rw [logRec_tha]

@[simp] theorem rbHalt_thd (cause : Nat) (s : State) : (rbHalt cause s).thd = s.thd := by
  unfold rbHalt
  split
  · rfl
  · rw [logRec_thd]

/-- The gates go off, and reverse boost stops. -/
theorem rbHalt_off (cause : Nat) (hg : s.chg.gates = 0) (hm : s.chg.mode = 0) :
    (rbHalt cause s).chg.gates = 0 ∧ (rbHalt cause s).chg.mode = 0 ∧ (rbHalt cause s).chg.rb = 0 := by
  by_cases h : s.chg.rb = 0
  · rw [rbHalt_none cause h]
    exact ⟨hg, hm, h⟩
  · rw [(rbHalt_eq cause h).1]
    exact ⟨rfl, rfl, rfl⟩

theorem chgTripped_off (h : s.tha.chgTrip = false) : chgTripped s = s := if_neg (by rw [h, Bool.false_and]; decide)

@[simp] theorem chgTripped_tha (s : State) : (chgTripped s).tha = s.tha := by
  unfold chgTripped
  split
  · rw [rbHalt_tha, chgGatesOff, raiseWake_tha, setHint_tha, cisSet_eq]
  · rfl

@[simp] theorem chgTripped_thd (s : State) : (chgTripped s).thd = s.thd := by
  unfold chgTripped
  split
  · rw [rbHalt_thd, chgGatesOff, raiseWake_thd, setHint_thd, cisSet_eq]
  · rfl

theorem chgTripped_gates (h : s.tha.chgTrip = true) (hd : domOn s 1 = true) :
    (chgTripped s).chg.gates = 0 ∧ (chgTripped s).chg.mode = 0 ∧ (chgTripped s).chg.rb = 0 := by
  rw [chgTripped, if_pos (by rw [h, hd]; rfl)]
  exact rbHalt_off 5 rfl rfl

/-- With reverse boost off the charger logs nothing. -/
theorem chgTripped_fbk (h : s.chg.rb = 0) : (chgTripped s).fbk = s.fbk := by
  unfold chgTripped
  split
  · rw [rbHalt_none 5 (by simpa [chgGatesOff] using h)]
    simp [chgGatesOff, setHint_fbk]
  · rfl

/-! ### A trip (R239, R241, R242) -/

/-- The entry's bit set, the flags and the lines after it. -/
def tripLatched (n : Fin 8) (s : State) : State := tripLines (tisSet 0x02 (tfltSet 0x01 { s with
  tha := { s.tha with tract := s.tha.tract ||| 2 ^ n.val }
  thd := { s.thd with trips := modAt s.thd.trips n (fun c => { c with rels := 0 }) } }))

/-- What the record of a trip names. -/
def tripCause (n : Fin 8) (s : State) : List Nat :=
  [n.val, if tripAna s n then thaLive s (0x82 + 6 * n.val) else ofSigned 16 s.thd.trips[n].last, fld (thaLive s (0x81 + 6 * n.val)) 1 0]

/-- The trip with its record, before the charger and the fans. -/
def tripEntered (n : Fin 8) (s : State) : State := logRec 8 1 (tripCause n s) (raiseWake 0xB (setHint 10 (tripLatched n s)))

theorem thaTrip_eq (hd : domOn s 2 = true) (he : tripEn s n = true) (ht : s.tha.tract.testBit n.val = false) (hm : Meets s n x) :
    thaTrip n x s = fansTripped (if s.tha.chgTrip then tripEntered n (anaPut n x s) else chgTripped (tripEntered n (anaPut n x s))) := by
  have hc := anaPut_cfg n x s
  have hen : tripEn (anaPut n x s) n = true := by rw [tripEn, thaLive_congr hc]; exact he
  have htr : (anaPut n x s).tha.tract = s.tha.tract := by rw [anaPut_tha]
  have hcg : (anaPut n x s).tha.chgTrip = s.tha.chgTrip := by rw [anaPut_tha]
  unfold thaTrip
  dsimp only
  rw [if_pos (by rw [anaPut_domOn, hd, hen, htr, ht, tripMet_anaPut hm]; rfl), hcg]
  rfl

theorem tripLatched_follow (hc : u.tha.cfg = s.tha.cfg) (ht : t.tha = (tripLatched n u).tha) : LinesFollow s t := by
  refine tripLines_follow ?_ ht
  exact hc

theorem tripEntered_tha (n : Fin 8) (s : State) : (tripEntered n s).tha = (tripLatched n s).tha := by
  rw [tripEntered, logRec_tha, raiseWake_tha, setHint_tha]

theorem tripEntered_thd (n : Fin 8) (s : State) :
    (tripEntered n s).thd = { s.thd with trips := modAt s.thd.trips n (fun c => { c with rels := 0 }) } := by
  rw [tripEntered, logRec_thd, raiseWake_thd, setHint_thd]
  rfl

theorem tripEntered_chg (n : Fin 8) (s : State) : (tripEntered n s).chg = s.chg ∧ (tripEntered n s).chp = s.chp := by
  rw [tripEntered, logRec_chg, logRec_chp, raiseWake_chg, raiseWake_chp, setHint_chg, setHint_chp]
  exact ⟨rfl, rfl⟩

theorem tripEntered_domOn (n : Fin 8) (s : State) (d : Nat) : domOn (tripEntered n s) d = domOn s d := by
  rw [tripEntered, logRec_domOn, raiseWake_domOn, setHint_domOn]
  rfl

theorem tripEntered_logs (n : Fin 8) (s : State) : ThaLogs s (tripEntered n s) 1 (tripCause n s) := by
  refine logRec_thaLogs _ _ ?_ ?_
  · rw [raiseWake_fbk, setHint_fbk]; rfl
  · rw [raiseWake_svy, setHint_svy]; rfl

/-- HINTS.CHG comes from the charger alone. -/
theorem tripEntered_hints (n : Fin 8) (s : State) : SameHint 9 s (tripEntered n s) := fun m => by
  rw [tripEntered, logRec_sameHint (by decide) _ _ _ _ (by decide) m, raiseWake_hp, SameHint.setHint (by decide) _ m]
  rfl

/-- The fans that the fan line drives go to 100%. -/
theorem fansTripped_fan (s : State) (m : Fin 4) : (fansTripped s).thd.fans[m] = if s.tha.fanTrip = true ∧ fanTripDrv s m.val = true
    ∧ fanEn s m.val = true then { s.thd.fans[m] with pwm := 255 } else s.thd.fans[m] := by
  simp [fansTripped, and_assoc]

theorem fanEn_congr (h : t.tha.cfg = s.tha.cfg) (m : Nat) : fanEn t m = fanEn s m := by rw [fanEn, thaLive_congr h, fanEn]

theorem fanTripDrv_congr (h : t.tha.cfg = s.tha.cfg) (m : Nat) : fanTripDrv t m = fanTripDrv s m := by
  rw [fanTripDrv, thaLive_congr h, fanTripDrv]

/-- What entry n leaves of s when it trips: the record before the charger, which acts on the rise of its line, and the fans. -/
structure Tripped (n : Fin 8) (s t : State) : Prop where
  tract : t.tha.tract = s.tha.tract ||| 2 ^ n.val
  tflt : t.tha.tflt = s.tha.tflt ||| 1
  tis : t.tha.tis = s.tha.tis ||| 2
  lines : LinesFollow s t
  sens : t.thd.sens = s.thd.sens
  an : t.thd.an = s.thd.an
  gates : s.tha.chgTrip = false → t.tha.chgTrip = true → domOn s 1 = true → t.chg.gates = 0 ∧ t.chg.mode = 0 ∧ t.chg.rb = 0
  charger : t.tha.chgTrip = false ∨ s.tha.chgTrip = true → t.chg = s.chg ∧ t.chp = s.chp ∧ SameHint 9 s t
  fans : ∀ m : Fin 4, t.thd.fans[m] = if t.tha.fanTrip = true ∧ fanTripDrv s m.val = true ∧ fanEn s m.val = true
    then { s.thd.fans[m] with pwm := 255 } else s.thd.fans[m]
  logs : t.tha.chgTrip = false ∨ s.tha.chgTrip = true ∨ s.chg.rb = 0 → ThaLogs s t 1 (tripCause n s)

/-- The charger at a trip: it acts where its line was not asserted before. -/
def chgTripRises (was : Bool) (s : State) : State := if was then s else chgTripped s

theorem chgTripRises_tha (was : Bool) (s : State) : (chgTripRises was s).tha = s.tha := by
  unfold chgTripRises
  split
  · rfl
  · exact chgTripped_tha s

theorem chgTripRises_thd (was : Bool) (s : State) : (chgTripRises was s).thd = s.thd := by
  unfold chgTripRises
  split
  · rfl
  · exact chgTripped_thd s

theorem chgTripRises_off {was : Bool} (h : s.tha.chgTrip = false ∨ was = true) : chgTripRises was s = s := by
  unfold chgTripRises
  split
  · rfl
  · next hw => exact chgTripped_off (h.resolve_right hw)

theorem chgTripRises_fbk {was : Bool} (h : s.tha.chgTrip = false ∨ was = true ∨ s.chg.rb = 0) : (chgTripRises was s).fbk = s.fbk := by
  rcases or_assoc.mpr h with h | h
  · rw [chgTripRises_off h]
  · unfold chgTripRises
    split
    · rfl
    · exact chgTripped_fbk h

/-- The trip of an entry whose comparators have seen a. -/
theorem tripEntered_trips (n : Fin 8) (a : Vector Int 4) (s : State) :
    Tripped n s (fansTripped (chgTripRises s.tha.chgTrip (tripEntered n { s with tha := { s.tha with anaIn := a } }))) := by
  set u : State := { s with tha := { s.tha with anaIn := a } }
  set v := tripEntered n u
  have htha : (chgTripRises s.tha.chgTrip v).tha = (tripLatched n u).tha := (chgTripRises_tha ..).trans (tripEntered_tha n u)
  have hthd : (chgTripRises s.tha.chgTrip v).thd = { s.thd with trips := modAt s.thd.trips n (fun c => { c with rels := 0 }) } :=
    (chgTripRises_thd ..).trans (tripEntered_thd n u)
  have hline : v.tha.chgTrip = (chgTripRises s.tha.chgTrip v).tha.chgTrip := by rw [chgTripRises_tha]
  have hcfg : (chgTripRises s.tha.chgTrip v).tha.cfg = s.tha.cfg := by rw [htha]; rfl
  obtain ⟨hchg, hchp⟩ := tripEntered_chg n u
  exact {
    tract := congrArg Tha.tract htha
    tflt := congrArg Tha.tflt htha
    tis := congrArg Tha.tis htha
    lines := tripLatched_follow (u := u) rfl htha
    sens := (congrArg ThaDat.sens hthd :)
    an := (congrArg ThaDat.an hthd :)
    gates := fun hwas hnow hd => by
      rw [hwas]
      exact chgTripped_gates (hline.trans hnow) ((tripEntered_domOn n u 1).trans hd)
    charger := fun h => by
      change (chgTripRises s.tha.chgTrip v).chg = s.chg ∧ (chgTripRises s.tha.chgTrip v).chp = s.chp ∧ SameHint 9 s (chgTripRises s.tha.chgTrip v)
      rw [chgTripRises_off (h.imp_left hline.trans)]
      exact ⟨hchg, hchp, tripEntered_hints n u⟩
    fans := fun m => by
      rw [fansTripped_fan, fanTripDrv_congr hcfg, fanEn_congr hcfg, hthd]
      rfl
    logs := fun h => by
      have hf : (chgTripRises s.tha.chgTrip v).fbk = v.fbk := chgTripRises_fbk (h.imp hline.trans (Or.imp_right fun h => by rw [hchg]; exact h))
      have hl : ThaLogs s v 1 (tripCause n s) := tripEntered_logs n u
      rw [ThaLogs, ← hf] at hl
      exact hl }

theorem thaTrip_trips (hd : domOn s 2 = true) (he : tripEn s n = true) (ht : s.tha.tract.testBit n.val = false) (hm : Meets s n x) :
    Tripped n s (thaTrip n x s) := by
  rw [thaTrip_eq hd he ht hm, anaPut_eq, anaSeen_eq]
  exact tripEntered_trips ..

/-- A comparator that stays on its releasing side leaves the entry as it is. -/
theorem thaTrip_unmet (ha : tripAna s n = true) (h4 : 4 ≤ n.val) (h : ¬ AnaActs s n 0 x) :
    thaTrip n x s = { s with tha := anaSeen n x s.tha } := by
  have hm : tripMet (anaPut n x s) n = false := by
    rw [tripMet, tripAna_congr (anaPut_cfg n x s), if_pos ha, anaActs_congr (anaPut_cfg n x s), anaPut_in h4, Bool.eq_false_iff]
    exact fun k => h ((anaActs_iff 0 x).mp k)
  rw [← anaPut_eq]
  exact if_neg (by rw [hm, Bool.and_false]; decide)

/-! ### Clears (R240, R241) -/

/-- The entry's bit clear, and the lines after it. -/
def tripUnlatched (n : Fin 8) (s : State) : State := tripLines (tisSet 0x04 { s with
  tha := { s.tha with tract := setBit s.tha.tract n.val false }
  thd := { s.thd with trips := modAt s.thd.trips n (fun c => { c with acts := 0, rels := 0 }) } })

theorem tripRelease_eq (n : Fin 8) (s : State) : tripRelease n s = setHint 10 (logRec 8 2 [n.val] (tripUnlatched n s)) := rfl

theorem tripRelease_tha (n : Fin 8) (s : State) : (tripRelease n s).tha = (tripUnlatched n s).tha := by
  rw [tripRelease_eq, setHint_tha, logRec_tha]

theorem tripRelease_thd (n : Fin 8) (s : State) :
    (tripRelease n s).thd = { s.thd with trips := modAt s.thd.trips n (fun c => { c with acts := 0, rels := 0 }) } := by
  rw [tripRelease_eq, setHint_thd, logRec_thd]
  rfl

theorem tripRelease_chg (n : Fin 8) (s : State) : (tripRelease n s).chg = s.chg := by
  rw [tripRelease_eq, setHint_chg, logRec_chg]
  rfl

theorem tripRelease_logs (n : Fin 8) (s : State) : ThaLogs s (tripRelease n s) 2 [n.val] := by
  rw [ThaLogs, tripRelease_eq, setHint_fbk]
  exact logRec_thaLogs (s := s) _ _ rfl rfl

theorem tripRelease_follow (hc : u.tha.cfg = s.tha.cfg) : LinesFollow s (tripRelease n u) := by
  refine tripLines_follow ?_ (tripRelease_tha n u)
  exact hc

theorem tripRelease_tract (n : Fin 8) (s : State) (j : Nat) :
    (tripRelease n s).tha.tract.testBit j = (s.tha.tract.testBit j && j != n.val) := by
  have h : (tripRelease n s).tha.tract = setBit s.tha.tract n.val false := by rw [tripRelease_tha]; rfl
  rw [h, testBit_setBit]
  by_cases hj : j = n.val <;> simp [hj]

theorem tripRelease_trips_ne {j : Fin 8} (h : j ≠ n) (s : State) : (tripRelease n s).thd.trips[j] = s.thd.trips[j] := by
  rw [tripRelease_thd]
  exact getElem_set_fin_ne h

theorem thaTripClear_clears (hd : domOn s 2 = true) (ht : s.tha.tract.testBit n.val = true) (hl : (thaLive s (0x80 + 6 * n.val)).testBit 5 = false)
    (ha : tripAna s n = true → 4 ≤ n.val) (hr : Releases s n x) : thaTripClear n x s = tripRelease n (anaPut n x s) := by
  have htr : (anaPut n x s).tha.tract = s.tha.tract := by rw [anaPut_tha]
  exact if_pos (by rw [anaPut_domOn, hd, htr, ht, thaLive_congr (anaPut_cfg n x s), hl, tripReleased_anaPut hr ha]; rfl)

/-- What entry n leaves of s when it clears. -/
structure Cleared (n : Fin 8) (s t : State) : Prop where
  tract : ∀ j, t.tha.tract.testBit j = (s.tha.tract.testBit j && j != n.val)
  tis : t.tha.tis = s.tha.tis ||| 4
  tflt : t.tha.tflt = s.tha.tflt
  lines : LinesFollow s t
  fans : t.thd.fans = s.thd.fans
  chg : t.chg = s.chg
  logs : ThaLogs s t 2 [n.val]

/-- The clear of an entry whose comparators have seen a. -/
theorem tripRelease_cleared (n : Fin 8) (a : Vector Int 4) (s : State) : Cleared n s (tripRelease n { s with tha := { s.tha with anaIn := a } }) := by
  set u : State := { s with tha := { s.tha with anaIn := a } }
  have htha := tripRelease_tha n u
  have hthd := tripRelease_thd n u
  exact {
    tract := tripRelease_tract n u
    tis := (congrArg Tha.tis htha :)
    tflt := (congrArg Tha.tflt htha :)
    lines := tripRelease_follow rfl
    fans := (congrArg ThaDat.fans hthd :)
    chg := tripRelease_chg n u
    logs := tripRelease_logs n u }

theorem thaTripClear_cleared (hd : domOn s 2 = true) (ht : s.tha.tract.testBit n.val = true)
    (hl : (thaLive s (0x80 + 6 * n.val)).testBit 5 = false) (ha : tripAna s n = true → 4 ≤ n.val) (hr : Releases s n x) :
    Cleared n s (thaTripClear n x s) := by
  rw [thaTripClear_clears hd ht hl ha hr, anaPut_eq, anaSeen_eq]
  exact tripRelease_cleared ..

/-! ### Writes of TRACT (R240) -/

/-- One bit of a W1C write of TRACT. -/
def tractStep (v : Nat) (s : State) (k : Nat) : State :=
  if h : k < 8 then
    if !v.testBit k || !s.tha.tract.testBit k then s
    else if tripReleased s ⟨k, h⟩ then tripRelease ⟨k, h⟩ s
    else tisSet 0x02 s
  else s

theorem tractWrite_eq (v : Nat) (s : State) : tractWrite v s = (upTo 8).foldl (tractStep v) s := rfl

/-- What a step leaves: nothing but a release or a flag. -/
theorem tractStep_cases (v : Nat) (s : State) (k : Nat) : tractStep v s k = s ∨ tractStep v s k = tisSet 0x02 s
    ∨ ∃ h : k < 8, tractStep v s k = tripRelease ⟨k, h⟩ s := by
  unfold tractStep
  split
  · next h =>
    split
    · exact .inl rfl
    split
    · exact .inr (.inr ⟨h, rfl⟩)
    · exact .inr (.inl rfl)
  · exact .inl rfl

/-- The parts of the state that TRACT's steps leave alone. -/
def tractFrame (s : State) : Stg × Vector Int 4 × Nat × Vector Fan 4 × Chg :=
  (s.tha.cfg, s.tha.anaIn, s.tha.tflt, s.thd.fans, s.chg)

theorem tractStep_frame (v : Nat) (s : State) (k : Nat) : tractFrame (tractStep v s k) = tractFrame s := by
  rcases tractStep_cases v s k with h | h | ⟨hk, h⟩ <;> rw [h]
  · rfl
  · rw [tractFrame, tripRelease_tha, tripRelease_thd, tripRelease_chg]
    rfl

theorem tractWrite_frame (v : Nat) (s : State) : tractFrame (tractWrite v s) = tractFrame s := by
  rw [tractWrite_eq]
  exact List.foldlRecOn (motive := fun t => tractFrame t = tractFrame s) (upTo 8) (tractStep v) rfl
    (fun t ht k _ => (tractStep_frame v t k).trans ht)

/-- What decides on bit j of a write of TRACT. -/
def tractSeen (j : Fin 8) (s : State) : Bool × TripCnt × Stg × Vector Int 4 :=
  (s.tha.tract.testBit j.val, s.thd.trips[j], s.tha.cfg, s.tha.anaIn)

theorem tractSeen_release (j : Fin 8) (s : State) : tractSeen j (tripRelease j s)
    = (false, { s.thd.trips[j] with acts := 0, rels := 0 }, s.tha.cfg, s.tha.anaIn) := by
  rw [tractSeen, tripRelease_tract, tripRelease_thd, tripRelease_tha, bne_self_eq_false, Bool.and_false]
  dsimp only
  rw [modAt_self]
  rfl

theorem tractSeen_release_ne {n j : Fin 8} (h : j ≠ n) (s : State) : tractSeen j (tripRelease n s) = tractSeen j s := by
  rw [tractSeen, tripRelease_tract, tripRelease_trips_ne h, tripRelease_tha, bne_iff_ne.mpr (Fin.val_ne_of_ne h), Bool.and_true]
  rfl

theorem tractStep_ne (v : Nat) {j : Fin 8} (s : State) {k : Nat} (h : k ≠ j.val) : tractSeen j (tractStep v s k) = tractSeen j s := by
  rcases tractStep_cases v s k with hs | hs | ⟨hk, hs⟩ <;> rw [hs]
  · rfl
  · exact tractSeen_release_ne (fun e => h (congrArg Fin.val e).symm) s

/-- The step of bit j. -/
theorem tractStep_self (v : Nat) (j : Fin 8) (s : State) : tractSeen j (tractStep v s j.val)
    = if v.testBit j.val = true ∧ s.tha.tract.testBit j.val = true ∧ tripReleased s j = true
      then (false, { s.thd.trips[j] with acts := 0, rels := 0 }, s.tha.cfg, s.tha.anaIn) else tractSeen j s := by
  rw [tractStep, dif_pos j.isLt]
  cases hv : v.testBit j.val
  · simp
  cases ht : s.tha.tract.testBit j.val
  · simp
  cases hr : tripReleased s j
  · simp [tractSeen]
  · simp [tractSeen_release]

theorem tractSeen_congr (v : Nat) {j : Fin 8} {s t : State} (h : tractSeen j s = tractSeen j t) :
    tractSeen j (tractStep v s j.val) = tractSeen j (tractStep v t j.val) := by
  have h' := h
  simp only [tractSeen, Prod.mk.injEq] at h'
  obtain ⟨ht, hc, hs, ha⟩ := h'
  rw [tractStep_self, tractStep_self, h, ht, hc, hs, ha, tripReleased_congr hs ha hc]

/-- A bit of TRACT after a write of v: it stays 1 unless v clears it and its entry releases. -/
theorem tractWrite_bit (v : Nat) (j : Fin 8) (s : State) : (tractWrite v s).tha.tract.testBit j.val = true
    ↔ s.tha.tract.testBit j.val = true ∧ ¬ (v.testBit j.val = true ∧ Releases s j s.tha.anaIn[anaCmp j]) := by
  have hfold : tractSeen j (tractWrite v s) = tractSeen j (tractStep v s j.val) := by
    rw [tractWrite_eq, foldl_at (j := j.val) (fun x k hk => tractStep_ne v x hk) (fun x y h => tractSeen_congr v h) (upTo_nodup 8),
      upTo, if_pos (List.mem_range.mpr j.isLt)]
  have hbit : (tractWrite v s).tha.tract.testBit j.val = (tractSeen j (tractStep v s j.val)).1 := congrArg Prod.fst hfold
  rw [hbit, tractStep_self, ← tripReleased_iff]
  split
  · next h => simp [h.2.2, h.1]
  · next h =>
    rw [tractSeen]
    tauto

/-- A write of TRACT by an engine, with the comparator inputs as they are brought. -/
theorem tractPut_eq {e : Eng} (h : EngMay s e 0x1409 true) (mask : Byte) (ins : Vector Int 4) :
    tractPut e mask.toNat ins s = tractWrite mask.toNat { s with tha := { s.tha with anaIn := ins } } := by
  have h' : EngMay { s with tha := { s.tha with anaIn := ins } } e 0x1409 true := h
  refine (if_pos h.1).trans ((engWrite_byte (b := 0x1400) (r := 6) h' rfl rfl rfl).trans ?_)
  rw [Nat.mod_eq_of_lt mask.isLt]
  rfl

end Sys2Proof.Machine
end

section
/-! SUPPORT. Fans: the curve and its loop, the tachometer, stalls and kicks, the duty and the pin (06 R242 to R247). -/

namespace Sys2Proof.Machine

variable {n : Fin 4} {s : State}

/-- s with fan n as f. -/
def putFan (n : Fin 4) (f : Fan) (s : State) : State := { s with thd := { s.thd with fans := s.thd.fans.set n f } }

/-! ### The curve and the loop (R245, R246) -/

/-- The temperatures of the valid sources of fan n. -/
def fanTemps (s : State) (n : Fin 4) : List Int :=
  (upTo 4).filterMap (fun i => srcTemp s (fld (thaLive s (0xB1 + 16 * n.val + i)) 4 0))

/-- The effective temperature, which follows the highest source with FHYS of hysteresis downwards. -/
def fanTeff (s : State) (n : Fin 4) (tin : Int) : Int :=
  match s.thd.fans[n].teff with
  | none => tin
  | some y => if y < tin then tin
    else if tin + 4 * (thaLive s (0xB5 + 16 * n.val) : Int) < y then tin + 4 * (thaLive s (0xB5 + 16 * n.val) : Int) else y

/-- The trimmed target of the curve. -/
def fanGoal (s : State) (n : Fin 4) (tin : Int) : Int := curveTarget s n.val (fanTeff s n tin) * (256 + toSigned 8 s.thd.fmptrim[n]) / 256

/-- The integral of a closed loop with a goal of more than 0, which an override holds. -/
def fanIntegral (s : State) (n : Fin 4) (goal : Int) : Int :=
  if s.thd.foven.testBit n.val then s.thd.fans[n].i
  else clampI (256 * (thaLive s (0xB6 + 16 * n.val) : Int)) 65535
    (s.thd.fans[n].i + (thaLive s (0xB9 + 16 * n.val) : Int) * (goal - s.thd.fans[n].speed))

/-- The duty and the integral that an evaluation with this goal gives. -/
def fanDrive (s : State) (n : Fin 4) (goal : Int) : Nat × Nat :=
  let dmin : Int := thaLive s (0xB6 + 16 * n.val)
  if fanClosed s n.val then
    if goal ≤ 0 then (0, if s.thd.foven.testBit n.val then s.thd.fans[n].i else (256 * dmin).toNat)
    else ((clampI dmin 255 (fanIntegral s n goal / 256 + (thaLive s (0xB8 + 16 * n.val) : Int) * (goal - s.thd.fans[n].speed) / 256)).toNat,
      (fanIntegral s n goal).toNat)
  else (if goal ≤ 0 then 0 else (max dmin (min 255 goal)).toNat, s.thd.fans[n].i)

section
variable {goal : Int}

theorem fanDrive_stop (hg : goal ≤ 0) : (fanDrive s n goal).1 = 0 := by
  unfold fanDrive
  dsimp only
  rw [if_pos hg, if_pos hg]
  split <;> rfl

theorem fanDrive_open (hc : fanClosed s n.val = false) (hg : 0 < goal) :
    fanDrive s n goal = ((max (thaLive s (0xB6 + 16 * n.val) : Int) (min 255 goal)).toNat, s.thd.fans[n].i) := by
  unfold fanDrive
  dsimp only
  rw [if_neg (by rw [hc]; decide), if_neg (not_le.mpr hg)]

theorem fanDrive_closed (hc : fanClosed s n.val = true) (hg : 0 < goal) : fanDrive s n goal
    = ((clampI (thaLive s (0xB6 + 16 * n.val)) 255 (fanIntegral s n goal / 256
      + (thaLive s (0xB8 + 16 * n.val) : Int) * (goal - s.thd.fans[n].speed) / 256)).toNat, (fanIntegral s n goal).toNat) := by
  unfold fanDrive
  dsimp only
  rw [if_pos hc, if_neg (not_le.mpr hg)]

end

/-- Fan n after an evaluation at the source temperature tin. -/
def fanEvaluated (s : State) (n : Fin 4) (tin : Int) : Fan :=
  let goal := fanGoal s n tin
  { s.thd.fans[n] with
    teff := some (fanTeff s n tin), noSrc := false, target := (if fanClosed s n.val then goal else min 255 goal).toNat
    loop := (fanDrive s n goal).1, i := (fanDrive s n goal).2 }

/-- The running maximum is the greatest element. -/
theorem foldl_max_eq {t tin : Int} {l : List Int} (hm : tin ∈ t :: l) (hle : ∀ y ∈ t :: l, y ≤ tin) : l.foldl max t = tin := by
  have h : (t :: l).max? = some tin := List.max?_eq_some_iff.mpr ⟨hm, hle⟩
  rw [List.max?_cons'] at h
  exact Option.some.inj h

section
variable (hd : domOn s 2 = true) (he : fanEn s n.val = true)
include hd he

theorem fanUpdate_none (ht : fanTemps s n = []) : fanUpdate n s = putFan n { s.thd.fans[n] with noSrc := true } s := by
  rw [fanTemps] at ht
  unfold fanUpdate
  dsimp only
  rw [if_neg (by rw [hd, he]; decide), ht]
  rfl

theorem fanUpdate_eq {tin : Int} (hm : tin ∈ fanTemps s n) (hle : ∀ y ∈ fanTemps s n, y ≤ tin) :
    fanUpdate n s = putFan n (fanEvaluated s n tin) s := by
  unfold fanTemps at hm hle
  unfold fanUpdate
  dsimp only
  rw [if_neg (by rw [hd, he]; decide)]
  generalize List.filterMap _ _ = l at hm hle
  cases l with
  | nil => cases hm
  | cons t l =>
    dsimp only
    rw [foldl_max_eq hm hle]
    unfold fanEvaluated fanDrive
    dsimp only
    change (if fanClosed s n.val = true then if fanGoal s n tin ≤ 0 then _ else _ else _) = _
    by_cases hc : fanClosed s n.val = true
    · by_cases hg : fanGoal s n tin ≤ 0
      · simp only [if_pos hc, if_pos hg]
        rfl
      · simp only [if_pos hc, if_neg hg]
        rfl
    · simp only [if_neg hc]
      rfl

end

/-! ### The tachometer, stalls and kicks (R243, R244) -/

theorem fanTach_spans (n : Fin 4) (ck : Nat) (s : State) : fanTach n ck true s = s := if_pos (by rw [Bool.or_true, Bool.true_or])

/-- The speed of an interval of ck CK between accepted edges. -/
def fanSpeed (s : State) (n : Fin 4) (ck : Nat) : Nat :=
  reg16 (openRound ((60 * (if s.clk.ckPll = true then 240000000 else 24000000) : Rat)
    / ((ck * (fld (thaLive s (0xB0 + 16 * n.val)) 3 2 + 1) : Nat) : Rat)))

theorem fanTach_edge (hd : domOn s 2 = true) {ck : Nat} (hc : 0 < ck) : fanTach n ck false s = putFan n
    (if fanSpeed s n ck = 0 then { s.thd.fans[n] with speed := 0 }
     else { s.thd.fans[n] with speed := fanSpeed s n ck, stall := false, kicks := 0 }) s := by
  have hf : ∀ v : Nat, (if v ≠ 0 then { s.thd.fans[n] with speed := v, stall := false, kicks := 0 } else { s.thd.fans[n] with speed := v })
      = if v = 0 then { s.thd.fans[n] with speed := 0 } else { s.thd.fans[n] with speed := v, stall := false, kicks := 0 } := by
    intro v
    by_cases h : v = 0 <;> simp [h]
  rw [← hf]
  exact if_neg (by simp [hd, hc.ne'])

theorem fanZero_eq (hd : domOn s 2 = true) : fanZero n s = putFan n { s.thd.fans[n] with speed := 0 } s := if_pos hd

theorem fanKickEnd_eq (hd : domOn s 2 = true) : fanKickEnd n s = putFan n { s.thd.fans[n] with kick := false } s := if_pos hd

theorem fanPwm_eq (hd : domOn s 2 = true) : fanPwm n s = putFan n { s.thd.fans[n] with pwm := fanDuty s n } s := if_pos hd

/-- A stalled fan, which kicks at most three times. -/
def fanStalled (f : Fan) : Fan := { f with stall := true, kick := decide (f.kicks < 3), kicks := if f.kicks < 3 then f.kicks + 1 else f.kicks }

theorem fanStall_eq (hd : domOn s 2 = true) (he : fanEn s n.val = true) (h0 : s.thd.fans[n].speed = 0) (hk : s.thd.fans[n].kick = false)
    (hs : thaLive s (0xBC + 16 * n.val) ≤ s.thd.fans[n].pwm) : fanStall n s
    = setHint 10 (logRec 8 4 [n.val, s.thd.fans[n].kicks] (tisSet 0x10 (tfltSet 4 (putFan n (fanStalled s.thd.fans[n]) s)))) :=
  if_pos (by rw [hd, he, hk, decide_eq_true h0, decide_eq_true hs]; rfl)

theorem fanStall_stalls (hd : domOn s 2 = true) (he : fanEn s n.val = true) (h0 : s.thd.fans[n].speed = 0) (hk : s.thd.fans[n].kick = false)
    (hs : thaLive s (0xBC + 16 * n.val) ≤ s.thd.fans[n].pwm) :
    (fanStall n s).thd = { s.thd with fans := s.thd.fans.set n (fanStalled s.thd.fans[n]) }
    ∧ (fanStall n s).tha = { s.tha with tflt := s.tha.tflt ||| 4, tis := s.tha.tis ||| 0x10 }
    ∧ ThaLogs s (fanStall n s) 4 [n.val, s.thd.fans[n].kicks] := by
  rw [fanStall_eq hd he h0 hk hs, ThaLogs, setHint_thd, setHint_tha, setHint_fbk, logRec_thd, logRec_tha]
  exact ⟨rfl, rfl, logRec_thaLogs (s := s) _ _ rfl rfl⟩

/-! ### The pin (R242) -/

theorem fanDuty_eq (s : State) (n : Fin 4) : fanDuty s n = if fanEn s n.val = false then 0
    else if s.tha.fanTrip = true ∧ fanTripDrv s n.val = true then 255 else if s.thd.fans[n].kick then 255
    else if s.thd.foven.testBit n.val then s.thd.fovr[n] else if s.thd.fans[n].noSrc then thaLive s (0xB7 + 16 * n.val) else s.thd.fans[n].loop := by
  simp only [fanDuty, Bool.and_eq_true, Bool.not_eq_true']

theorem fanPin_eq (hp : padsOn s = true) (hd : domOn s 2 = true) (hm : s.gpio.viom = true) (t : Nat) : fanPin s n t
    = if fanEn s n.val = true ∧ (decide (t < fanOnCk s n) ≠ !(thaLive s (0xB0 + 16 * n.val)).testBit 4) then .low else .hiZ := by
  have hpad : ∀ l : Pin, padOf s 2 s.gpio.viom l = l := fun l => if_pos (by rw [hp, hd, hm]; rfl)
  rw [fanPin, hpad]
  cases fanEn s n.val <;> cases decide (t < fanOnCk s n) <;> cases (thaLive s (0xB0 + 16 * n.val)).testBit 4 <;> rfl

/-! ### FANVAL (R250) -/

section
variable {p : Port} {w : Nat}

/-- The fan of FANSEL. -/
theorem fansel_fan (hn : s.hp[p].sel.fansel % 4 = n.val) : finOf 4 (s.hp[p].sel.fansel % 4) = n := by
  rw [hn]
  exact Fin.ofNat_val_eq_self n

section
variable (hn : finOf 4 (s.hp[p].sel.fansel % 4) = n) (hi : fld s.hp[p].sel.fansel 5 3 = 4)
include hn hi

theorem fanvalWrite_set (hw : w < 0x100) : fanvalWrite p w s
    = ({ s with thd := { s.thd with fovr := s.thd.fovr.set n w, foven := setBit s.thd.foven n.val true } }, 0) := by
  subst hn
  exact if_pos (by rw [decide_eq_true hi, decide_eq_true hw]; rfl)

theorem fanvalWrite_off : fanvalWrite p 0xFFFF s = ({ s with thd := { s.thd with foven := setBit s.thd.foven n.val false } }, 0) := by
  subst hn
  unfold fanvalWrite
  dsimp only
  rw [decide_eq_true hi]
  rfl

end

theorem fanvalWrite_refused (hr : fld s.hp[p].sel.fansel 5 3 ≠ 4 ∨ 0x100 ≤ w ∧ w ≠ 0xFFFF) : fanvalWrite p w s = (s, 6) := by
  unfold fanvalWrite
  dsimp only
  rcases hr with hi | ⟨hlo, hff⟩
  · rw [decide_eq_false hi]
    rfl
  · rw [decide_eq_false (Nat.not_lt.mpr hlo), decide_eq_false hff, Bool.and_false]
    rfl

variable {priv : Bool} (h : PortMay s p priv 0x21 true)
include h

/-- A write of FANVAL that is taken. -/
theorem hostWrite_fanval {t : State} (hf : fanvalWrite p w (bufFree p s) = (t, 0)) : hostWrite p priv 0x21 w s = t := hostWrite_ok h hf

/-- One that is not is REFUSED. -/
theorem hostWrite_fanval_refused (hr : fld s.hp[p].sel.fansel 5 3 ≠ 4 ∨ 0x100 ≤ w ∧ w ≠ 0xFFFF) :
    hostWrite p priv 0x21 w s = portErr p 6 0x21 true (bufFree p s) := by
  have hf : portPut p priv 0x21 w (bufFree p s) = (bufFree p s, 6) := fanvalWrite_refused (by rwa [bufFree_sel])
  obtain ⟨hserves, hcheck⟩ := h
  simp [hostWrite, hostTry, hserves, hcheck, hf]

end

/-! ### The fan curve table (R252) -/

/-- The point of the curve at FCSEL, of the set that VIEWLIVE shows. -/
def fcvPoint (s : State) : Nat := spGet 0 (if s.tha.viewlive then s.tha.cfg.live else s.tha.cfg.stg) (0x20000 + s.tha.fcsel)

variable {e m : Eng}

theorem engWrite_fcv (h : EngMay s e 0x14F2 true) (h' : EngMay s e 0x14F3 true) (v : Half) : ∃ y, engWrite e 0x14F2 2 v.toNat s
    = withIo y { s with tha := { s.tha with
      cfg := { s.tha.cfg with stg := spSet 0 s.tha.cfg.stg (0x20000 + s.tha.fcsel) v.toNat, dirty := true }, fcsel := (s.tha.fcsel + 1) % 32 } } := by
  obtain ⟨y, hy⟩ := engWrite_two (b := 0x1400) (r := 6) (v := v.toNat) h h' (by decide) rfl rfl rfl (fun _ => rfl) rfl (fun _ => rfl)
  have hv : v.toNat % 65536 = v.toNat := Nat.mod_eq_of_lt v.isLt
  rw [hv] at hy
  have hw : ∀ w, regWrite (.ce e) e 6 (0x14F2 - 0x1400) w (withIo y s) = withIo y { s with tha := { s.tha with
      cfg := { s.tha.cfg with stg := spSet 0 s.tha.cfg.stg (0x20000 + s.tha.fcsel) (w % 65536), dirty := true }
      fcsel := (s.tha.fcsel + 1) % 32 } } := fun _ => rfl
  rw [hw, hv] at hy
  exact ⟨y, hy⟩

/-- The I/O addresses a and a + 1 hold a register of region r at base b that is read with no latch: shared by the engines, refused to
none, and a read of its top byte, alone, acts. -/
structure OpenPair (a b r : Nat) : Prop where
  above : b ≤ a
  low : ioRegion a = (b, r)
  high : ioRegion (a + 1) = (b, r)
  shared : perEng r (a - b) = false
  span : ∀ s, spanAt r (a - b) s = { lo := a - b, len := 2, kind := .rw }
  spanHigh : ∀ s, spanAt r (a + 1 - b) s = { lo := a - b, len := 2, kind := .rw }
  free : ∀ s e, readRefused s e a = false ∧ readRefused s e (a + 1) = false
  acts : readActs a = true
  lowRead : ∀ s, topRead a s = s
  topActs : topActs (a + 1) = true

namespace OpenPair

/-- The two bytes of a value. -/
theorem leNat_bytes (v : Nat) : leNat [byteOf v 0, byteOf v 1] = v % 65536 := by
  simp only [leNat, byteOf, Nat.shiftRight_eq_div_pow]
  omega

variable {e n : Eng} {m : Mst} {a b r v j k : Nat} {s t : State} (i : OpenPair a b r)
include i

theorem at_one : a + 1 - b - (a - b) = 1 := by have := i.above; omega

theorem base_add : b + (a - b) = a := by have := i.above; omega

/-- A first read of the low byte is noted. -/
theorem ioGet_low (hv : (regRead e r (a - b) s).2 = v) : ∃ y, ioGet m e a s = (withIo y s, byteOf v 0) := by
  refine ⟨{ s.io with was := spSet none (spErase s.io.was (a + 1)) a (some v) }, ?_⟩
  simp [ioGet, i.low, i.span, i.shared, hv, i.base_add, readNote, i.acts, i.lowRead, withIo]

/-- A first read of the high byte is noted for both bytes, and acts. -/
theorem ioGet_high (hv : (regRead e r (a - b) s).2 = v) : ∃ z, ioGet m e (a + 1) s = (topRead (a + 1) (withIo z s), byteOf v 1)
    ∧ spGet none z.was a = some v ∧ spGet none z.was (a + 1) = some v := by
  refine ⟨{ s.io with was := spSet none (spSet none s.io.was a (some v)) (a + 1) (some v) }, ?_, ?_, spGet_spSet_some _ _ _⟩
  · simp [ioGet, i.high, i.spanHigh, i.shared, hv, i.at_one, i.base_add, readNote, i.acts, i.topActs, withIo]
  · rw [spGet_spSet (fun _ => none), if_neg (by omega)]
    exact spGet_spSet_some _ _ _

/-- A read of the low byte on the edge of a read that is noted gives what that one gave. -/
theorem ioGet_low_again (hw : spGet none s.io.was a = some v) : ioGet m e a s true = (s, byteOf v 0) := by
  simp [ioGet, i.low, i.span, i.shared, readWas, hw]

/-- So does one of the high byte, and it does not act. -/
theorem ioGet_high_again (hw : spGet none s.io.was (a + 1) = some v) : ioGet m e (a + 1) s true = (s, byteOf v 1) := by
  simp [ioGet, i.high, i.spanHigh, i.shared, i.at_one, readWas, hw]

/-- An engine reads both bytes, where its read of the first leaves the state but for the I/O fabric. -/
theorem engRead_whole {again : Bool} {y z : IoBuf} (h : EngMay s e a false) (h' : EngMay s e (a + 1) false)
    (hj : ioGet (.ce e) e a s again = (withIo y s, j)) (hk : ioGet (.ce e) e (a + 1) (withIo y s) again = (withIo z t, k)) :
    engRead e a 2 s again = withIo { z with rd := z.rd.set e (leNat [j, k]) } t := by
  have he : engRead e a 2 s again = inBytes e again a 2 [] s := by
    obtain ⟨hrun, -, -, hbad, -⟩ := h
    rw [engRead, if_pos hrun, engCount_eq hbad, afterKick_none hbad]
  rw [he, IndexedPair.inBytes_succ h (i.free s e).1, hj, IndexedPair.inBytes_succ (h'.withIo y) (i.free (withIo y s) e).2, hk]
  rfl

/-- Two engines read the register on one edge: both get its value, and the read acts once. -/
theorem readBoth (hv : ∀ y, (regRead e r (a - b) (withIo y s)).2 = v) (ht : ∀ y, topRead (a + 1) (withIo y s) = withIo y t)
    (h : EngMay s e a false) (h' : EngMay s e (a + 1) false) (hn : EngMay t n a false) (hn' : EngMay t n (a + 1) false) :
    ∃ y z, engRead e a 2 s = withIo y t ∧ y.rd[e] = v % 65536 ∧ engRead n a 2 (withIo y t) true = withIo z t ∧ z.rd[n] = v % 65536 := by
  obtain ⟨y, hlow⟩ := i.ioGet_low (m := .ce e) (hv s.io)
  obtain ⟨z, hhigh, hw, hw'⟩ := i.ioGet_high (m := .ce e) (hv y)
  rw [withIo_withIo, ht] at hhigh
  let w : IoBuf := { z with rd := z.rd.set e (leNat [byteOf v 0, byteOf v 1]) }
  have hnlow : ioGet (.ce n) n a (withIo w t) true = (withIo w (withIo w t), byteOf v 0) := i.ioGet_low_again hw
  have hnhigh : ioGet (.ce n) n (a + 1) (withIo w (withIo w t)) true = (withIo w t, byteOf v 1) := i.ioGet_high_again hw'
  refine ⟨w, _, i.engRead_whole h h' hlow hhigh, ?_, i.engRead_whole (hn.withIo w) (hn'.withIo w) hnlow hnhigh, ?_⟩
  · simp [w, leNat_bytes]
  · simp [leNat_bytes]

end OpenPair

/-- FCDAT (R252). -/
theorem fcdat_pair : OpenPair 0x14F2 0x1400 6 :=
  ⟨by decide, rfl, rfl, rfl, fun _ => rfl, fun _ => rfl, fun _ _ => ⟨rfl, rfl⟩, by decide, fun _ => rfl, by decide⟩

/-- Two engines read FCDAT on one edge (R38, log entry 2). -/
theorem fcdat_readBoth (h : EngMay s e 0x14F2 false) (h' : EngMay s e 0x14F3 false) (hm : EngMay s m 0x14F2 false) (hm' : EngMay s m 0x14F3 false) :
    ReadBoth (.fanCurveAccess · none ·) e m (fcvPoint s % 65536) s { s with tha := { s.tha with fcsel := (s.tha.fcsel + 1) % 32 } } := by
  obtain ⟨y, z, h1, h2, h3, h4⟩ := fcdat_pair.readBoth (e := e) (n := m) (v := fcvPoint s)
    (t := { s with tha := { s.tha with fcsel := (s.tha.fcsel + 1) % 32 } }) (fun _ => rfl) (fun _ => rfl) h h' hm hm'
  exact ⟨y, z, congrArg Host.Outcome.next h1, h2, congrArg Host.Outcome.next h3, h4⟩

end Sys2Proof.Machine
end

section
/-! CERTIFICATE. Trip entries and fans (06 R239 to R247, R250, R252). -/

namespace Sys2Proof.Machine

/-- Settles O54: what decides, trips, clears and evaluates is written out by the lemmas on the trip entries and on the fans; a
register access is the write of its region, or two reads on one edge. -/
theorem tripsAndFans : Obligations.TripsAndFans := by
  unfold Obligations.TripsAndFans
  intro k n e mask x ins ck t0 p priv v s hd
  refine ⟨?trip, ?unmet, ?clear, ?tract, ?curve, ?tach, ?zero, ?stall, ?pin, ?kickEnd, ?pwm, ?fanval, ?refused, ?fcvWrite, ?fcvRead⟩
  case trip =>
    intro he ht hm
    obtain ⟨tract, tflt, tis, lines, sens, an, gates, charger, fans, logs⟩ := thaTrip_trips hd he ht hm
    exact ⟨_, rfl, tract, tflt, tis, lines, sens, an, gates, charger, fans, logs⟩
  case unmet => exact fun ha h4 h => congrArg Host.Outcome.next (thaTrip_unmet ha h4 h)
  case clear =>
    intro ht hl ha hr
    obtain ⟨tract, tis, tflt, lines, fans, chg, logs⟩ := thaTripClear_cleared hd ht hl ha hr
    exact ⟨_, rfl, fun j _ => tract j, tis, tflt, lines, fans, chg, logs⟩
  case tract =>
    intro h
    have hframe := tractWrite_frame mask.toNat { s with tha := { s.tha with anaIn := ins } }
    simp only [tractFrame, Prod.mk.injEq] at hframe
    obtain ⟨-, -, tflt, fans, chg⟩ := hframe
    exact ⟨_, congrArg Host.Outcome.next (tractPut_eq h mask ins), fans, chg, tflt, fun j => tractWrite_bit mask.toNat j _⟩
  case curve =>
    intro he
    refine ⟨fun ht => congrArg Host.Outcome.next (fanUpdate_none hd he ht), fun tin hm hle => ?_⟩
    refine ⟨_, congrArg Host.Outcome.next (fanUpdate_eq hd he hm hle), ?_⟩
    have hat : (putFan n (fanEvaluated s n tin) s).thd.fans[n] = fanEvaluated s n tin := getElem_set_fin_self ..
    dsimp only
    rw [hat]
    refine ⟨rfl, rfl, fanDrive_stop, fun hc hg => ?_, fun hc hg => ?_⟩
    · exact Prod.mk.inj (fanDrive_open hc hg)
    · exact (Prod.mk.inj (fanDrive_closed hc hg)).symm
  case tach =>
    exact fun hm hck => ⟨congrArg Host.Outcome.next ((if_pos hm).trans (fanTach_spans n ck s)),
      congrArg Host.Outcome.next ((if_pos hm).trans (fanTach_edge hd hck))⟩
  case zero => exact congrArg Host.Outcome.next (fanZero_eq hd)
  case stall => exact fun he h0 hk hs => ⟨_, rfl, fanStall_stalls hd he h0 hk hs⟩
  case pin => exact fun hp hm => fanPin_eq hp hd hm t0
  case kickEnd => exact congrArg Host.Outcome.next (fanKickEnd_eq hd)
  case pwm => exact congrArg Host.Outcome.next ((fanPwm_eq hd).trans (by rw [fanDuty_eq]; rfl))
  case fanval =>
    intro h hn hi
    have hf := fansel_fan hn
    rw [← bufFree_sel (p := p)] at hf hi
    refine ⟨fun hv => congrArg Host.Outcome.next (hostWrite_fanval h (fanvalWrite_set hf hi hv)), fun hv => ?_, fun hv hff => ?_⟩
    · subst hv
      exact congrArg Host.Outcome.next (hostWrite_fanval h (fanvalWrite_off hf hi))
    · exact congrArg Host.Outcome.next (hostWrite_fanval_refused h (.inr ⟨hv, fun e => hff (BitVec.eq_of_toNat_eq e)⟩))
  case refused => exact fun h hi => congrArg Host.Outcome.next (hostWrite_fanval_refused h (.inl hi))
  case fcvWrite =>
    intro h h'
    obtain ⟨y, hy⟩ := engWrite_fcv h h' v
    exact ⟨y, congrArg Host.Outcome.next hy⟩
  case fcvRead => exact fun m h h' hm hm' => fcdat_readBoth h h' hm hm'

end Sys2Proof.Machine
end

section
/-! SUPPORT. Accesses of a host port that are turned away (07 R265, R267, R269, R272 to R274): what the error response leaves. -/

namespace Sys2Proof.Machine

/-- Port h after an error response: ERRINFO holds it, MULTI where an error was already held, and HINTS.ERR is set (R272, R274). -/
def portErred (code off : Nat) (wr : Bool) (h : HPort) : HPort :=
  { h with
    err := { valid := true, multi := h.err.multi || h.err.valid, code := code, wr := wr, off := off }
    sel := { h.sel with hints := h.sel.hints ||| 0x8000#16 } }

variable {p : Port} {priv wr : Bool} {off code v : Nat} {s t : State}

theorem portErr_eq : portErr p code off wr s = putPort p (portErred code off wr s.hp[p]) s := by
  simp [portErr, setHintP, portErred]

/-- A read that a check turns away answers 0x0000 (R265, R272). -/
theorem hostRead_refused (hs : portServes s p = true) (hc : portCheck s p priv off false = code) (h0 : code ≠ 0) :
    hostRead p priv off s
      = putPort p { portErred code off false s.hp[p] with dOut := 0, driven := true, rdyLow := false, wbuf := 0 } s := by
  simp [hostRead, hs, hc, h0, portErr_eq, portData]

/-- A write that a check turns away has left the buffer all the same (R267, R272). -/
theorem hostTry_refused {f : State → State × Nat} (hs : portServes s p = true) (hc : portCheck s p priv off true = code) (h0 : code ≠ 0) :
    hostTry p priv off f s = portErr p code off true (bufFree p s) := by
  simp [hostTry, hs, hc, h0]

/-- A write that passes the checks of R273 and that its register refuses. -/
theorem hostTry_error {f : State → State × Nat} (h : PortMay s p priv off true) (hf : f (bufFree p s) = (t, code)) (h0 : code ≠ 0) :
    hostTry p priv off f s = portErr p code off true t := by
  obtain ⟨hs, hc⟩ := h
  simp [hostTry, hs, hc, hf, h0]

/-- Offsets from 0x3C on are no registers (R273, R277). -/
theorem portCheck_pastRegisters (h : 0x3C ≤ off) : portCheck s p priv off wr = 1 := if_pos h

/-- The turning away that comes before every check leaves the drivers of D off (R267, R269). -/
theorem hostTurned_eq (hs : portServes s p = true) :
    hostTurned p code off wr s = putPort p { portErred code off wr s.hp[p] with driven := false } s := by
  rw [hostTurned, if_pos hs, portErr_eq, dRelease, putPort_putPort, putPort_self]
  rfl

end Sys2Proof.Machine
end

section
/-! SUPPORT. The host side of mailboxes and doorbells (07 R281; 08 R297, R299 to R302, R306). -/

namespace Sys2Proof.Machine

variable {p : Port} {priv : Bool} {c k v : Nat} {x : Chan} {s t : State}

/-! ### Channels -/

theorem chan_putChan (d : Nat) : spGet {} (putChan c x s).mbx.chans d = if c = d then x else spGet {} s.mbx.chans d :=
  spGet_spSet (fun _ => {}) s.mbx.chans c d x

theorem chan_putChan_self : spGet {} (putChan c x s).mbx.chans c = x := by rw [chan_putChan, if_pos rfl]

/-- A message to an engine raises EPEND and no hint (R302). -/
theorem sendPerform_toEngine {stamp len : Nat} {buf : Nat → Nat} (hd : chanDir s c = false) :
    sendPerform c stamp len buf s = putChan c {
      full := true, coll := (chan s c).coll || (chan s c).full, epend := true, len := len, stamp := stamp,
      seq := (chan s c).seq + 1, slot := sendSlot buf len } s := by
  simp [sendPerform, hd]

/-- The release of a message from an engine raises EPEND and no hint (R302). -/
theorem releasePerform_fromEngine (hd : chanDir s c = true) :
    releasePerform c s = putChan c { chan s c with full := false, len := 0, stamp := 0, slot := [], epend := true } s := by
  simp [releasePerform, hd]

/-- What a port's change of one channel leaves alone: the other channels, the doorbells, the engines, the locks and ERRINFO. -/
theorem putChan_bufFree_frame :
    (∀ d, d ≠ c → spGet {} (putChan c x (bufFree p s)).mbx.chans d = spGet {} s.mbx.chans d)
      ∧ (putChan c x (bufFree p s)).mbx.dbE = s.mbx.dbE ∧ (putChan c x (bufFree p s)).mbx.dbH = s.mbx.dbH
      ∧ (putChan c x (bufFree p s)).mbx.eng = s.mbx.eng ∧ (putChan c x (bufFree p s)).eng = s.eng
      ∧ (putChan c x (bufFree p s)).lck = s.lck ∧ (putChan c x (bufFree p s)).hp[p].err = s.hp[p].err := by
  refine ⟨fun d hd => ?_, rfl, rfl, rfl, rfl, rfl, ?_⟩
  · rw [chan_putChan, if_neg (Ne.symm hd)]; rfl
  · simp [bufFree]

/-! ### MBSEND (R299, R300) -/

/-- A word of MBSEND that holds a length alone: no RELEASE, and LEN as it is (R300). -/
theorem sendLen_fields {len : BitVec 5} : len.toNat.testBit 15 = false ∧ len.toNat % 32 = len.toNat :=
  ⟨Nat.testBit_lt_two_pow (len.isLt.trans (by decide)), Nat.mod_eq_of_lt len.isLt⟩

section Send
variable {len : BitVec 5} (ha : mbAccess s p = 0) (h1 : 1 ≤ len.toNat) (h16 : len.toNat ≤ 16)
  (hd : chanDir s (s.hp[p].sel.mbsel % 1024) = false)
include ha h1 h16 hd

/-- With the channel and a length in range, only a message in the slot that LATEST does not let go refuses a send (R300). -/
theorem mbSendCode_send : mbSendCode s p len.toNat = if (chan s (s.hp[p].sel.mbsel % 1024)).full
    && !chanLatest s (s.hp[p].sel.mbsel % 1024) then 0x0D else 0 := by
  obtain ⟨h15, hm⟩ := sendLen_fields (len := len)
  have hr : ¬ (len.toNat = 0 ∨ 16 < len.toNat) := by omega
  simp [mbSendCode, ha, h15, hm, hd, hr, -Fin.getElem_fin]

/-- A send that is performed (R301). -/
theorem mbSend_performed (hf : (chan s (s.hp[p].sel.mbsel % 1024)).full = false ∨ chanLatest s (s.hp[p].sel.mbsel % 1024) = true) :
    mbSend p priv len.toNat s = (sendPerform (s.hp[p].sel.mbsel % 1024) (6 + p.val + (if priv then 2 else 0)) len.toNat
      (spGet 0 s.hp[p].sel.mbuf) s, 0) := by
  obtain ⟨h15, hm⟩ := sendLen_fields (len := len)
  have hc : mbSendCode s p len.toNat = 0 := by
    rw [mbSendCode_send ha h1 h16 hd, if_neg]
    rcases hf with hf | hf <;> simp [hf, -Fin.getElem_fin]
  simp [mbSend, hc, h15, hm]

/-- A send to a full channel (R300). -/
theorem mbSend_collides (hf : (chan s (s.hp[p].sel.mbsel % 1024)).full = true) (hl : chanLatest s (s.hp[p].sel.mbsel % 1024) = false) :
    mbSend p priv len.toNat s = (sendColl (s.hp[p].sel.mbsel % 1024) s, 0x0D) := by
  have hc : mbSendCode s p len.toNat = 0x0D := by
    rw [mbSendCode_send ha h1 h16 hd, hf, hl]
    rfl
  simp [mbSend, hc, (sendLen_fields (len := len)).1, hd, -Fin.getElem_fin]

end Send

/-- MBSEND with RELEASE = 1 of a message from an engine (R302). -/
theorem mbSend_releases (ha : mbAccess s p = 0) (hd : chanDir s (s.hp[p].sel.mbsel % 1024) = true)
    (hf : (chan s (s.hp[p].sel.mbsel % 1024)).full = true) :
    mbSend p priv 0x8000 s = (releasePerform (s.hp[p].sel.mbsel % 1024) s, 0) := by
  have h15 : Nat.testBit 0x8000 15 = true := by decide
  have hc : mbSendCode s p 0x8000 = 0 := by simp [mbSendCode, ha, hd, hf, h15, -Fin.getElem_fin]
  simp [mbSend, hc, h15]

/-- MBSEND with a code other than that of a reserved length, which sets the ERR flag of MBX too. -/
theorem portPut_mbsend {n : Nat} (hm : mbSend p priv v s = (t, n)) (h5 : n ≠ 5) : portPut p priv 0x0F v s = (t, n) := by
  change (if (mbSend p priv v s).2 = 5 then _ else (mbSend p priv v s).1, (mbSend p priv v s).2) = _
  rw [hm, if_neg h5]

/-! ### Doorbells (R281, R306) -/

/-- A ring raises the wake request of a doorbell in WATCH (R439), which leaves the mailboxes alone. -/
theorem ringEngine_mbx : (ringEngine p k s).mbx = { s.mbx with dbE := s.mbx.dbE.set p (s.mbx.dbE[p] ||| (1#64 <<< (k % 64))) } := by
  rw [ringEngine, raiseWake_eq]

theorem ringEngine_run (h : s.dct.mode = .run) : ringEngine p k s
    = { s with mbx := { s.mbx with dbE := s.mbx.dbE.set p (s.mbx.dbE[p] ||| (1#64 <<< (k % 64))) } } := by
  simp [ringEngine, raiseWake, h]

theorem hostWrite_dbset (h : PortMay s p priv 0x10 true) (hr : dbRoute s p (k % 64) ≠ 7) :
    hostWrite p priv 0x10 k s = ringEngine p (k % 64) (bufFree p s) := hostWrite_ok h (if_neg hr)

theorem hostWrite_dbclr (h : PortMay s p priv 0x12 true) :
    hostWrite p priv 0x12 v s = dbClrHost p (v.testBit 15) (v % 64) (bufFree p s) := hostWrite_ok h rfl

end Sys2Proof.Machine
end

section
/-! CERTIFICATE. The host side of mailboxes and doorbells (07 R281; 08 R297, R300 to R302, R306). -/

namespace Sys2Proof.Machine

/-- Settles O27: an MBSEND changes the one channel that MBSEL names, and a doorbell write the one row of its port. -/
theorem hostMailboxes : Obligations.HostMailboxes := by
  unfold Obligations.HostMailboxes
  intro p priv len k s h c x s0 rest
  have hsel : (bufFree p s).hp[p].sel = s.hp[p].sel := bufFree_sel
  have hk : k.toNat % 64 = k.toNat := Nat.mod_eq_of_lt k.isLt
  have hk15 : k.toNat.testBit 15 = false := Nat.testBit_lt_two_pow (k.isLt.trans (by decide))
  refine ⟨?send, ?collision, ?release, ?releaseSent, ?dbset, ?dbsetAny, ?dbclr⟩
  case send =>
    intro hm ha h1 h16 hd hf
    rw [← mbAccess_bufFree] at ha
    have hsend := mbSend_performed (priv := priv) ha h1 h16 (by rw [hsel]; exact hd) (by rw [hsel]; exact hf)
    rw [hsel, sendPerform_toEngine (s := bufFree p s) hd] at hsend
    exact ⟨_, congrArg Host.Outcome.next (hostWrite_ok hm (portPut_mbsend hsend (by decide))), putChan_bufFree_frame, chan_putChan_self⟩
  case collision =>
    intro hm ha h1 h16 hd hf hl
    rw [← mbAccess_bufFree] at ha
    have hsend := mbSend_collides (priv := priv) ha h1 h16 (by rw [hsel]; exact hd) (by rw [hsel]; exact hf) (by rw [hsel]; exact hl)
    rw [hsel, sendColl] at hsend
    refine ⟨_, congrArg Host.Outcome.next (hostTry_error hm (portPut_mbsend hsend (by decide)) (by decide)), ?_⟩
    simp only [portErr_eq, putPort_self]
    exact ⟨chan_putChan_self, rfl, rfl⟩
  case release =>
    intro hm ha hd hf
    rw [← mbAccess_bufFree] at ha
    have hrel := mbSend_releases (priv := priv) ha (by rw [hsel]; exact hd) (by rw [hsel]; exact hf)
    rw [hsel, releasePerform_fromEngine (s := bufFree p s) hd] at hrel
    exact ⟨_, congrArg Host.Outcome.next (hostWrite_ok hm (portPut_mbsend hrel (by decide))), putChan_bufFree_frame, chan_putChan_self⟩
  case releaseSent =>
    intro hm ha
    have hrel : mbReleaseSent p (bufFree p s) = (bufFree p s, 0x0D) := by rw [mbReleaseSent, mbAccess_bufFree, if_pos ha]
    refine ⟨_, congrArg Host.Outcome.next (hostTry_error hm hrel (by decide)), ?_⟩
    simp only [portErr_eq, putPort_self]
    exact ⟨rfl, rfl, rfl⟩
  case dbset =>
    intro hm hr hrun
    refine congrArg Host.Outcome.next ((hostWrite_dbset hm (by rwa [hk])).trans ?_)
    rw [ringEngine_run (s := bufFree p s) hrun, hk, hk]
    rfl
  case dbsetAny =>
    intro hm hr
    refine ⟨_, congrArg Host.Outcome.next (hostWrite_dbset hm (by rwa [hk])), ringEngine_mbx.trans ?_⟩
    rw [hk, hk]
    rfl
  case dbclr =>
    refine fun hm => ⟨congrArg Host.Outcome.next ((hostWrite_dbclr hm).trans ?_), congrArg Host.Outcome.next (hostWrite_dbclr hm)⟩
    rw [hk15, hk, dbClrHost, hk]
    rfl

end Sys2Proof.Machine
end

section
/-! CERTIFICATE. An access that a check of the ports turns away (07 R265, R272 to R274). -/

namespace Sys2Proof.Machine

/-- Settles O25: the read and the write that a check turns away each leave the error response and the data pins of their direction. -/
theorem hostErrorResponse : Obligations.HostErrorResponse := by
  unfold Obligations.HostErrorResponse
  intro p priv adr v s hs h off err
  refine ⟨fun c hc h0 => ?read, fun c hc h0 => ?write, fun ho => ⟨portCheck_pastRegisters ho, portCheck_pastRegisters ho⟩⟩
  case read => exact congrArg Host.Outcome.next (hostRead_refused hs hc h0)
  case write =>
    have hw : hostWrite p priv off v.toNat s = err c true h.dOut := by
      rw [hostWrite, hostTry_refused hs hc h0, portErr_eq, bufFree, putPort_putPort, putPort_self]
      rfl
    exact congrArg Host.Outcome.next hw

end Sys2Proof.Machine
end

section
/-! SUPPORT. The pins of a host port, its supply and what PRST clears (07 R262, R263, R265, R274, R279; 02 R86; 13 R435, R438). -/

namespace Sys2Proof.Machine

variable {p : Port} {priv : Bool} {x : HPort} {s t : State}

/-! ### Pads -/

theorem padsOn_of (ha : s.rst.active = 0) (hs : 2 ≤ s.rst.step) (hm : s.dct.mode ≠ .ship) : padsOn s = true := by
  simp [padsOn, ha, hs, hm]

theorem padOf_driven {d : Nat} (hp : padsOn s = true) (hd : domOn s d = true) (l : Pin) : padOf s d true l = l := by
  simp [padOf, hp, hd]

/-- The outputs of a port are high impedance on an unpowered port, in SHIP, in a reset and with D7 off (R21, R262, R402, R435). -/
theorem padOf_undriven (h : s.hp[p].powered = false ∨ s.dct.mode = .ship ∨ s.rst.active ≠ 0 ∨ domOn s 7 = false) (l : Pin) :
    padOf s 7 s.hp[p].powered l = .hiZ := by
  rcases h with h | h | h | h <;> simp [padOf, padsOn, h, -Fin.getElem_fin]

/-- The data pins are driven only while a read drives them (R265). -/
theorem dPin_hiZ (n : Nat) (rd : Bool) (h : s.hp[p].driven = false ∨ rd = false) : dPin s p n rd = .hiZ := by
  rcases h with h | h <;> simp [dPin, h, padOf_hiZ, -Fin.getElem_fin]

section Driven
variable (hpad : ∀ l : Pin, padOf s 7 s.hp[p].powered l = l)
include hpad

/-- RDY while the port drives it (R263, R267): low on a full buffer, and else high or released by RDYOD. -/
theorem rdyPin_driven : rdyPin s p = if s.hp[p].cs then
    (if s.hp[p].rdyLow then .low else if s.hp[p].hctl.testBit 1 then .hiZ else .high) else .hiZ := by
  rw [rdyPin, hpad]
  cases s.hp[p].cs with
  | false => rfl
  | true =>
    cases s.hp[p].rdyLow with
    | false => rfl
    | true => exact ite_self Pin.low

/-- INT_N while the port drives it (R270): low on an enabled hint, and else high with INTPP or released. -/
theorem intPin_driven : intPin s p = if (s.hp[p].sel.hints &&& s.hp[p].sel.hinte) ≠ 0 then .low
    else if s.hp[p].hctl.testBit 2 then .high else .hiZ := by
  rw [intPin, hpad, intLow]
  by_cases hi : (s.hp[p].sel.hints &&& s.hp[p].sel.hinte) ≠ 0
  · rw [if_pos hi, decide_eq_true hi]
    exact ite_self Pin.low
  · rw [if_neg hi, decide_eq_false hi]
    rfl

/-- ERR_N while the port drives it (R274): driven where ERRPIN asks for it, low on an error that is not acknowledged. -/
theorem errPin_driven : errPin s p = if s.hp[p].hctl.testBit 0 then (if s.hp[p].err.valid then .low else .high) else .hiZ := by
  rw [errPin, hpad, errLow]
  cases s.hp[p].hctl.testBit 0 with
  | false => rfl
  | true => cases s.hp[p].err.valid <;> rfl

end Driven

theorem portServes_iff : portServes s p = true ↔ s.hp[p].powered = true ∧ s.hp[p].cs = true ∧ domOn s 7 = true ∧ s.dct.mode ≠ .ship := by
  simp [portServes, and_assoc]

/-! ### Supply (R262, R435, R438) -/

/-- DCT powers D7 up for a port only where it is off (R438). -/
theorem d7Wanted_on (h : domOn s 7 = true) : d7Wanted s = s := by simp [d7Wanted, h]

theorem portPower_powered {v18 : Bool} (h : s.hp[p].powered = true) : portPower p v18 s = putPort p { s.hp[p] with vio18 := v18 } s := by
  simp only [portPower, h, if_true]

/-- A port that gets its supply where D7 is on already (R438). -/
theorem portPower_d7On {v18 : Bool} (h : s.hp[p].powered = false) (hr : s.rst.recovery = false) (hd : domOn s 7 = true)
    (hm : s.dct.mode ≠ .ship) : portPower p v18 s = putPort p { s.hp[p] with powered := true, vio18 := v18 } s := by
  have hw : d7Wanted (putPort p { s.hp[p] with powered := true, vio18 := v18 } s)
      = putPort p { s.hp[p] with powered := true, vio18 := v18 } s := d7Wanted_on hd
  simp [portPower, h, hr, hm, hw, -Fin.getElem_fin]

/-- In SHIP the port's supply brings D7 up (R32, R435). -/
theorem portPower_ship {v18 : Bool} (h : s.hp[p].powered = false) (hr : s.rst.recovery = false) (hm : s.dct.mode = .ship)
    (ha : s.rst.active = 0) : portPower p v18 s = domUp 7 (putPort p { s.hp[p] with powered := true, vio18 := v18 } s) := by
  simp [portPower, h, hr, hm, ha, -Fin.getElem_fin]

/-! ### Locks (R310) -/

/-- No lock is left with a master whose locks are released. -/
theorem spGet_filter_ne (m : Sparse Nat) {n : Nat} (hn : n ≠ 0) (k : Nat) : spGet 0 (m.filter (fun e => e.2 ≠ n)) k ≠ n := by
  induction m with
  | nil => exact hn.symm
  | cons e l ih =>
    by_cases he : e.2 = n
    · simpa [he] using ih
    · by_cases hk : e.1 = k
      · simp [he, spGet, hk]
      · simpa [he, spGet, hk] using ih

theorem lockOwner_eq_some {l m : Nat} (h : lockOwner s l = some m) : spGet 0 s.lck.held l = m + 1 := by
  unfold lockOwner at h
  split at h
  · cases h
  · next n hn => rw [hn, Option.some.inj h]

theorem lockOwner_locksRelease (m l : Nat) : lockOwner (locksRelease m s) l ≠ some m := fun h =>
  spGet_filter_ne s.lck.held (Nat.succ_ne_zero m) l (lockOwner_eq_some h)

/-! ### The reset of the per-port state (R86, R279) -/

/-- The count of an enabled encoder lies ENCTHR or more from 0, with D5 and D7 on to tell the port (R86). -/
def encFromZero (s : State) : Bool :=
  domOn s 5 && domOn s 7 && s.ksc.encthr ≠ 0 && (List.finRange 4).any (fun n =>
    s.ksc.encctl.testBit n.val && decide ((s.ksc.encthr : Int) ≤ |s.ksc.enc[n].count.toInt|))

theorem encAway_zeroRefs (hz : ∀ n : Fin 4, s.ksc.enc[n].refH[p] = 0) (h5 : domOn s 5 = true) (h7 : domOn s 7 = true) :
    encAway (fun e => e.refH[p]) s = encFromZero s := by
  simp only [encAway, encFar, encFromZero, hz, h5, h7, Bool.true_and]
  by_cases ht : s.ksc.encthr = 0 <;> simp [ht]

/-- What a reset of the per-port state clears, before the encoder hint that it may raise (R279). -/
def portCleared (p : Port) (s : State) : State :=
  let s1 := putSel p (selFresh s) (locksRelease (6 + p.val) s)
  { s1 with
    ksc := { s1.ksc with frozen := s1.ksc.frozen.set p {}, enc := s1.ksc.enc.map (fun (x : Encoder) => { x with refH := x.refH.set p 0 }) }
    chs := { s1.chs with held := s1.chs.held.set p [] } }

theorem portCleared_enc (n : Fin 4) : (portCleared p s).ksc.enc[n] = { s.ksc.enc[n] with refH := s.ksc.enc[n].refH.set p 0 } := by
  simp [portCleared, putSel, locksRelease]

/-- The reset of the per-port state is the clearing, with HINTS.ENC where a count now differs from its zeroed reference. -/
theorem portReset_eq : portReset p s = if encFromZero s then setHintP p 3 (portCleared p s) else portCleared p s := by
  have hz : ∀ n : Fin 4, (portCleared p s).ksc.enc[n].refH[p] = 0 := fun n => by
    rw [portCleared_enc]
    simp
  have he : encFromZero (portCleared p s) = encFromZero s := by simp only [encFromZero, portCleared_enc]; rfl
  change (if domOn s 5 && domOn s 7 then encHintP p (portCleared p s) else portCleared p s) = _
  by_cases h : domOn s 5 = true ∧ domOn s 7 = true
  · rw [encHintP, encAway_zeroRefs hz h.1 h.2, he]
    simp [h]
  · have hf : encFromZero s = false := by
      simp only [encFromZero]
      rcases Classical.not_and_iff_not_or_not.mp h with h | h <;> simp [h]
    rw [hf]
    simp [h]

theorem portReset_self : (portReset p s).hp[p]
    = { s.hp[p] with sel := { fbcur := { seq := fbOldest s }, hints := if encFromZero s then 0x0008#16 else 0 } } := by
  rw [portReset_eq]
  split <;> simp [setHintP, portCleared, putSel, locksRelease, selFresh]

/-- Beyond the port's own registers a reset of the per-port state changes its selections held elsewhere and its locks only. -/
theorem portReset_rest : (portReset p s).lck = (locksRelease (6 + p.val) s).lck ∧ (portReset p s).ksc = (portCleared p s).ksc
    ∧ (portReset p s).mbx = s.mbx ∧ (portReset p s).hsh = s.hsh := by
  rw [portReset_eq]
  split <;> exact ⟨rfl, rfl, rfl, rfl⟩

theorem portReset_ne {n : Port} (h : n ≠ p) : (portReset p s).hp[n] = s.hp[n] := by
  have hc : (portCleared p s).hp[n] = s.hp[n] := putPort_ne _ p n _ h
  rw [portReset_eq]
  split
  · rw [setHintP, putPort_ne _ _ _ _ h, hc]
  · exact hc

/-- From s to t the per-port state of port p has been reset, with the pins and the control register of the port as x has them
(R262, R279). -/
def PortReset (p : Port) (x : HPort) (s t : State) : Prop :=
  t.hp[p] = { x with rdyLow := false, wbuf := 0, sel := { fbcur := { seq := fbOldest s }, hints := if encFromZero s then 0x0008#16 else 0 } }
    ∧ (∀ l, lockOwner t l ≠ some (6 + p.val)) ∧ (∀ n : Fin 4, t.ksc.enc[n].refH[p] = 0 ∧ t.ksc.enc[n].count = s.ksc.enc[n].count)
    ∧ (∀ n : Port, n ≠ p → t.hp[n] = s.hp[n]) ∧ t.mbx = s.mbx ∧ t.hsh = s.hsh

theorem portReset_fresh : PortReset p x s (portReset p (putPort p { x with rdyLow := false, wbuf := 0 } s)) := by
  obtain ⟨hlck, hksc, hmbx, hhsh⟩ := portReset_rest (p := p) (s := putPort p { x with rdyLow := false, wbuf := 0 } s)
  refine ⟨?_, fun l => ?_, fun n => ?_, fun n hn => ?_, hmbx, hhsh⟩
  · rw [portReset_self, putPort_self]
    rfl
  · rw [lockOwner, hlck]
    exact lockOwner_locksRelease (s := s) (6 + p.val) l
  · rw [hksc, portCleared_enc]
    exact ⟨by simp, rfl⟩
  · rw [portReset_ne hn, putPort_ne _ _ _ _ hn]

/-- A port that loses its supply (R262). -/
theorem portUnpower_fresh (h : s.hp[p].powered = true) :
    PortReset p { s.hp[p] with powered := false, vio18 := false, cs := false, driven := false } s (portUnpower p s) := by
  have hf := portReset_fresh (p := p) (s := s) (x := { s.hp[p] with powered := false, vio18 := false, cs := false, driven := false })
  simp only [portUnpower, h, Bool.not_true, Bool.false_eq_true, if_false]
  split <;> exact hf

/-- HCTL.PRST resets the port's own state and leaves the other bits of HCTL (R279). -/
theorem hostWrite_prst (h : PortMay s p priv 0x05 true) : PortReset p { s.hp[p] with hctl := s.hp[p].hctl % 8, driven := false } s
    (hostWrite p priv 0x05 (setBit s.hp[p].hctl 3 true) s) := by
  have h3 : (setBit s.hp[p].hctl 3 true).testBit 3 = true := by rw [testBit_setBit, if_pos rfl]
  have h8 : setBit s.hp[p].hctl 3 true % 8 = s.hp[p].hctl % 8 := by
    unfold setBit
    split
    · rfl
    · split
      · exact Nat.add_mod_right _ 8
      · omega
  have hw : hctlWrite p (setBit s.hp[p].hctl 3 true) (bufFree p s)
      = portReset p (putPort p { s.hp[p] with hctl := s.hp[p].hctl % 8, driven := false, rdyLow := false, wbuf := 0 } s) := by
    simp only [hctlWrite, h3, h8, if_true, bufFree, putPort_putPort, putPort_self]
  rw [hostWrite_ok h (congrArg (·, 0) hw)]
  exact portReset_fresh

end Sys2Proof.Machine
end

section
/-! CERTIFICATE. The pins and resets of a host port (07 R262, R263, R267, R269, R274, R279; 17 R505). -/

namespace Sys2Proof.Machine

/-- Settles O24: each command is the port operation of its lemma, and each pin is its pad. -/
theorem portPins : Obligations.PortPins := by
  unfold Obligations.PortPins
  intro p priv v18 low wr off left v s h away fresh err
  refine ⟨?power, ?level, ?unpower, ?prst, ?select, ?strobes, ?errinfo, ?hints, ?ship, ?undriven, ?driven⟩
  case power => exact fun hp hr hd hm => congrArg Host.Outcome.next (portPower_d7On hp hr hd hm)
  case level => exact fun hp => congrArg Host.Outcome.next (portPower_powered hp)
  case unpower => exact fun hp => ⟨_, rfl, portUnpower_fresh hp⟩
  case prst => exact fun hm => ⟨_, rfl, hostWrite_prst hm⟩
  case select => exact fun hp => congrArg Host.Outcome.next (if_pos hp)
  case strobes =>
    exact fun hs => ⟨congrArg Host.Outcome.next (if_pos hs), congrArg Host.Outcome.next (hostTurned_eq hs),
      congrArg Host.Outcome.next (hostTurned_eq hs)⟩
  case errinfo =>
    intro hm ha hst
    refine ⟨_, congrArg Host.Outcome.next (hostRead_errinfo hm), by rw [putPort_self], fun n => ?_⟩
    obtain ⟨hp, -, hd, hmode⟩ := portServes_iff.mp hm.1
    rw [dPin, putPort_self, hp]
    exact padOf_driven (padsOn_of ha hst hmode) hd _
  case hints =>
    refine fun hm => ⟨_, congrArg Host.Outcome.next (hostWrite_hints hm), fun n => dPin_hiZ n true (.inl ?_)⟩
    rw [portWrote, putPort_self]
  case ship => exact fun hp hr hm ha => congrArg Host.Outcome.next (portPower_ship hp hr hm ha)
  case undriven =>
    exact fun hu => ⟨padOf_undriven hu _, padOf_undriven hu _, padOf_undriven hu _, fun n rd => padOf_undriven hu _⟩
  case driven =>
    intro hp hm ha hst hd
    have hpad : ∀ l : Pin, padOf s 7 s.hp[p].powered l = l := by
      have hpow : s.hp[p].powered = true := hp
      rw [hpow]
      exact padOf_driven (padsOn_of ha hst hm) hd
    exact ⟨rdyPin_driven hpad, intPin_driven hpad, errPin_driven hpad,
      fun n => ⟨dPin_hiZ n false (.inr rfl), fun hn => dPin_hiZ n true (.inl hn)⟩⟩

end Sys2Proof.Machine
end

section
/-! SUPPORT. The locks (08 R309, R310, R315): the holder after a lock is taken or freed, and the one acquire or release that each
register makes. -/

namespace Sys2Proof.Machine

variable {e : Eng} {p : Port} {priv : Bool} {k l m o w : Nat} {s t : State}

/-! ### The holders -/

/-- Master m holds lock k, and the lock unit is else as it was. -/
def lockTaken (k m : Nat) (s : State) : State := { s with lck := { s.lck with held := spSet 0 s.lck.held k (m + 1) } }

theorem lockOwner_eq_of_spGet (h : spGet 0 s.lck.held l = m + 1) : lockOwner s l = some m := by rw [lockOwner, h]

theorem lockOwner_congr (h : spGet 0 t.lck.held l = spGet 0 s.lck.held l) : lockOwner t l = lockOwner s l := by
  rw [lockOwner, h, lockOwner]

/-- Freeing a lock leaves every other lock with its holder (R310). -/
theorem lockFree_frees : lockOwner (lockFree l s) l = none ∧ ∀ k, k ≠ l → lockOwner (lockFree l s) k = lockOwner s k := by
  refine ⟨?_, fun k hk => lockOwner_congr ?_⟩
  · rw [lockOwner, lockFree, spGet_spErase, if_pos rfl]
  · rw [lockFree, spGet_spErase, if_neg hk.symm]

/-! ### One acquire (R309) -/

theorem lockAcquire_free (h : lockOwner s l = none) : lockAcquire m l s = (lockTaken l m s, true, false, m) := by
  rw [lockAcquire, h]
  rfl

theorem lockAcquire_held (h : lockOwner s l = some o) : lockAcquire m l s = (s, decide (o = m), decide (o ≠ m), o) := by
  rw [lockAcquire, h]
  by_cases hm : o = m <;> simp [hm]

/-- HELD or BUSY, and the holder: what a read of a held lock gives, with HELD as bit n + 1 (R315, R280). -/
theorem lockBits (n : Nat) : bAt (decide (o = m)) (n + 1) + bAt (decide (o ≠ m)) n + o = (if o = m then 2 ^ (n + 1) else 2 ^ n) + o := by
  by_cases hm : o = m <;> simp [bAt, hm]

/-- A read of LKACQ by an engine is its acquire (R315). -/
theorem engRead_lkacq (h : EngMay s e 0x305 false) :
    ∃ y, engRead e 0x305 1 s = withIo y (lkAcq e s).1 ∧ y.rd[e] = (lkAcq e s).2 % 256 := by
  have hg : ioGet (.ce e) e 0x305 s = lkAcq e s := ioGet_byte (b := 0x300) (r := 1) (by decide) rfl rfl
  rw [engRead_one h rfl, hg]
  exact ⟨_, rfl, getElem_set_fin_self ..⟩

theorem engRead_lkacq_free (h : EngMay s e 0x305 false) (hl : lockOwner s s.lck.lksel[e] = none) :
    ∃ y, engRead e 0x305 1 s = withIo y (lockTaken s.lck.lksel[e] e.val s) ∧ y.rd[e] = 0x80 + e.val := by
  obtain ⟨y, hy, hv⟩ := engRead_lkacq h
  rw [lkAcq, lockAcquire_free hl] at hy hv
  refine ⟨y, hy, hv.trans (Nat.mod_eq_of_lt ?_)⟩
  have he : e.val < 6 := e.isLt
  change 0x80 + 0 + e.val < 256
  omega

theorem engRead_lkacq_held (h : EngMay s e 0x305 false) (hl : lockOwner s s.lck.lksel[e] = some o) :
    ∃ y, engRead e 0x305 1 s = withIo y s ∧ y.rd[e] = ((if o = e.val then 0x80 else 0x40) + o) % 256 := by
  obtain ⟨y, hy, hv⟩ := engRead_lkacq h
  rw [lkAcq, lockAcquire_held hl] at hy hv
  exact ⟨y, hy, hv.trans (congrArg (· % 256) (lockBits 6))⟩

/-- A read of LOCK by a port is its acquire (R309). -/
theorem hostRead_lock (h : PortMay s p priv 0x14 false) : hostRead p priv 0x14 s
    = portData p (bAt (lockAcquire (6 + p.val) s.hp[p].sel.locksel s).2.1 15 + bAt (lockAcquire (6 + p.val) s.hp[p].sel.locksel s).2.2.1 14
        + (lockAcquire (6 + p.val) s.hp[p].sel.locksel s).2.2.2) (lockAcquire (6 + p.val) s.hp[p].sel.locksel s).1 := hostRead_ok h rfl

theorem hostRead_lock_free (h : PortMay s p priv 0x14 false) (hl : lockOwner s s.hp[p].sel.locksel = none) :
    hostRead p priv 0x14 s = portData p (0x8000 + 6 + p.val) (lockTaken s.hp[p].sel.locksel (6 + p.val) s) := by
  rw [hostRead_lock h, lockAcquire_free hl, Nat.add_assoc 0x8000]
  rfl

theorem hostRead_lock_held (h : PortMay s p priv 0x14 false) (hl : lockOwner s s.hp[p].sel.locksel = some o) :
    hostRead p priv 0x14 s = portData p ((if o = 6 + p.val then 0x8000 else 0x4000) + o) s := by
  rw [hostRead_lock h, lockAcquire_held hl, lockBits]
  rfl

/-- A master that acquires alone on its edge meets no contention. -/
theorem lockRead_alone (n : Mst) : lockRead n [] s = mstRead n 0x305 1 0x14 s := by
  have ha : lockArbitrate ([n].filter (lockReaches s)) s = s := by cases h : lockReaches s n <;> simp [h, lockArbitrate]
  simp only [lockRead, ha]
  rfl

/-! ### Releases (R310) -/

theorem engWrite_lkrel (h : EngMay s e 0x306 true) (l : BitVec 5) : engWrite e 0x306 1 l.toNat s = lkRel e l.toNat s := by
  have hl := l.isLt
  rw [engWrite_byte (b := 0x300) (r := 1) h rfl rfl rfl]
  change lkRel e (l.toNat % 256 % 32) s = _
  congr 1
  omega

theorem engWrite_lkforce (h : EngMay s e 0x311 true) (hr : s.prt.eflags[e].testBit 0 = true) (l : BitVec 5) :
    engWrite e 0x311 1 l.toNat s = lkForce e l.toNat s := by
  have hl := l.isLt
  have hw : writeRefused s (.ce e) e 0x311 (l.toNat % 256) = false := by simp [writeRefused, mstFlag, hr, -Fin.getElem_fin]
  rw [engWrite_byte (b := 0x300) (r := 1) h rfl rfl hw]
  change lkForce e (l.toNat % 256 % 32) s = _
  congr 1
  omega

/-- A forced release frees the lock whoever holds it; its record touches no lock (R310). -/
theorem lkForce_frees : lockOwner (lkForce e l s) l = none ∧ ∀ k, k ≠ l → lockOwner (lkForce e l s) k = lockOwner s k := by
  rw [lkForce]
  split
  · next h => exact ⟨h, fun _ _ => rfl⟩
  · rw [logRec_eq]
    exact lockFree_frees

theorem portPut_lockrel (l : BitVec 5) : portPut p priv 0x15 l.toNat (bufFree p s)
    = if lockOwner s l.toNat = some (6 + p.val) then (lockFree l.toNat (bufFree p s), 0) else (bufFree p s, 0x0E) := by
  have hl : l.toNat % 32 = l.toNat := Nat.mod_eq_of_lt l.isLt
  change (if lockOwner s (l.toNat % 32) = some (6 + p.val) then (lockFree (l.toNat % 32) (bufFree p s), 0) else (bufFree p s, 0x0E)) = _
  rw [hl]

end Sys2Proof.Machine
end

section
/-! SUPPORT. Masters that acquire one lock on one edge (08 R309): the winner by the round-robin pointer, and the reads that answer. -/

namespace Sys2Proof.Machine

variable {k v w : Nat} {m n : Mst} {ms l : List Mst} {s t : State}

/-- Master n may acquire, and names lock k. -/
def AcquiresLock (s : State) (k : Nat) : Mst → Prop
  | .ce e => EngMay s e 0x305 false ∧ s.lck.lksel[e] = k
  | .hp p priv => PortMay s p priv 0x14 false ∧ s.hp[p].sel.locksel = k

theorem AcquiresLock.reaches (h : AcquiresLock s k n) : lockReaches s n = true := by
  cases n with
  | ce e =>
    obtain ⟨⟨hr, hd, ho, -⟩, -⟩ := h
    simp [lockReaches, hr, hd, ho]
  | hp p priv =>
    obtain ⟨⟨hs, hc⟩, -⟩ := h
    simp [lockReaches, hs, hc]

theorem AcquiresLock.named (h : AcquiresLock s k n) : lockNamed s n = k := by cases n <;> exact h.2

/-! ### The winner -/

/-- How far the codes of the masters stand behind the pointer, in cyclic order (R309). -/
def cyclicDist (ptr m : Nat) : Nat := (m + 8 - ptr) % 8

theorem cyclicFirst_eq_argmin (ptr : Nat) (c : List Nat) : cyclicFirst ptr c = c.argmin (cyclicDist ptr) := by
  unfold cyclicFirst List.argmin
  congr 1
  funext a m
  cases a <;> rfl

theorem lockContend_held (c : List Nat) (h : lockOwner s k = some w) : lockContend c k s = s := by rw [lockContend, h]

/-- A free lock goes to the first of the contending masters at or after the pointer, which moves past the winner (R309). -/
theorem lockContend_free {c : List Nat} (hc : c ≠ []) (h : lockOwner s k = none) :
    ∃ w ∈ c, lockOwner (lockContend c k s) k = some w ∧ spGet 0 (lockContend c k s).lck.ptr k = (w + 1) % 8
      ∧ (∀ n ∈ c, cyclicDist (spGet 0 s.lck.ptr k) w ≤ cyclicDist (spGet 0 s.lck.ptr k) n)
      ∧ lockContend c k s = { s with lck := { s.lck with held := (lockContend c k s).lck.held, ptr := (lockContend c k s).lck.ptr } } := by
  have hne : c.argmin (cyclicDist (spGet 0 s.lck.ptr k)) ≠ none := fun h0 => hc (List.argmin_eq_none.mp h0)
  obtain ⟨w, hw⟩ := Option.ne_none_iff_exists'.mp hne
  have ht : lockContend c k s
      = { s with lck := { s.lck with held := spSet 0 s.lck.held k (w + 1), ptr := spSet 0 s.lck.ptr k ((w + 1) % 8) } } := by
    rw [lockContend, h, cyclicFirst_eq_argmin, hw]
  refine ⟨w, List.argmin_mem hw, lockOwner_eq_of_spGet ?_, ?_, fun n hn => List.le_of_mem_argmin hn hw, ?_⟩
  · rw [ht, spGet_spSet (fun _ => 0), if_pos rfl]
  · rw [ht, spGet_spSet (fun _ => 0), if_pos rfl]
  · rw [ht]

/-- Two or more masters that all name lock k contend for it once. -/
theorem lockArbitrate_one (hl : ∀ n ∈ m :: ms, AcquiresLock s k n) (hne : ms ≠ []) (h : lockOwner s k = none) :
    lockArbitrate (m :: ms) s = lockContend ((m :: ms).map mstCode) k s := by
  have hstep : ∀ t, ∀ n ∈ m :: ms, (let c := (m :: ms).filter (fun j => lockNamed s j = lockNamed s n)
      if 2 ≤ c.length then lockContend (c.map mstCode) (lockNamed s n) t else t) = lockContend ((m :: ms).map mstCode) k t := by
    intro t n hn
    have hc : (m :: ms).filter (fun j => lockNamed s j = lockNamed s n) = m :: ms :=
      List.filter_eq_self.mpr fun j hj => decide_eq_true ((hl j hj).named.trans (hl n hn).named.symm)
    have h2 : 2 ≤ (m :: ms).length := Nat.succ_le_succ (List.length_pos_of_ne_nil hne)
    dsimp only
    rw [hc, if_pos h2, (hl n hn).named]
  obtain ⟨w, -, hw, -⟩ := lockContend_free (c := (m :: ms).map mstCode) (List.cons_ne_nil _ _) h
  rw [lockArbitrate, List.foldl_ext _ _ _ hstep]
  exact List.foldl_fixed' (fun _ => lockContend_held _ hw) ms

/-! ### The reads -/

/-- From s to t nothing has changed but the I/O fabric and what the ports have on their data output. -/
structure OnlyAnswers (s t : State) : Prop where
  rest : t = { s with io := t.io, hp := t.hp }
  ports : ∀ p : Port, t.hp[p] = { s.hp[p] with
    driven := t.hp[p].driven, rdyLow := t.hp[p].rdyLow, wbuf := t.hp[p].wbuf, dOut := t.hp[p].dOut }

theorem OnlyAnswers.refl (s : State) : OnlyAnswers s s := ⟨rfl, fun _ => rfl⟩

theorem OnlyAnswers.withIo (h : OnlyAnswers s t) (y : IoBuf) : OnlyAnswers s (withIo y t) :=
  ⟨congrArg (Machine.withIo y) h.rest, h.ports⟩

theorem OnlyAnswers.portData (h : OnlyAnswers s t) (p : Port) (v : Nat) : OnlyAnswers s (portData p v t) := by
  refine ⟨congrArg (Machine.portData p v) h.rest, fun q => ?_⟩
  by_cases hq : q = p
  · subst hq
    rw [Machine.portData, putPort_self, h.ports]
  · rw [Machine.portData, putPort_ne _ _ _ _ hq]
    exact h.ports q

theorem OnlyAnswers.lck (h : OnlyAnswers s t) : t.lck = s.lck := by rw [h.rest]

/-- The answers of other masters on the edge leave a master's own acquire as it was. -/
theorem OnlyAnswers.acquires (h : OnlyAnswers s t) (ha : AcquiresLock s k n) : AcquiresLock t k n := by
  cases n with
  | ce e =>
    obtain ⟨hm, hk⟩ := ha
    rw [h.rest]
    exact ⟨hm, hk⟩
  | hp p priv =>
    obtain ⟨⟨hs, hc⟩, hk⟩ := ha
    refine ⟨⟨?_, ?_⟩, ?_⟩
    · rw [portServes_iff] at hs ⊢
      rw [h.ports p, h.rest]
      exact hs
    · rw [h.rest]
      exact hc
    · rw [h.ports p]
      exact hk

/-- The read of a port that acquires lock k while w holds it gives HELD or BUSY, with the holder (R309). -/
def lockShown (w : Nat) (p : Port) : BitVec 16 := BitVec.ofNat 16 ((if 6 + p.val = w then 0x8000 else 0x4000) + w)

theorem lockShown_eq (p : Port) : lockShown w p = BitVec.ofNat 16 ((if w = 6 + p.val then 0x8000 else 0x4000) + w) := by
  simp only [lockShown, eq_comm]

theorem portData_dOut_keeps (p q : Port) (h : t.hp[q].dOut = lockShown w q) :
    (portData p ((if w = 6 + p.val then 0x8000 else 0x4000) + w) t).hp[q].dOut = lockShown w q := by
  by_cases hq : q = p
  · subst hq
    rw [portData, putPort_self, lockShown_eq]
  · rw [portData, putPort_ne _ _ _ _ hq]
    exact h

/-- One read of a lock that w holds: it changes what its master reads only, and a port reads the lock. -/
theorem mstRead_lockHeld (ha : AcquiresLock t k n) (hw : lockOwner t k = some w) (h : OnlyAnswers s t) :
    OnlyAnswers s (mstRead n 0x305 1 0x14 t)
      ∧ (∀ q : Port, t.hp[q].dOut = lockShown w q → (mstRead n 0x305 1 0x14 t).hp[q].dOut = lockShown w q)
      ∧ ∀ p priv, n = .hp p priv → (mstRead n 0x305 1 0x14 t).hp[p].dOut = lockShown w p := by
  cases n with
  | ce e =>
    obtain ⟨hm, rfl⟩ := ha
    obtain ⟨y, hy, -⟩ := engRead_lkacq_held hm hw
    have hr : mstRead (.ce e) 0x305 1 0x14 t = withIo y t := hy
    rw [hr]
    exact ⟨h.withIo y, fun q hq => hq, fun p priv hn => Mst.noConfusion hn⟩
  | hp p priv =>
    obtain ⟨hm, rfl⟩ := ha
    have hr : mstRead (.hp p priv) 0x305 1 0x14 t = portData p ((if w = 6 + p.val then 0x8000 else 0x4000) + w) t := hostRead_lock_held hm hw
    rw [hr]
    refine ⟨h.portData p _, fun q hq => portData_dOut_keeps p q hq, fun q _ hn => ?_⟩
    obtain ⟨rfl, -⟩ := Mst.hp.inj hn
    rw [portData, putPort_self, lockShown_eq]

/-- All the reads of an edge on which w has got lock k. -/
theorem lockReads_held (ha : ∀ n ∈ l, AcquiresLock s k n) (hw : lockOwner s k = some w) (h : OnlyAnswers s t) :
    OnlyAnswers s (l.foldl (fun u n => mstRead n 0x305 1 0x14 u) t)
      ∧ (∀ q : Port, t.hp[q].dOut = lockShown w q → (l.foldl (fun u n => mstRead n 0x305 1 0x14 u) t).hp[q].dOut = lockShown w q)
      ∧ ∀ p priv, .hp p priv ∈ l → (l.foldl (fun u n => mstRead n 0x305 1 0x14 u) t).hp[p].dOut = lockShown w p := by
  induction l generalizing t with
  | nil => exact ⟨h, fun _ hq => hq, fun _ _ hn => absurd hn List.not_mem_nil⟩
  | cons n l ih =>
    have hwt : lockOwner t k = some w := by rw [lockOwner_congr (s := s) (by rw [h.lck]), hw]
    obtain ⟨h1, hkeep1, hown1⟩ := mstRead_lockHeld (h.acquires (ha n List.mem_cons_self)) hwt h
    obtain ⟨h2, hkeep2, hown2⟩ := ih (fun j hj => ha j (List.mem_cons_of_mem _ hj)) h1
    refine ⟨h2, fun q hq => hkeep2 q (hkeep1 q hq), fun p priv hp => ?_⟩
    rcases List.mem_cons.mp hp with hn | hl
    · exact hkeep2 p (hown1 p priv hn.symm)
    · exact hown2 p priv hl

/-- Two or more masters acquire a free lock on one edge: the first at or after the pointer gets it, and every port reads so (R309). -/
theorem lockRead_contended (hl : ∀ n ∈ m :: ms, AcquiresLock s k n) (hne : ms ≠ []) (h : lockOwner s k = none) :
    ∃ w ∈ (m :: ms).map mstCode, lockOwner (lockRead m ms s) k = some w ∧ spGet 0 (lockRead m ms s).lck.ptr k = (w + 1) % 8
      ∧ (∀ n ∈ (m :: ms).map mstCode, cyclicDist (spGet 0 s.lck.ptr k) w ≤ cyclicDist (spGet 0 s.lck.ptr k) n)
      ∧ ∀ p priv, .hp p priv ∈ m :: ms → (lockRead m ms s).hp[p].dOut = lockShown w p := by
  have hwho : (m :: ms).filter (lockReaches s) = m :: ms := List.filter_eq_self.mpr fun n hn => (hl n hn).reaches
  have hread : lockRead m ms s = (m :: ms).foldl (fun u n => mstRead n 0x305 1 0x14 u) (lockContend ((m :: ms).map mstCode) k s) := by
    rw [lockRead, hwho, lockArbitrate_one hl hne h]
  obtain ⟨w, hmem, hown, hptr, hfirst, hrest⟩ := lockContend_free (c := (m :: ms).map mstCode) (List.cons_ne_nil _ _) h
  have hacq : ∀ n ∈ m :: ms, AcquiresLock (lockContend ((m :: ms).map mstCode) k s) k n := by
    intro n hn
    have hs := hl n hn
    rw [hrest]
    cases n <;> exact hs
  obtain ⟨hans, -, hshown⟩ := lockReads_held hacq hown (OnlyAnswers.refl _)
  rw [← hread] at hans hshown
  refine ⟨w, hmem, ?_, ?_, hfirst, hshown⟩
  · rw [lockOwner_congr (s := lockContend ((m :: ms).map mstCode) k s) (by rw [hans.lck]), hown]
  · rw [hans.lck, hptr]

end Sys2Proof.Machine
end

section
/-! CERTIFICATE. The locks (08 R309, R310, R315). -/

namespace Sys2Proof.Machine

/-- Settles O28: a lone acquire is the read of its register, the masters of one edge contend once and then read the winner, and a
release is `lockFree` or a refusal that leaves the lock unit alone. -/
theorem locks : Obligations.Locks := by
  unfold Obligations.Locks
  intro e p priv l s h le lp take shows freed code
  refine ⟨?engine, ?port, ?contention, ?release, ?engineRefused, ?portRelease, ?portRefused, ?force⟩
  case engine =>
    intro hm
    have halone : exec (.lockAcquire (.ce e) []) s = .next (engRead e 0x305 1 s) := congrArg Host.Outcome.next (lockRead_alone _)
    refine ⟨fun hl => ?_, fun o hl ho => ?_⟩
    · obtain ⟨y, hy, hv⟩ := engRead_lkacq_free hm hl
      exact ⟨y, halone.trans (congrArg Host.Outcome.next hy), hv⟩
    · obtain ⟨y, hy, hv⟩ := engRead_lkacq_held hm hl
      refine ⟨y, halone.trans (congrArg Host.Outcome.next hy), hv.trans (Nat.mod_eq_of_lt ?_)⟩
      split <;> omega
  case port =>
    intro hm
    have halone : exec (.lockAcquire (.hp p priv) []) s = .next (hostRead p priv 0x14 s) := congrArg Host.Outcome.next (lockRead_alone _)
    exact ⟨fun hl => halone.trans (congrArg Host.Outcome.next (hostRead_lock_free hm hl)),
      fun o hl => halone.trans (congrArg Host.Outcome.next (hostRead_lock_held hm hl))⟩
  case contention =>
    intro m ms k hne hl hall
    have hcode : code = mstCode := by
      funext n
      cases n <;> rfl
    have hacq : ∀ n ∈ m :: ms, AcquiresLock s k n := by
      intro n hn
      have ha := hall n hn
      cases n <;> exact ha
    rw [hcode]
    exact ⟨_, rfl, lockRead_contended hacq hne hl⟩
  case release =>
    intro hm hl
    exact ⟨_, congrArg Host.Outcome.next ((engWrite_lkrel hm l).trans (if_pos hl)), lockFree_frees⟩
  case engineRefused => exact fun hm hl => congrArg Host.Outcome.next ((engWrite_lkrel hm l).trans (if_neg hl))
  case portRelease =>
    intro hm hl
    refine ⟨_, congrArg Host.Outcome.next (hostWrite_ok hm ((portPut_lockrel l).trans (if_pos hl))), lockFree_frees, ?_⟩
    simp [lockFree, bufFree, h]
  case portRefused =>
    intro hm hl
    have hw : hostWrite p priv 0x15 l.toNat s = portErr p 0x0E 0x15 true (bufFree p s) :=
      hostTry_error hm ((portPut_lockrel l).trans (if_neg hl)) (by decide)
    refine ⟨_, congrArg Host.Outcome.next hw, ?_⟩
    simp only [portErr_eq, putPort_self]
    exact ⟨rfl, rfl, rfl⟩
  case force => exact fun hm hr => ⟨_, congrArg Host.Outcome.next (engWrite_lkforce hm hr l), lkForce_frees⟩

end Sys2Proof.Machine
end

section
/-! SUPPORT. An engine that enters reset (08 R298, R310; 11 R388), and the hand-over of the role loader and the ROM (12 R407). -/

namespace Sys2Proof.Machine

variable {e : Eng} {l m : Nat} {s t : State}

/-! ### An engine in reset -/

/-- The SVC bits that an engine gives up change the ports' hints only (R291). -/
theorem svcDrop_frame : svcDrop e s = { s with hsh := (svcDrop e s).hsh, hp := (svcDrop e s).hp } := by
  refine List.foldlRecOn (motive := fun t : State => t = { s with hsh := t.hsh, hp := t.hp }) _ _ rfl fun t ht p _ => ?_
  dsimp only
  split
  · split
    · rw [ht]
      rfl
    · rw [ht]
  · exact ht

/-- The locks of a master go free and no other lock does (R310). -/
theorem lockOwner_locksRelease_other (h : lockOwner s l ≠ some m) : lockOwner (locksRelease m s) l = lockOwner s l := by
  have hne : spGet 0 s.lck.held l ≠ m + 1 := fun he => h (lockOwner_eq_of_spGet he)
  refine lockOwner_congr ?_
  change spGet 0 (s.lck.held.filter (fun x => x.2 ≠ m + 1)) l = spGet 0 s.lck.held l
  generalize s.lck.held = q at hne
  induction q with
  | nil => rfl
  | cons x q ih =>
    by_cases hk : x.1 = l
    · have hx : x.2 ≠ m + 1 := by simpa [spGet, hk] using hne
      simp [hx, spGet, hk]
    · have ih' := ih (by simpa [spGet, hk] using hne)
      by_cases hx : x.2 = m + 1
      · simpa [hx, spGet, hk] using ih'
      · simpa [hx, spGet, hk] using ih'

/-- An engine in reset holds no lock, has an empty send buffer, and keeps its failure flag (R298, R310, R388). -/
theorem engReset_eq : engReset e s = putEng e { failed := s.eng[e].failed } { s with
    mbx := { s.mbx with eng := s.mbx.eng.set e { s.mbx.eng[e] with buf := [] } }, lck := (locksRelease e.val s).lck
    hsh := (engReset e s).hsh, hp := (engReset e s).hp, io := (engReset e s).io } := by
  unfold engReset
  rw [svcDrop_frame]
  rfl

/-! ### The hand-over -/

theorem handOver_self (entry g0 g1 g2 : Nat) : (handOver e entry g0 g1 g2 s).eng[e] = { s.eng[e] with
    run := .running, rom := decide (entry < 0x0800)
    g := (((Vector.replicate 16 {}).set 0 { base := g0 }).set 1 { base := g1 }).set 2 { base := g2 }
    idx := 0, pc := entry, ds := none, rep := none } := putEng_eng_self ..

/-- G0 to G2 as the role's first instruction reads them (R407). -/
theorem handOver_gRead (entry g0 g1 g2 : Nat) : gRead (handOver e entry g0 g1 g2 s).eng[e] 0 = g0 % 256
    ∧ gRead (handOver e entry g0 g1 g2 s).eng[e] 1 = g1 % 256 ∧ gRead (handOver e entry g0 g1 g2 s).eng[e] 2 = g2 % 256 := by
  rw [handOver_self]
  exact ⟨rfl, rfl, rfl⟩

end Sys2Proof.Machine
end

section
/-! SUPPORT. Images (12 R407, R410, R411): the state that an image lies in, and what loading its sections writes. -/

namespace Sys2Proof.Machine

variable {e : Eng} {slot : Nat} {x : Sec} {l : List Sec} {s t : State}

/-! ### Where an image lies -/

theorem imgByte_flash (h : slot ≠ 2) (hf : t.fls = s.fls) : imgByte t slot = imgByte s slot := by
  funext i
  rw [imgByte, imgByte, if_neg h, if_neg h, flByte, flByte, hf]

theorem imgByte_shm (h : t.shm = s.shm) : imgByte t 2 = imgByte s 2 := by
  funext i
  rw [imgByte, imgByte, if_pos rfl, if_pos rfl, shmByte, shmByte, h]

theorem imgSecs_congr (h : imgByte t slot = imgByte s slot) : imgSecs t slot = imgSecs s slot := by
  have hsec : imgSec t slot = imgSec s slot := by
    funext k
    simp only [imgSec, imgNat, imgBytes, h]
  simp only [imgSecs, hsec, imgNat, imgBytes, h]

/-- A container is judged by its bytes and the security version alone (R411). -/
theorem containerOk_congr (h : imgByte t slot = imgByte s slot) (hv : t.fls.otpSvn = s.fls.otpSvn) :
    containerOk t slot = containerOk s slot := by
  unfold containerOk digestOk imgSecs imgSec imgNat imgBytes
  rw [h, hv]

/-! ### Loading -/

theorem loadSec_frame : loadSec slot e x s = { s with emem := (loadSec slot e x s).emem, shm := (loadSec slot e x s).shm } := by
  unfold loadSec
  split
  · rfl
  split
  · rfl
  split <;> rfl

theorem loadSecs_frame : loadSecs slot e l s = { s with emem := (loadSecs slot e l s).emem, shm := (loadSecs slot e l s).shm } := by
  refine List.foldlRecOn (motive := fun t : State => t = { s with emem := t.emem, shm := t.shm }) _ _ rfl fun t ht y _ => ?_
  rw [loadSec_frame, ht]

/-- Only SHM sections write SHM. -/
theorem loadSec_shm (h : x.typ ≠ 3) : (loadSec slot e x s).shm = s.shm := by
  unfold loadSec
  split
  · rfl
  split <;> rfl

theorem loadSecs_shm (h : ∀ y ∈ l, y.typ ≠ 3) : (loadSecs slot e l s).shm = s.shm :=
  List.foldlRecOn (motive := fun t : State => t.shm = s.shm) l _ rfl fun _ ht y hy => (loadSec_shm (h y hy)).trans ht

/-! ### Roles (R388) -/

section Role
variable (hd : domOn s (engDom e.val) = true) (hl : s.eng[e].run = .loading)
include hd hl

/-- A role whose sections all pass their digest starts at the entry of its code section. -/
theorem roleLoad_starts (hx : (roleSecs s (s.rst.bootstat / 64) s.eng[e].role).find? (fun x => x.typ = 1) = some x)
    (hs : s.rst.bootstat / 64 ≠ 3) (hok : (roleSecs s (s.rst.bootstat / 64) s.eng[e].role).all (digestOk s (s.rst.bootstat / 64)) = true) :
    roleLoad e s = handOver e x.entry s.eng[e].role s.eng[e].cause 0
      (loadSecs (s.rst.bootstat / 64) e (roleSecs s (s.rst.bootstat / 64) s.eng[e].role) s) := by
  simp [roleLoad, hd, hl, hx, hs, hok, -Fin.getElem_fin, -List.all_eq_true]

theorem roleLoad_fails (hok : (roleSecs s (s.rst.bootstat / 64) s.eng[e].role).all (digestOk s (s.rst.bootstat / 64)) = false) :
    roleLoad e s = roleLoad.roleFail e (loadSecs (s.rst.bootstat / 64) e (roleSecs s (s.rst.bootstat / 64) s.eng[e].role) s) := by
  unfold roleLoad
  simp only [hd, hl, hok, decide_true, Bool.and_false, Bool.and_true, if_true, Bool.false_eq_true, if_false]
  split <;> rfl

end Role

/-- A failed role: the engine is in reset with its failure flag, and what R298 and R310 release is released. -/
theorem roleFail_fails : (roleLoad.roleFail e s).eng = s.eng.set e { failed := true }
    ∧ (roleLoad.roleFail e s).dct = { s.dct with erflt := s.dct.erflt ||| 2 } ∧ (roleLoad.roleFail e s).lck = (locksRelease e.val s).lck
    ∧ (roleLoad.roleFail e s).mbx = { s.mbx with eng := s.mbx.eng.set e { s.mbx.eng[e] with buf := [] } } := by
  rw [roleLoad.roleFail, logRec_eq, engReset_eq]
  refine ⟨?_, rfl, rfl, rfl⟩
  simp [putEng, putDct]

end Sys2Proof.Machine
end

section
/-! SUPPORT. The image that CE0 boots (12 R407, R420, R421), where it has no PRT table. -/

namespace Sys2Proof.Machine

variable {slot n : Nat} {fell noImage : Bool} {x : Sec} {s t : State}

/-- The seal ends the boot phase and records it; beyond that it changes nothing (R421). -/
theorem prtSeal_open (h : s.rst.bootPhase = true) : prtSeal s = { s with
    rst := { s.rst with bootPhase := false, sealed := true }, hp := (prtSeal s).hp, fbk := (prtSeal s).fbk, svy := (prtSeal s).svy } := by
  have hs : prtSeal s = logRec 2 0xA [s.rst.cause, s.rst.bootstat, s.rst.bootver % 65536, s.rst.bootver / 65536, s.rst.svn, s.rst.hist]
      { s with rst := { s.rst with bootPhase := false, sealed := true } } := if_pos h
  rw [hs, logRec_eq]

/-- BOOTSTAT of an image (R404, R407). -/
def imageStat (slot : Nat) (fell noImage : Bool) (n : Nat) : Nat := slot * 64 + bAt fell 5 + bAt noImage 4 + triesField n

/-- The sections of an image that CE0 loads (R407). -/
def bootSecs (s : State) (slot : Nat) : List Sec :=
  (imgSecs s slot).filter (fun x => ((x.typ = 1 || x.typ = 2) && x.role = 0) || x.typ = 3)

/-- The sections of an image are loaded, and BOOTSTAT and BOOTVER tell of it. -/
def imageLoaded (slot : Nat) (fell noImage : Bool) (n : Nat) (s : State) : State :=
  let s0 := loadSecs slot 0 (bootSecs s slot) s
  { s0 with rst := { s0.rst with
      bootstat := imageStat slot fell noImage n, bootver := imgNat s slot 0x08 4, svn := imgNat s slot 0x0C 4 } }

theorem imageLoaded_frame : imageLoaded slot fell noImage n s = { s with
    emem := (imageLoaded slot fell noImage n s).emem, shm := (imageLoaded slot fell noImage n s).shm
    rst := { s.rst with bootstat := imageStat slot fell noImage n, bootver := imgNat s slot 0x08 4, svn := imgNat s slot 0x0C 4 } } := by
  rw [imageLoaded, loadSecs_frame]

/-- The image of a slot lies in the flash, that of the recovery wait in SHM, where only its SHM sections could overwrite it. -/
theorem imgByte_imageLoaded (h : slot = 2 → ∀ y ∈ imgSecs s 2, y.typ ≠ 3) :
    imgByte (imageLoaded slot fell noImage n s) slot = imgByte s slot := by
  by_cases h2 : slot = 2
  · subst h2
    exact imgByte_shm (loadSecs_shm fun y hy => h rfl y (List.mem_of_mem_filter hy))
  · exact imgByte_flash h2 (by rw [imageLoaded_frame])

/-- CE0 leaves the boot phase for the entry of its role (R407, R421). -/
def bootHandOver (entry stat : Nat) (s : State) : State :=
  handOver 0 entry 0 0 stat { prtSeal s with rst := { (prtSeal s).rst with handed := true, recovery := false } }

theorem bootHandOver_frame {entry stat : Nat} (h : s.rst.bootPhase = true) : bootHandOver entry stat s = { s with
    rst := { s.rst with bootPhase := false, sealed := true, handed := true, recovery := false }
    eng := (bootHandOver entry stat s).eng, hp := (prtSeal s).hp, fbk := (prtSeal s).fbk, svy := (prtSeal s).svy } := by
  rw [bootHandOver, prtSeal_open h]
  rfl

theorem bootImage_eq (he : (prtTable slot (imageLoaded slot fell noImage n s)).prt.err = false)
    (hx : (imgSecs s slot).find? (fun x => x.typ = 1 && x.role = 0) = some x) :
    bootImage slot fell noImage n s
      = bootHandOver x.entry (imageStat slot fell noImage n) (prtTable slot (imageLoaded slot fell noImage n s)) := by
  have hb : bootImage slot fell noImage n s = bootHandOver
      ((((imgSecs s slot).find? (fun x => x.typ = 1 && x.role = 0)).map Sec.entry).getD 0) (imageStat slot fell noImage n)
      (prtTable slot (imageLoaded slot fell noImage n s)) := if_neg (ne_true_of_eq_false he)
  rw [hb, hx]
  rfl

/-- From s to t the image of a slot has been booted: the boot phase is over, and CE0 runs its role from the entry of section x. -/
structure ImageRuns (slot stat : Nat) (x : Sec) (s t : State) : Prop where
  rst : t.rst = { s.rst with bootstat := stat, bootver := imgNat s slot 0x08 4, svn := imgNat s slot 0x0C 4
                             bootPhase := false, sealed := true, handed := true, recovery := false }
  fls : t.fls = s.fls
  prt : t.prt = s.prt
  run : t.eng[(0 : Eng)].run = .running
  pc : t.eng[(0 : Eng)].pc = x.entry
  g2 : gRead t.eng[(0 : Eng)] 2 = stat % 256

theorem bootImage_runs (hb : s.rst.bootPhase = true) (he : s.prt.err = false) (h3 : slot = 2 → ∀ y ∈ imgSecs s 2, y.typ ≠ 3)
    (h4 : (imgSecs s slot).find? (fun x => x.typ = 4) = none) (hx : (imgSecs s slot).find? (fun x => x.typ = 1 && x.role = 0) = some x) :
    ImageRuns slot (imageStat slot fell noImage n) x s (bootImage slot fell noImage n s) := by
  have htab : prtTable slot (imageLoaded slot fell noImage n s) = imageLoaded slot fell noImage n s := by
    rw [prtTable, imgSecs_congr (imgByte_imageLoaded h3), h4]
  have herr : (imageLoaded slot fell noImage n s).prt.err = false := by rw [imageLoaded_frame, he]
  have hopen : (imageLoaded slot fell noImage n s).rst.bootPhase = true := by rw [imageLoaded_frame, hb]
  rw [bootImage_eq (by rw [htab, herr]) hx, htab]
  refine ⟨?_, ?_, ?_, by rw [bootHandOver, handOver_self], by rw [bootHandOver, handOver_self], (handOver_gRead _ _ _ _).2.2⟩
  all_goals rw [bootHandOver_frame hopen, imageLoaded_frame]

end Sys2Proof.Machine
end

section
/-! SUPPORT. The recovery wait (12 R414): the windows that open for the ports, and the check that a port asks for. -/

namespace Sys2Proof.Machine

variable {p q : Port} {priv : Bool} {x : Sec} {s t : State}

/-! ### The grants -/

/-- Field 29 to 28 of a right takes its new value. -/
theorem fld_setFld_g14 (v : Nat) : fld (setFld v 29 28 2) 29 28 = 2 := by
  simp only [fld, setFld, Nat.shiftRight_eq_div_pow]
  omega

/-- Port p has G14 and the SHM bytes of the recovery range (R414). -/
def RecoveryGranted (s : State) (p : Port) : Prop :=
  fld s.prt.pright[p] 29 28 = 2 ∧ s.prt.wreg[4 * p.val]'(by omega) = { b0 := 0xD0, start := 0x10000, stop := 0x1FFFF }

theorem recoveryGrant_frame : recoveryGrant p s = { s with prt := (recoveryGrant p s).prt } := by
  unfold recoveryGrant
  split <;> rfl

theorem recoveryGrant_granted (h : s.hp[p].powered = true) : RecoveryGranted (recoveryGrant p s) p := by
  rw [recoveryGrant, if_pos h]
  refine ⟨?_, ?_⟩
  · rw [getElem_set_fin_self]
    exact fld_setFld_g14 _
  · fin_cases p <;> simp [finOf]

theorem RecoveryGranted.other (hg : RecoveryGranted s q) (h : q ≠ p) : RecoveryGranted (recoveryGrant p s) q := by
  obtain ⟨hr, hw⟩ := hg
  unfold recoveryGrant
  split
  · refine ⟨?_, ?_⟩
    · rw [getElem_set_fin_ne h]
      exact hr
    · rw [Vector.getElem_set_ne, hw]
      have hv : q.val ≠ p.val := fun hv => h (Fin.ext hv)
      simp only [finOf, Fin.ofNat]
      omega
  · exact ⟨hr, hw⟩

/-- CE0 waits for an image in SHM (R412, R414). -/
def recoveryWait (s : State) : State :=
  recoveryGrant 1 (recoveryGrant 0 { s with rst := { s.rst with bootstat := 0xD0, recovery := true } })

theorem recoveryWait_frame : recoveryWait s = { s with
    rst := { s.rst with bootstat := 0xD0, recovery := true }, prt := (recoveryWait s).prt } := by
  rw [recoveryWait, recoveryGrant_frame, recoveryGrant_frame]

theorem recoveryWait_granted (h : s.hp[p].powered = true) : RecoveryGranted (recoveryWait s) p := by
  unfold recoveryWait
  match p with
  | 0 => exact RecoveryGranted.other (p := 1) (recoveryGrant_granted (p := 0) h) (by decide)
  | 1 =>
    refine recoveryGrant_granted (p := 1) ?_
    rw [recoveryGrant_frame]
    exact h

/-! ### The check -/

/-- SCRATCH0 asks for a recovery check (R414). -/
def recoveryAsked (p : Port) (s : State) : State :=
  { bufFree p s with hsh := { s.hsh with scratch := s.hsh.scratch.set 0 0x4B5A } }

theorem hostWrite_recoveryCheck (h : PortMay s p priv 0x30 true) :
    hostWrite p priv 0x30 0x4B5A s = recoveryCheck (recoveryAsked p s) := hostWrite_ok h rfl

theorem recoveryAsked_scratch : (recoveryAsked p s).hsh.scratch[(0 : Fin 8)] = 0x4B5A := getElem_set_fin_self s.hsh.scratch (0 : Fin 8) _

theorem imgSecs_recoveryAsked : imgSecs (recoveryAsked p s) 2 = imgSecs s 2 := imgSecs_congr (imgByte_shm rfl)

theorem containerOk_recoveryAsked : containerOk (recoveryAsked p s) 2 = containerOk s 2 := containerOk_congr (imgByte_shm rfl) rfl

theorem romRuns_bootPhase (h : romRuns s = true) : s.rst.bootPhase = true ∧ s.rst.handed = false := by
  simp only [romRuns, Bool.and_eq_true, Bool.not_eq_true'] at h
  obtain ⟨⟨-, hb⟩, hh⟩ := h
  exact ⟨hb, hh⟩

theorem recoveryCheck_noRom (h : romRuns s = false) : recoveryCheck s = s := by simp [recoveryCheck, h]

section Asked
variable (hr : romRuns s = true) (hw : s.rst.recovery = true) (ha : s.hsh.scratch[(0 : Fin 8)] = 0x4B5A)
include hr hw ha

theorem recoveryCheck_invalid (hc : containerOk s 2 = false) :
    recoveryCheck s = { s with hsh := { s.hsh with scratch := s.hsh.scratch.set 0 0xBAD0 } } := by
  simp only [recoveryCheck, hr, hw, ha, hc, decide_true, Bool.and_true, if_true, Bool.false_eq_true, if_false]

theorem recoveryCheck_valid (hc : containerOk s 2 = true) : recoveryCheck s = bootImage 2 false true 0 (recoveryEnd s) := by
  simp only [recoveryCheck, hr, hw, ha, hc, decide_true, Bool.and_true, if_true]

/-- A valid container in SHM is booted with PRT at its reset values (R414, R420). -/
theorem recoveryCheck_runs (hc : containerOk s 2 = true) (he : s.prt.err = false) (hsec : ∀ y ∈ imgSecs s 2, y.typ ≠ 3 ∧ y.typ ≠ 4)
    (hx : (imgSecs s 2).find? (fun x => x.typ = 1 && x.role = 0) = some x) :
    ImageRuns 2 0x90 x (recoveryEnd s) (recoveryCheck s) := by
  have himg : imgSecs (recoveryEnd s) 2 = imgSecs s 2 := imgSecs_congr (imgByte_shm rfl)
  have h4 : (imgSecs s 2).find? (fun x => x.typ = 4) = none := List.find?_eq_none.mpr fun y hy => by simpa using (hsec y hy).2
  rw [← himg] at hsec hx h4
  obtain ⟨hb, -⟩ := romRuns_bootPhase hr
  rw [recoveryCheck_valid hr hw ha hc]
  exact bootImage_runs (fell := false) (noImage := true) (n := 0) (s := recoveryEnd s) hb he (fun _ y hy => (hsec y hy).1) h4 hx

end Asked

end Sys2Proof.Machine
end

section
/-! SUPPORT. The device boot (12 R407, R412, R413): the slot that the ROM picks, and what it leaves of the state. -/

namespace Sys2Proof.Machine

variable {j k : Nat} {l : List Nat} {s u : State}

/-! ### The boot record (R413) -/

theorem brRead_active {c : Nat} {b : BootRec} (h : brRead s c = some b) : b.active ≤ 1 := by
  unfold brRead at h
  dsimp only at h
  split at h
  · next hc =>
    simp only [Bool.and_eq_true, decide_eq_true_eq] at hc
    obtain ⟨⟨-, ha⟩, -⟩ := hc
    rw [← Option.some.inj h]
    exact ha
  · cases h

/-- The record in use names slot A or slot B. -/
theorem brCurrent_active : (brCurrent s).1.active ≤ 1 := by
  unfold brCurrent
  split
  · next hx hy =>
    split
    · exact brRead_active hy
    · exact brRead_active hx
  · next hx _ => exact brRead_active hx
  · next hy => exact brRead_active hy
  · exact Nat.zero_le 1

/-- The ROM marks slot k BAD. -/
def slotBad (k : Nat) (s : State) : State := brUpdate (brBad k (brCurrent s).1) s

/-- The ROM counts a trial of slot k. -/
def slotTried (k : Nat) (s : State) : State := brUpdate (brTry k (brCurrent s).1) s

/-- From s to u only the flash may have changed. -/
def OnlyFlash (s u : State) : Prop := u = { s with fls := u.fls }

theorem OnlyFlash.slotBad (h : OnlyFlash s u) (k : Nat) : OnlyFlash s (slotBad k u) := congrArg (Machine.slotBad k) h

theorem OnlyFlash.slotTried (h : OnlyFlash s u) (k : Nat) : OnlyFlash s (slotTried k u) := congrArg (Machine.slotTried k) h

/-! ### The pick (R412) -/

theorem bootPick_bad (h : brState (brCurrent s).1 k = 0) : bootPick (k :: l) s = bootPick l s := by simp [bootPick, h]

theorem bootPick_good (h : brState (brCurrent s).1 k = 0x5A) :
    bootPick (k :: l) s = if containerOk s k then (s, some k) else bootPick l (slotBad k s) := by
  simp [bootPick, h, slotBad]

theorem bootPick_spent (h : brState (brCurrent s).1 k = 0xFF) (ht : 3 ≤ brTries (brCurrent s).1 k) :
    bootPick (k :: l) s = bootPick l (slotBad k s) := by
  simp [bootPick, h, ht, slotBad]

theorem bootPick_new (h : brState (brCurrent s).1 k = 0xFF) (ht : brTries (brCurrent s).1 k < 3) :
    bootPick (k :: l) s = if containerOk (slotTried k s) k then (slotTried k s, some k) else bootPick l (slotBad k (slotTried k s)) := by
  have ht' : ¬ 3 ≤ brTries (brCurrent s).1 k := Nat.not_le.mpr ht
  simp only [bootPick, h, ht', slotBad, slotTried, decide_true, decide_false, Bool.and_false, Bool.false_eq_true, if_true, if_false]
  rfl

/-! ### Where the boot ends -/

/-- CE0 is in its ROM, in no recovery wait and with no PRT error, and slot k is the active one. -/
structure BootReady (k : Nat) (s : State) : Prop where
  rom : romRuns s = true
  free : s.rst.recovery = false
  prt : s.prt.err = false
  active : (brCurrent s).1.active = k

/-- The image of slot j, where it has no PRT table, is handed over to; k is the slot that was active. -/
def HandsOver (k j : Nat) (u t : State) : Prop :=
  ∀ x, (imgSecs u j).find? (fun x => x.typ = 4) = none → (imgSecs u j).find? (fun x => x.typ = 1 && x.role = 0) = some x →
    t.rst.handed = true ∧ t.rst.recovery = false ∧ t.rst.bootPhase = false ∧ t.rst.sealed = true ∧ t.fls = u.fls
    ∧ t.rst.bootstat = 64 * j + (if j = k then 0 else 32) + triesField (brTries (brCurrent u).1 j)
    ∧ t.rst.bootver = imgNat u j 0x08 4 ∧ t.rst.svn = imgNat u j 0x0C 4
    ∧ t.eng[(0 : Eng)].run = .running ∧ t.eng[(0 : Eng)].pc = x.entry ∧ gRead t.eng[(0 : Eng)] 2 = t.rst.bootstat % 256

/-- No slot is left, with the flash as in u: CE0 is in the recovery wait. -/
def WaitsForImage (s u t : State) : Prop :=
  t.rst = { s.rst with bootstat := 0xD0, recovery := true } ∧ t.eng = s.eng ∧ t.fls = u.fls

theorem deviceBoot_waits (hr : romRuns s = true) (hf : s.rst.recovery = false)
    (hp : bootPick [(brCurrent s).1.active, 1 - (brCurrent s).1.active] s = (u, none)) : deviceBoot s = recoveryWait u := by
  simp only [deviceBoot, hr, hf, Bool.not_false, Bool.and_true, if_true, hp]
  rfl

theorem deviceBoot_boots (hr : romRuns s = true) (hf : s.rst.recovery = false)
    (hp : bootPick [(brCurrent s).1.active, 1 - (brCurrent s).1.active] s = (u, some j)) :
    deviceBoot s = bootImage j (decide (j ≠ (brCurrent s).1.active)) false (brTries (brCurrent u).1 j) u := by
  simp only [deviceBoot, hr, hf, Bool.not_false, Bool.and_true, if_true, hp]

section Ends
variable (hs : BootReady k s) (hu : OnlyFlash s u)
include hs hu

theorem BootReady.waits (hp : bootPick [k, 1 - k] s = (u, none)) : Does .deviceBoot s (WaitsForImage s u) := by
  obtain ⟨hr, hf, -, rfl⟩ := hs
  refine ⟨_, congrArg Host.Outcome.next (deviceBoot_waits hr hf hp), ?_⟩
  rw [WaitsForImage, recoveryWait_frame]
  refine ⟨?_, ?_, rfl⟩
  · rw [hu]
  · rw [hu]

theorem BootReady.hands (hj : j ≠ 2) (hp : bootPick [k, 1 - k] s = (u, some j)) : Does .deviceBoot s (HandsOver k j u) := by
  obtain ⟨hr, hf, he, rfl⟩ := hs
  refine ⟨_, congrArg Host.Outcome.next (deviceBoot_boots hr hf hp), fun x h4 hx => ?_⟩
  have hb : u.rst.bootPhase = true := by
    rw [hu]
    exact (romRuns_bootPhase hr).1
  have hue : u.prt.err = false := by
    rw [hu]
    exact he
  have himg := bootImage_runs (fell := decide (j ≠ (brCurrent s).1.active)) (noImage := false) (n := brTries (brCurrent u).1 j)
    hb hue (fun h => absurd h hj) h4 hx
  have hstat : imageStat j (decide (j ≠ (brCurrent s).1.active)) false (brTries (brCurrent u).1 j)
      = 64 * j + (if j = (brCurrent s).1.active then 0 else 32) + triesField (brTries (brCurrent u).1 j) := by
    rw [imageStat, Nat.mul_comm]
    by_cases hk : j = (brCurrent s).1.active <;> simp [bAt, hk]
  obtain ⟨hrst, hfls, -, hrun, hpc, hg⟩ := himg
  rw [hrst, ← hstat]
  exact ⟨rfl, rfl, rfl, rfl, hfls, rfl, rfl, rfl, hrun, hpc, hg⟩

/-- What the ROM makes of the other slot, with the flash as in u after the active one (R412). -/
def SecondSlot (k : Nat) (s u : State) : Prop :=
  (brState (brCurrent u).1 (1 - k) = 0 → Does .deviceBoot s (WaitsForImage s u))
  ∧ (brState (brCurrent u).1 (1 - k) = 0x5A →
      Does .deviceBoot s (if containerOk u (1 - k) = true then HandsOver k (1 - k) u else WaitsForImage s (slotBad (1 - k) u)))
  ∧ (brState (brCurrent u).1 (1 - k) = 0xFF → 3 ≤ brTries (brCurrent u).1 (1 - k) →
      Does .deviceBoot s (WaitsForImage s (slotBad (1 - k) u)))
  ∧ (brState (brCurrent u).1 (1 - k) = 0xFF → brTries (brCurrent u).1 (1 - k) < 3 →
      Does .deviceBoot s (if containerOk (slotTried (1 - k) u) (1 - k) = true then HandsOver k (1 - k) (slotTried (1 - k) u)
        else WaitsForImage s (slotBad (1 - k) (slotTried (1 - k) u))))

/-- The last slot that the ROM tries is handed over to exactly when its container is valid. -/
theorem BootReady.last (hj : j ≠ 2)
    (hp : bootPick [k, 1 - k] s = if containerOk u j then (u, some j) else bootPick [] (Machine.slotBad j u)) :
    Does .deviceBoot s (if containerOk u j = true then HandsOver k j u else WaitsForImage s (Machine.slotBad j u)) := by
  split
  · next hc => exact hs.hands hu hj (by rw [hp, if_pos hc])
  · next hc => exact hs.waits (hu.slotBad j) (by rw [hp, if_neg hc]; rfl)

theorem BootReady.second (hp : bootPick [k, 1 - k] s = bootPick [1 - k] u) : SecondSlot k s u := by
  have hj : 1 - k ≠ 2 := by omega
  exact ⟨fun h => hs.waits hu (hp.trans (bootPick_bad h)), fun h => hs.last hu hj (hp.trans (bootPick_good h)),
    fun h ht => hs.waits (hu.slotBad _) (hp.trans (bootPick_spent h ht)),
    fun h ht => hs.last (hu.slotTried _) hj (hp.trans (bootPick_new h ht))⟩

/-- The active slot, whose container decides: it is handed over to, or the other slot comes after it. -/
theorem BootReady.first (hp : bootPick [k, 1 - k] s = if containerOk u k then (u, some k) else bootPick [1 - k] (slotBad k u)) :
    if containerOk u k = true then Does .deviceBoot s (HandsOver k k u) else SecondSlot k s (slotBad k u) := by
  have hk : k ≠ 2 := by
    have hle := brCurrent_active (s := s)
    rw [hs.active] at hle
    omega
  split
  · next hc => exact hs.hands hu hk (by rw [hp, if_pos hc])
  · next hc => exact hs.second (hu.slotBad k) (by rw [hp, if_neg hc])

end Ends

end Sys2Proof.Machine
end

section
/-! CERTIFICATE. The role loader, the device boot and the recovery wait (08 R298, R310; 11 R388; 12 R407, R411 to R414, R420, R421). -/

namespace Sys2Proof.Machine

/-- Settles O36: a role starts by the hand-over or fails by the reset of its engine, the device boot ends as its pick of a slot does,
and a recovery check is the boot of the SHM image or a refusal in SCRATCH0. -/
theorem bootAndRoles : Obligations.BootAndRoles := by
  unfold Obligations.BootAndRoles
  refine ⟨?roles, ?noImage, ?recovery, ?boot⟩
  case roles =>
    intro e x s q slot hd hl
    refine ⟨fun hx hs hok => ?starts, fun hok => ?fails⟩
    case starts =>
      obtain ⟨h0, h1, h2⟩ := handOver_gRead (e := e) (s := loadSecs slot e (roleSecs s slot q.role) s) x.entry q.role q.cause 0
      have hother : ∀ m : Eng, m ≠ e →
          (handOver e x.entry q.role q.cause 0 (loadSecs slot e (roleSecs s slot q.role) s)).eng[m] = s.eng[m] := by
        intro m hm
        rw [handOver, putEng_eng_ne hm, loadSecs_frame]
      refine ⟨_, congrArg Host.Outcome.next (roleLoad_starts hd hl hx hs hok), ?_, ?_, ?_, h0, h1, h2, ?_, hother⟩
      all_goals rw [handOver_self]
      · rw [loadSecs_frame]
      · exact decide_eq_true_iff
    case fails =>
      obtain ⟨heng, hdct, hlck, hmbx⟩ := roleFail_fails (e := e) (s := loadSecs slot e (roleSecs s slot q.role) s)
      rw [loadSecs_frame] at heng hdct hlck hmbx
      refine ⟨_, congrArg Host.Outcome.next (roleLoad_fails hd hl hok), ?_, ?_, fun m hm => ?_, fun l => ?_, fun l hne => ?_, ?_⟩
      all_goals rw [loadSecs_frame]
      · rw [heng, getElem_set_fin_self]
      · exact hdct
      · rw [heng, getElem_set_fin_ne hm]
      · rw [lockOwner, hlck]
        exact lockOwner_locksRelease (s := s) e.val l
      · rw [lockOwner, hlck]
        exact lockOwner_locksRelease_other (s := s) hne
      · exact hmbx
  case noImage =>
    intro s hr hf hb
    have hstate : ∀ k, brState (brCurrent s).1 k = 0 := fun k => by simp [brState, hb]
    have hpick : bootPick [(brCurrent s).1.active, 1 - (brCurrent s).1.active] s = (s, none) := by
      rw [bootPick_bad (hstate _), bootPick_bad (hstate _), bootPick]
    refine ⟨_, congrArg Host.Outcome.next (deviceBoot_waits hr hf hpick), ?_, ?_, ?_, fun p hp => recoveryWait_granted hp⟩
    all_goals rw [recoveryWait_frame]
  case recovery =>
    intro p priv s hm
    refine ⟨_, congrArg Host.Outcome.next (hostWrite_recoveryCheck hm), fun h => ?idle, fun hr hw hc => ?invalid,
      fun x hr hw hsec he hx => ?checked⟩
    case idle =>
      have hidle : recoveryCheck (recoveryAsked p s) = recoveryAsked p s :=
        h.elim (recoveryCheck_noRom (s := recoveryAsked p s)) fun hw => recoveryCheck_idle (.inl hw)
      rw [hidle]
      exact ⟨recoveryAsked_scratch, rfl⟩
    case invalid =>
      rw [recoveryCheck_invalid (s := recoveryAsked p s) hr hw recoveryAsked_scratch (containerOk_recoveryAsked.trans hc)]
      exact ⟨getElem_set_fin_self _ (0 : Fin 8) _, rfl, rfl⟩
    case checked =>
      cases hc : containerOk s 2 with
      | false =>
        rw [recoveryCheck_invalid (s := recoveryAsked p s) hr hw recoveryAsked_scratch (containerOk_recoveryAsked.trans hc)]
        exact ⟨(Bool.or_false _).symm, hw, fun h => absurd h Bool.false_ne_true⟩
      | true =>
        rw [← imgSecs_recoveryAsked (p := p)] at hsec hx
        obtain ⟨hrst, -, hprt, hrun, hpc, -⟩ := recoveryCheck_runs (s := recoveryAsked p s) hr hw recoveryAsked_scratch
          (containerOk_recoveryAsked.trans hc) he hsec hx
        rw [hrst, hprt]
        refine ⟨(Bool.or_true _).symm, rfl, fun _ => ⟨rfl, rfl, hrun, hpc, fun n => ⟨?_, fun k => ?_⟩⟩⟩
        · fin_cases n <;> rfl
        · exact Vector.getElem_replicate _
  case boot =>
    intro k s hr hf he ha st tries bad try_ hands noImage second
    have hs : BootReady k s := ⟨hr, hf, he, ha⟩
    have hself : OnlyFlash s s := rfl
    exact ⟨fun h => hs.second hself (bootPick_bad h), fun h => hs.first hself (bootPick_good h),
      fun h ht => hs.second (hself.slotBad k) (bootPick_spent h ht), fun h ht => hs.first (hself.slotTried k) (bootPick_new h ht)⟩

end Sys2Proof.Machine
end
